-- ==== Sys2Proof/Word.lean ====
section
/-! DEFINITION. The words of the hub: bytes, audio samples, addresses, and fixed-size tables of records. -/

namespace Sys2Proof

/-- One byte of a hall-link frame (Table 8-1). -/
abbrev Byte := BitVec 8

/-- One audio sample: signed 16-bit PCM (00, "Numbers of the part"). -/
abbrev Sample := BitVec 16

/-- A 16-bit station address on the hall link (08, section 8.1). -/
abbrev Station := BitVec 16

/-- A receiver's 24-bit tag (Table 5-1). -/
abbrev RxTag := BitVec 24

/-- A zone set, bit z set when zone z is in the set (Table 8-5). -/
abbrev ZoneSet := BitVec 12

/-- A table of exactly `n` records, read and written by a bounded index. The list carries the proof of its
length, so a table of another size cannot be built. -/
structure Tab (α : Type) (n : Nat) where
  items : List α
  size_eq : items.length = n
  deriving DecidableEq, Repr

/-- The record at index `i`. -/
def Tab.get {α : Type} {n : Nat} (t : Tab α n) (i : Fin n) : α :=
  t.items.get (i.cast t.size_eq.symm)

/-- The table with the record at index `i` replaced. -/
def Tab.set {α : Type} {n : Nat} (t : Tab α n) (i : Fin n) (x : α) : Tab α n :=
  ⟨t.items.set i.val x, by rw [List.length_set, t.size_eq]⟩

/-- The table of `n` copies of one record. -/
def Tab.fill {α : Type} (n : Nat) (x : α) : Tab α n :=
  ⟨List.replicate n x, List.length_replicate⟩

/-- The table whose record at index `i` is `f i`. -/
def Tab.ofFn {α : Type} {n : Nat} (f : Fin n → α) : Tab α n :=
  ⟨List.ofFn f, List.length_ofFn⟩

/-- Every record of the table changed by `f`. -/
def Tab.map {α β : Type} {n : Nat} (f : α → β) (t : Tab α n) : Tab β n :=
  ⟨t.items.map f, by rw [List.length_map, t.size_eq]⟩

/-- Every record of the table changed by `f`, which is also given the record's index. -/
def Tab.mapWith {α β : Type} {n : Nat} (f : Fin n → α → β) (t : Tab α n) : Tab β n :=
  Tab.ofFn fun i => f i (t.get i)

/-- The indices of a table of size `n`, in ascending order. -/
abbrev indices (n : Nat) : List (Fin n) := List.finRange n

/-- The value of an optional identifier `k` when it lies below `n`. -/
def toId (n k : Nat) : Option (Fin n) :=
  if h : k < n then some ⟨k, h⟩ else none

/-- One 64-sample audio frame (01, R6). -/
abbrev Frame := Tab Sample 64

end Sys2Proof
end

