-- ==== Sys2Proof/Syntax.lean ====
section
/-! DEFINITION. The commands of the hub: one constructor per row of spec/opcode_table.json, in the table's order. -/

namespace Sys2Proof

/-- One command. The rule each docstring names is the row's own rule. -/
inductive Instr where
  /-- POWER_ON (R159): supply applied; the straps are read. -/
  | powerOn (straps : BitVec 4)
  /-- PIN_RESET (R159): reset pin asserted and released; the straps are read. -/
  | pinReset (straps : BitVec 4)
  /-- LINK_UP (R164): the receiver locks to the link partner. -/
  | linkUp
  /-- LINK_DOWN (R164): the receiver loses the link partner. -/
  | linkDown
  /-- FRAME_REJECTED (R161): an arriving frame, all its bytes. -/
  | frameRejected (frame : List Byte)
  /-- AUDIO_UP (R6): an arriving AUDIO UP frame, all its bytes. -/
  | audioUp (frame : List Byte)
  /-- BAY_STATUS (R120): an arriving BAY STATUS frame, all its bytes. -/
  | bayStatus (frame : List Byte)
  /-- DOCK_NOTICE (R122): an arriving DOCK NOTICE frame, all its bytes. -/
  | dockNotice (frame : List Byte)
  /-- MGMT_REQUEST (R180): an arriving MGMT REQUEST frame, all its bytes. -/
  | mgmtRequest (frame : List Byte)
  /-- BAD_REQUEST (R181): the request in service is answered BAD_REQUEST. -/
  | badRequest
  /-- REPLY_ACCEPTED (R168): the held reply is accepted into class 3. -/
  | replyAccepted
  /-- LOAD_SOURCE (R2): service of the request in service. -/
  | loadSource
  /-- READ_SOURCE (R5): service of the request in service. -/
  | readSource
  /-- LOAD_PROGRAM (R22): service of the request in service. -/
  | loadProgram
  /-- STAGE_GAIN (R25): service of the request in service. -/
  | stageGain
  /-- APPLY_GAINS (R26): service of the request in service. -/
  | applyGains
  /-- READ_PROGRAM (R39): service of the request in service. -/
  | readProgram
  /-- LOAD_CHANNEL (R45): service of the request in service. -/
  | loadChannel
  /-- READ_CHANNEL (R47): service of the request in service. -/
  | readChannel
  /-- READ_ZONE (R60): service of the request in service. -/
  | readZone
  /-- LOAD_TOUR_PLAN (R63): service of the request in service. -/
  | loadTourPlan
  /-- LOAD_TOUR_TIMING (R65): service of the request in service. -/
  | loadTourTiming
  /-- CLEAR_TOUR (R66): service of the request in service. -/
  | clearTour
  /-- READ_TOUR (R67): service of the request in service. -/
  | readTour
  /-- TOUR_START (R68): service of the request in service. -/
  | tourStart
  /-- RESERVE_MORE (R71): service of the request in service. -/
  | reserveMore
  /-- TOUR_END (R81): service of the request in service. -/
  | tourEnd
  /-- TOUR_ABORT (R84): service of the request in service. -/
  | tourAbort
  /-- ENROL (R90): service of the request in service. -/
  | enrol
  /-- RETIRE (R93): service of the request in service. -/
  | retire
  /-- READ_RECEIVER (R108): service of the request in service. -/
  | readReceiver
  /-- LOAD_RACK_CONFIG (R113): service of the request in service. -/
  | loadRackConfig
  /-- READ_RACK (R134): service of the request in service. -/
  | readRack
  /-- READ_BAY (R134): service of the request in service. -/
  | readBay
  /-- LOAD_LEVEL_CURVE (R128): service of the request in service. -/
  | loadLevelCurve
  /-- LOAD_THERMAL_TABLE (R138): service of the request in service. -/
  | loadThermalTable
  /-- READ_THERMAL_TABLE (R138): service of the request in service. -/
  | readThermalTable
  /-- READ_EVENTS (R177): service of the request in service. -/
  | readEvents
  /-- FLUSH_EVENTS (R178): service of the request in service. -/
  | flushEvents
  /-- ENABLE_SET (R173): service of the request in service. -/
  | enableSet
  /-- ENABLE_CLEAR (R173): service of the request in service. -/
  | enableClear
  /-- SET_HALL_MODE (R183): service of the request in service. -/
  | setHallMode
  /-- RESTART (R184): service of the request in service. -/
  | restart
  /-- SET_TIME (R185): service of the request in service. -/
  | setTime
  /-- READ_IDENTITY (R187): service of the request in service. -/
  | readIdentity
  /-- READ_COUNTERS (R187): service of the request in service. -/
  | readCounters
  /-- SET_HALL_SETTINGS (R186): service of the request in service. -/
  | setHallSettings
  /-- MIX_POINT (R30): one mix point, whole. -/
  | mixPoint
  /-- SOURCE_STALE (R12): the mix point's work on a LIVE source whose miss run reaches 25. -/
  | sourceStale (source : Fin 48)
  /-- VOICE_FLAG_CLEAR (R16): the voice update of a source whose hang remaining reaches 0. -/
  | voiceFlagClear (source : Fin 48)
  /-- WINDOW_END (R54): the countdown of a tour's window that reaches 0. -/
  | windowEnd (slot : Fin 16)
  /-- GUIDE_QUIET (R77): the silence timer of a tour in stage 0 reaches 0. -/
  | guideQuiet (slot : Fin 16)
  /-- FALLBACK_WRITE (R78): the silence timer of a tour in stage 1 reaches 0. -/
  | fallbackWrite (slot : Fin 16)
  /-- CLOSE_HOLD_EXPIRY (R82): hold remaining of a CLOSING tour reaches 0. -/
  | closeHoldExpiry (slot : Fin 16)
  /-- CLOSE_WAIT_EXPIRY (R83): wait remaining of a CLOSING tour reaches 0. -/
  | closeWaitExpiry (slot : Fin 16)
  /-- HUB_TIME_TICK (R185): one second of elapsed time. -/
  | hubTimeTick
  /-- OVERDUE (R107): a DUE receiver whose deadline the hub time has reached. -/
  | overdue (handle : Fin 384)
  /-- SPACING_TIMER_EXPIRY (R116): a rack's spacing timer expires. -/
  | spacingTimerExpiry (rack : Fin 12)
  /-- POLL_PLACED (R116): the POLL being placed counts as placed. -/
  | pollPlaced
  /-- POLL_TIMEOUT (R118): the timer of a rack's outstanding poll expires. -/
  | pollTimeout (rack : Fin 12)
  /-- DOCK_SETTLE_EXPIRY (R125): the end of a bay's dock settle passes. -/
  | dockSettleExpiry (bay : Fin 288)
  /-- TURN_SETTLE_EXPIRY (R127): the end of a bay's turn settle passes. -/
  | turnSettleExpiry (bay : Fin 288)
  /-- BAY_COMMAND_PLACED (R132): the BAY COMMAND being placed counts as placed. -/
  | bayCommandPlaced
  /-- FRAME_PLACED (R165): the PROGRAM, MGMT REPLY or ATTENTION frame being placed counts as placed. -/
  | framePlaced
  /-- CADENCE_EXPIRY (R146): a rack's cadence expires. -/
  | cadenceExpiry (rack : Fin 12)
  /-- TURN_EXPIRY (R147): the time left of an active turn reaches 0. -/
  | turnExpiry (rack : Fin 12) (bay : Fin 24)
  deriving DecidableEq, Repr

end Sys2Proof
end

