-- ==== Sys2Proof/WellFormed.lean ====
section
/-! DEFINITION. Which commands are well-formed. Ids are bounded by their types; what is left to check is that a command that
brings a frame of a kind brings bytes that carry that kind's code (Table 8-2). -/

namespace Sys2Proof

/-- The kind code of a frame's bytes, present when the frame reaches byte 4 (Table 8-1). -/
def frameKindCode (frame : List Byte) : Option Byte := frame[4]?

/-- A command is well-formed when the frame it brings carries the kind code the row names. FRAME_REJECTED may bring any
bytes (R161), and every other command has only bounded operands. -/
def Instr.wellFormed : Instr → Bool
  | .audioUp frame => frameKindCode frame == some 0x01#8
  | .bayStatus frame => frameKindCode frame == some 0x11#8
  | .dockNotice frame => frameKindCode frame == some 0x12#8
  | .mgmtRequest frame => frameKindCode frame == some 0x20#8
  | .powerOn _ | .pinReset _ | .linkUp | .linkDown | .frameRejected _ | .badRequest | .replyAccepted
  | .loadSource | .readSource | .loadProgram | .stageGain | .applyGains | .readProgram | .loadChannel
  | .readChannel | .readZone | .loadTourPlan | .loadTourTiming | .clearTour | .readTour | .tourStart
  | .reserveMore | .tourEnd | .tourAbort | .enrol | .retire | .readReceiver | .loadRackConfig | .readRack
  | .readBay | .loadLevelCurve | .loadThermalTable | .readThermalTable | .readEvents | .flushEvents
  | .enableSet | .enableClear | .setHallMode | .restart | .setTime | .readIdentity | .readCounters
  | .setHallSettings | .mixPoint | .sourceStale _ | .voiceFlagClear _ | .windowEnd _ | .guideQuiet _
  | .fallbackWrite _ | .closeHoldExpiry _ | .closeWaitExpiry _ | .hubTimeTick | .overdue _
  | .spacingTimerExpiry _ | .pollPlaced | .pollTimeout _ | .dockSettleExpiry _ | .turnSettleExpiry _
  | .bayCommandPlaced | .framePlaced | .cadenceExpiry _ | .turnExpiry _ _ => true

end Sys2Proof
end

