-- ==== Sys2Proof/Config.lean ====
section
/-! DEFINITION. What the part fixes (the constants of the manual) and what the manual leaves open (the opaque values). -/

namespace Sys2Proof.Config

/-- A zone's transmitters carry at most this many channels (00, "Numbers of the part"; R44). -/
def zoneCapacity : Nat := 8

/-- The event queue's capacity (R175). -/
def eventCapacity : Nat := 64

/-- The count of queued events at which ATTENTION is created (R176). -/
def attentionAt : Nat := 32

/-- The greatest number of records of one READ EVENTS reply (R177). -/
def eventsPerReply : Nat := 16

/-- The number of requests that can wait (R180). -/
def requestCapacity : Nat := 4

/-- Class 3 of the egress arbiter holds at most this many frames (Table 8-4, R168). -/
def class3Capacity : Nat := 8

/-- The greatest value of a 32-bit counter (R19, R40, R110, R135, R157, R170). -/
def max32 : Nat := 4294967295

/-- Mix points without a fresh frame after which a LIVE source is STALE (R12). -/
def staleAfter : Nat := 25

/-- The frame period in ms (00, "Numbers of the part"). -/
def framePeriodMs : Nat := 4

/-- Frame periods in one second (00, "Numbers of the part"). -/
def periodsPerSecond : Nat := 250

/-- The poll timeout in ms (R116). -/
def pollTimeoutMs : Nat := 20

/-- Consecutive timeouts that take a rack OFFLINE (R118). -/
def missesToOffline : Nat := 3

/-- The dock settle in ms (R123). -/
def dockSettleMs : Nat := 1500

/-- The turn settle in ms (R127). -/
def turnSettleMs : Nat := 2000

/-- Unity gain, and the duck factor of a program that has just come on air (R29). -/
def unity : Nat := 32768

/-- The most receivers one entry may ask for in a run (R64, R71). -/
def entryLimit : Nat := 96

/-- The most receivers one tour may ask for in a run (R64, R71). -/
def tourLimit : Nat := 192

/-- The all-hub group address (R159). -/
def groupAddress : Station := 0x0FF0#16

/-- The broadcast address of PROGRAM frames (R169). -/
def broadcast : Station := 0xFFFF#16

/-- The greatest payload length of a frame (Table 8-1). -/
def maxPayload : Nat := 1400

/-- UNVERIFIED, free value, safe (log 3). The byte at offset `pos` of the reply that uses free value number `n`, where
the field is absent: "Its bytes are sent either way, and are not read when it is absent" (08, field encoding). -/
opaque absentByte : Nat → Nat → Byte

/-- UNVERIFIED, free value, safe (log 4). The rack fault flag of a BAY STATUS whose fault byte is neither 0 nor 1,
given the number of the free value and that byte (Table 8-6 names the codes 0 and 1 only). -/
opaque faultOfOddCode : Nat → Byte → Bool

/-- UNVERIFIED, free value, safe (log 5). Whether, at the mix point with this number, the next window of the Zone
Allocator comes before the next slot of the Tour Controller, at this place of the order: "may come in either order"
(R83). -/
opaque windowNext : Nat → Nat → Bool

end Sys2Proof.Config
end

