-- ==== Sys2Proof/Machine/Bytes.lean ====
section
/-! DEFINITION. Bytes on the hall link: byte order (Table 8-1), field widths (08, field encoding) and the CRC (R160). -/

namespace Sys2Proof.Machine

open Sys2Proof

/-- The value of byte `i` of a run of bytes; 0 past its end (R180, R181: "missing bytes taken as 0"). -/
def byteAt (bs : List Byte) (i : Nat) : Nat := (bs.getD i 0#8).toNat

/-- Two bytes, most significant first (Table 8-1). -/
def wordAt (bs : List Byte) (i : Nat) : Nat := byteAt bs i * 256 + byteAt bs (i + 1)

/-- Three bytes, most significant first: a tag. -/
def tripleAt (bs : List Byte) (i : Nat) : Nat := byteAt bs i * 65536 + wordAt bs (i + 1)

/-- Four bytes, most significant first. -/
def quadAt (bs : List Byte) (i : Nat) : Nat := wordAt bs i * 65536 + wordAt bs (i + 2)

/-- One signed byte, two's complement. -/
def signedAt (bs : List Byte) (i : Nat) : Int := (bs.getD i 0#8).toInt

/-- Bit `k` of byte `i`. -/
def bitAt (bs : List Byte) (i k : Nat) : Bool := (bs.getD i 0#8).getLsbD k

/-- A value in one byte. -/
def enc8 (n : Nat) : List Byte := [BitVec.ofNat 8 n]

/-- A value in two bytes, most significant first. -/
def enc16 (n : Nat) : List Byte := [BitVec.ofNat 8 (n / 256), BitVec.ofNat 8 n]

/-- A value in three bytes, most significant first. -/
def enc24 (n : Nat) : List Byte := BitVec.ofNat 8 (n / 65536) :: enc16 n

/-- A value in four bytes, most significant first. -/
def enc32 (n : Nat) : List Byte := enc16 (n / 65536) ++ enc16 n

/-- A signed value in one byte, two's complement. -/
def encSigned (t : Int) : List Byte := [BitVec.ofInt 8 t]

/-- A flag in one byte, 0 clear and 1 set (log 14). -/
def encFlag (b : Bool) : List Byte := enc8 (if b then 1 else 0)

/-- One shift of the CRC register: right by one, with EDB88320h when a 1 leaves the low end (R160). -/
def crcShift (r : BitVec 32) : BitVec 32 :=
  if r.getLsbD 0 then (r >>> 1) ^^^ 0xEDB88320#32 else r >>> 1

/-- One byte taken into the CRC register (R160). -/
def crcByte (r : BitVec 32) (b : Byte) : BitVec 32 :=
  crcShift (crcShift (crcShift (crcShift (crcShift (crcShift (crcShift (crcShift (r ^^^ b.setWidth 32))))))))

/-- The CRC of a run of bytes (R160). -/
def crc (bs : List Byte) : BitVec 32 := ~~~(bs.foldl crcByte 0xFFFFFFFF#32)

/-- The four CRC bytes, least significant first (Table 8-1). -/
def crcBytes (c : BitVec 32) : List Byte :=
  [c.extractLsb' 0 8, c.extractLsb' 8 8, c.extractLsb' 16 8, c.extractLsb' 24 8]

/-- The bytes of a frame: eight-byte header with format version 1, payload and CRC (Table 8-1, R169). -/
def frameBytes (dest source : Station) (kind : Byte) (payload : List Byte) : List Byte :=
  let body := enc16 dest.toNat ++ enc16 source.toNat ++ [kind, 0x10#8] ++ enc16 payload.length ++ payload
  body ++ crcBytes (crc body)

/-- A counter raised by `d`, saturating at 4294967295 (R19). -/
def satAdd (n d : Nat) : Nat := min (n + d) Config.max32

/-- A count raised by 1, saturating at 65535 (R10, R88). -/
def satInc16 (n : Nat) : Nat := min (n + 1) 65535

/-- The saturating sum of counters (R187). -/
def satSum (ns : List Nat) : Nat := ns.foldl satAdd 0

end Sys2Proof.Machine
end

