-- ==== Sys2Proof/Machine/State.lean ====
section
/-! DEFINITION. The state of the hub: every table, record, queue, counter and flag the manual gives it, block by block,
as plain data, with the machine right after reset. -/

namespace Sys2Proof.Machine

open Sys2Proof

/-- Why the hub stops. The manual gives the hub no state in which it stops: a bad frame is dropped and counted (R161),
a bad request is answered (R182). So no meaning raises a fault and the type has no constructor. -/
inductive Fault where
  deriving DecidableEq, Repr

/-- Why a command has no meaning. -/
inductive Refusal where
  /-- Not modelled. Only an arm of exec without a meaning raises it, and no arm does: safe. -/
  | notModelled (mnemonic : String)
  deriving DecidableEq, Repr

/-! ### Clock -/

/-- The hub's elapsed time in ms (08, pins table: "all hub timers count from it"), log 1. -/
structure Clock where
  /-- elapsed ms since power-on or reset release; the model's own field -/
  now : Nat
  /-- moment of the next mix point (01, section 1.3) -/
  nextMix : Nat
  /-- moment of the next rise of the hub time (R185) -/
  nextSecond : Nat
  deriving DecidableEq, Repr

/-! ### Source Intake -/

/-- Kind of a source (Table 1-1), coded in this order. -/
inductive SourceKind where
  | guide | interpreter | track
  deriving DecidableEq, Repr

/-- State of a source (Table 1-2), coded in this order. -/
inductive SourceState where
  | absent | live | stale
  deriving DecidableEq, Repr

/-- Loaded fields of a source record (Table 1-1). -/
structure SourceConfig where
  station : Station
  stream : Fin 4
  kind : SourceKind
  onThreshold : Nat
  offThreshold : Nat
  hang : Nat
  defaultGain : Nat
  deriving DecidableEq, Repr

/-- The eight counters of a source (Table 1-4). -/
structure SourceCounters where
  accepted : Nat
  duplicate : Nat
  late : Nat
  gap : Nat
  overrun : Nat
  concealed : Nat
  malformed : Nat
  ignoredMark : Nat
  deriving DecidableEq, Repr

/-- Live fields of a source record (Table 1-2). -/
structure SourceLive where
  phase : SourceState
  lastSeq : Option (BitVec 16)
  slot : Option Frame
  lastUsed : Option Frame
  missRun : Nat
  concealStep : Nat
  level : Nat
  voice : Bool
  hangLeft : Nat
  lastMark : Option (BitVec 4)
  counters : SourceCounters
  deriving DecidableEq, Repr

/-- A loaded source record. -/
structure Source where
  config : SourceConfig
  live : SourceLive
  deriving DecidableEq, Repr

/-- Source Intake: the Source Table; an absent record is unloaded (R1). -/
structure Siu where
  sources : Tab (Option Source) 48
  deriving DecidableEq, Repr

/-- All source counters at 0 (R19). -/
def SourceCounters.zero : SourceCounters := ⟨0, 0, 0, 0, 0, 0, 0, 0⟩

/-- The initial values of the live fields (R3). -/
def SourceLive.initial : SourceLive :=
  { phase := .absent, lastSeq := none, slot := none, lastUsed := none, missRun := 0, concealStep := 0,
    level := 0, voice := false, hangLeft := 0, lastMark := none, counters := .zero }

/-! ### Mixer -/

/-- Class of a program member (Table 2-1), coded in this order. -/
inductive MemberClass where
  | voice | bed
  deriving DecidableEq, Repr

/-- One member of a program (Table 2-1). -/
structure Member where
  source : Fin 48
  gain : Nat
  cls : MemberClass
  deriving DecidableEq, Repr

/-- Loaded fields of a program record (Table 2-1). -/
structure ProgramFields where
  members : Tab (Option Member) 5
  duckDepth : Nat
  attack : Nat
  release : Nat
  deriving DecidableEq, Repr

/-- A program record (Tables 2-1 and 2-2). -/
structure Program where
  installed : Option ProgramFields
  pendingRec : Option ProgramFields
  staged : Tab (Option Nat) 5
  fallback : Option (Fin 48)
  duck : Nat
  owner : Option (Fin 16 × Fin 4)
  binding : Option (Fin 24)
  clipped : Nat
  deriving DecidableEq, Repr

/-- Mixer: the Program Table and the apply request (section 2.1). -/
structure Mxr where
  programs : Tab Program 32
  applyRequest : Bool
  deriving DecidableEq, Repr

/-- A program record after power-on and pin reset (R41). -/
def Program.reset : Program :=
  { installed := none, pendingRec := none, staged := .fill 5 none, fallback := none, duck := Config.unity,
    owner := none, binding := none, clipped := 0 }

/-! ### Zone Allocator -/

/-- State of a channel (Table 3-1), coded in this order. -/
inductive ChannelState where
  | free | standing | tour
  deriving DecidableEq, Repr

/-- A channel record (Table 3-1). -/
structure Channel where
  phase : ChannelState
  program : Option (Fin 32)
  zones : ZoneSet
  seq : BitVec 16
  deriving DecidableEq, Repr

/-- An entry of a wait queue (Table 3-2). -/
structure Waiter where
  slot : Fin 16
  need : Nat
  deriving DecidableEq, Repr

/-- A zone record (Table 3-2). -/
structure Zone where
  carried : Nat
  queue : List Waiter
  deriving DecidableEq, Repr

/-- Zone Allocator: the Channel Table and the Zone Table. -/
structure Zal where
  channels : Tab Channel 24
  zones : Tab Zone 12
  deriving DecidableEq, Repr

/-- A channel record after power-on and pin reset (R61). -/
def Channel.reset : Channel := { phase := .free, program := none, zones := 0#12, seq := 0#16 }

/-- A zone record after power-on and pin reset (R61). -/
def Zone.reset : Zone := { carried := 0, queue := [] }

/-! ### Tour Controller -/

/-- One entry of a plan (Table 4-1). -/
structure Entry where
  language : Nat
  program : Fin 32
  party : Nat
  interpreter : Option (Fin 48)
  deriving DecidableEq, Repr

/-- One stop of a route (Table 4-1). -/
structure Stop where
  zone : Fin 12
  fallback : Tab (Option (Fin 48)) 4
  deriving DecidableEq, Repr

/-- Plan of a tour slot (Table 4-1). -/
structure Plan where
  guide : Fin 48
  entries : Tab (Option Entry) 4
  route : List Stop
  requiredLevel : Nat
  deriving DecidableEq, Repr

/-- Timing of a tour slot (Table 4-2): Q1, Q2, close hold and maximum close wait in s, window in ms. -/
structure Timing where
  q1 : Nat
  q2 : Nat
  closeHold : Nat
  maxWait : Nat
  window : Nat
  deriving DecidableEq, Repr

/-- State of a tour slot (Table 4-3), coded in this order. -/
inductive TourState where
  | free | planned | live | closing
  deriving DecidableEq, Repr

/-- Fallback of a tour (Table 4-3), coded in this order. -/
inductive FallbackState where
  | off | on | none
  deriving DecidableEq, Repr

/-- Live record of a tour slot (Table 4-3). DEDUCED: the current zone can be absent, as it is outside a run, though section
3.6 gives it 0 to 11 alone (log 28). -/
structure TourLive where
  phase : TourState
  run : BitVec 16
  stop : Nat
  channels : Tab (Option (Fin 24)) 4
  zone : Option (Fin 12)
  prevZone : Option (Fin 12)
  window : Option Nat
  target : Option (Fin 12)
  stage : Nat
  timer : Nat
  fallback : FallbackState
  hold : Option Nat
  wait : Option Nat
  asked : Tab Nat 4
  reserved : Nat
  issued : Nat
  returned : Nat
  short : Nat
  unfilled : Nat
  deriving DecidableEq, Repr

/-- A tour slot: plan, timing and live record (section 4.1). -/
structure Tour where
  plan : Option Plan
  timing : Option Timing
  live : TourLive
  deriving DecidableEq, Repr

/-- Tour Controller: the Tour Table. -/
structure Tcl where
  tours : Tab Tour 16
  deriving DecidableEq, Repr

/-- The timing a slot takes when a plan is loaded into a FREE slot (Table 4-2, R64). -/
def Timing.reset : Timing := { q1 := 30, q2 := 30, closeHold := 3, maxWait := 60, window := 1000 }

/-- The live record after power-on and pin reset (R87). DEDUCED: the current zone is absent, where R87 gives "absent or 0"
(log 28). -/
def TourLive.reset : TourLive :=
  { phase := .free, run := 0#16, stop := 0, channels := .fill 4 none, zone := none, prevZone := none,
    window := none, target := none, stage := 0, timer := 0, fallback := .off, hold := none, wait := none,
    asked := .fill 4 0, reserved := 0, issued := 0, returned := 0, short := 0, unfilled := 0 }

/-- A tour slot after power-on and pin reset (R87). -/
def Tour.reset : Tour := { plan := none, timing := none, live := .reset }

/-! ### Fleet Table -/

/-- State of a receiver (Table 5-1), coded in this order. -/
inductive RxState where
  | unseen | docked | reserved | issued | stray | due | overdue
  deriving DecidableEq, Repr

/-- The tour fields of a receiver: present and absent together (section 5.1). -/
structure TourRef where
  slot : Fin 16
  run : BitVec 16
  entry : Fin 4
  channel : Fin 24
  deriving DecidableEq, Repr

/-- A present receiver record (Table 5-1). -/
structure Receiver where
  tag : RxTag
  phase : RxState
  bay : Option (Fin 288)
  level : Option Nat
  fault : Bool
  short : Bool
  tour : Option TourRef
  required : Option Nat
  deadline : Option Nat
  issueTime : Option Nat
  turnCount : Nat
  deriving DecidableEq, Repr

/-- Fleet Table: the Receiver Table and the counters of R110. -/
structure Flt where
  receivers : Tab (Option Receiver) 384
  unknownDocks : Nat
  unplannedTakes : Nat
  lateReturns : Nat
  deriving DecidableEq, Repr

/-! ### Rack Poller -/

/-- Loaded fields of a rack record (Table 6-1). -/
structure RackConfig where
  enabled : Bool
  station : Station
  scanLow : Fin 24
  scanHigh : Fin 24
  spacing : Nat
  openCap : Nat
  closedCap : Nat
  baseInterval : Nat
  turnLength : Nat
  deriving DecidableEq, Repr

/-- State of a rack (Table 6-2), coded in this order. -/
inductive RackState where
  | disabled | offline | online
  deriving DecidableEq, Repr

/-- The counters RPL keeps per rack (R135). -/
structure RackCounters where
  polls : Nat
  answers : Nat
  timeouts : Nat
  lateAnswers : Nat
  malformed : Nat
  deriving DecidableEq, Repr

/-- An outstanding poll: its bay and the end of its 20 ms timer (Table 6-2). -/
structure Outstanding where
  bay : Fin 24
  ends : Nat
  deriving DecidableEq, Repr

/-- Live fields of a rack record kept by RPL (Table 6-2). -/
structure RackLive where
  phase : RackState
  pointer : Fin 24
  outstanding : Option Outstanding
  waiting : Option (Fin 24)
  timedOut : Option (Fin 24)
  spacingEnds : Option Nat
  missRun : Nat
  temperature : Option Int
  counters : RackCounters
  deriving DecidableEq, Repr

/-- A rack record, less the Charge Scheduler's part. -/
structure Rack where
  config : RackConfig
  live : RackLive
  deriving DecidableEq, Repr

/-- Presence of a bay (Table 6-3), coded in this order. -/
inductive Presence where
  | empty
  | known (handle : Fin 384)
  | foreign (tag : RxTag)
  deriving DecidableEq, Repr

/-- Settle of a bay (Table 6-3), coded in this order. -/
inductive Settle where
  | none | dock | dockEnded | turn
  deriving DecidableEq, Repr

/-- Charge mode (Table 6-3), coded in this order. -/
inductive ChargeMode where
  | off | trickle | fast
  deriving DecidableEq, Repr

/-- An assignment other than none: a channel, and whether the lamp is on (Table 6-3). -/
structure Assignment where
  channel : Fin 24
  lamp : Bool
  deriving DecidableEq, Repr

/-- A bay record (Table 6-3). The bay's active turn is read from its rack's active list (log 23). -/
structure Bay where
  presence : Presence
  voltage : Option Nat
  level : Option Nat
  rackFault : Bool
  docked : Bool
  ready : Bool
  full : Bool
  fault : Bool
  settle : Settle
  settleEnds : Option Nat
  mode : ChargeMode
  assign : Option Assignment
  reportedMode : Option ChargeMode
  reportedAssign : Option (Option Assignment)
  pending : Bool
  served : Bool
  deriving DecidableEq, Repr

/-- One point of the Level Curve (section 6.6). -/
structure CurvePoint where
  mv : Nat
  percent : Nat
  deriving DecidableEq, Repr

/-- Rack Poller: the Rack Table, the Bay Table, the Level Curve and the rack sender (R132). -/
structure Rpl where
  racks : Tab Rack 12
  bays : Tab Bay 288
  curve : Tab CurvePoint 8
  unroutedRack : Nat
  senderHolds : Bool
  lastRack : Fin 12
  lastBay : Tab (Fin 24) 12
  deriving DecidableEq, Repr

/-- RPL's counters at 0 (R135). -/
def RackCounters.zero : RackCounters := ⟨0, 0, 0, 0, 0⟩

/-- A rack record after power-on and pin reset (Table 6-1, R136). -/
def Rack.reset : Rack :=
  { config := { enabled := false, station := 0#16, scanLow := 0, scanHigh := 23, spacing := 50, openCap := 3,
                closedCap := 6, baseInterval := 60, turnLength := 300 }
    live := { phase := .disabled, pointer := 0, outstanding := none, waiting := none, timedOut := none,
              spacingEnds := none, missRun := 0, temperature := none, counters := .zero } }

/-- A bay record after power-on and pin reset (Table 6-3, R136, R158). -/
def Bay.reset : Bay :=
  { presence := .empty, voltage := none, level := none, rackFault := false, docked := false, ready := false,
    full := false, fault := false, settle := .none, settleEnds := none, mode := .off, assign := none,
    reportedMode := none, reportedAssign := none, pending := false, served := false }

/-- The default Level Curve (Table 6-4). -/
def defaultCurve : Tab CurvePoint 8 :=
  ⟨[⟨3000, 0⟩, ⟨3450, 5⟩, ⟨3600, 20⟩, ⟨3700, 40⟩, ⟨3800, 60⟩, ⟨3950, 80⟩, ⟨4100, 95⟩, ⟨4200, 100⟩], rfl⟩

/-! ### Charge Scheduler -/

/-- One active turn: its bay number and the moment its time left reaches 0 (Table 7-2). -/
structure Turn where
  bay : Fin 24
  ends : Nat
  deriving DecidableEq, Repr

/-- The counters CHS keeps per rack (R157). -/
structure SchedCounters where
  started : Nat
  starved : Nat
  dropped : Nat
  deriving DecidableEq, Repr

/-- Scheduler fields of a rack record (Table 7-2); an absent cadence is stopped. -/
structure Sched where
  band : Option (Fin 8)
  capacity : Nat
  active : List Turn
  postponed : Nat
  pulledIn : Nat
  round : BitVec 16
  cadenceEnds : Option Nat
  counters : SchedCounters
  deriving DecidableEq, Repr

/-- One entry of the Thermal Band Table (Table 7-1). -/
structure BandEntry where
  cap : Nat
  multiplier : Nat
  pMax : Nat
  iMax : Nat
  trickle : Bool
  deriving DecidableEq, Repr

/-- The Thermal Band Table: boundary B1 to B7 at index 0 to 6, and the eight entries (section 7.1). -/
structure BandTable where
  bounds : Tab Int 7
  entries : Tab BandEntry 8
  deriving DecidableEq, Repr

/-- Charge Scheduler: per-rack scheduler state and the Thermal Band Table. -/
structure Chs where
  sched : Tab Sched 12
  table : BandTable
  deriving DecidableEq, Repr

/-- CHS's counters at 0 (R157). -/
def SchedCounters.zero : SchedCounters := ⟨0, 0, 0⟩

/-- A rack's scheduler part after power-on and pin reset (R158). -/
def Sched.reset : Sched :=
  { band := none, capacity := 0, active := [], postponed := 0, pulledIn := 0, round := 0#16,
    cadenceEnds := none, counters := .zero }

/-- The Reset values of the Thermal Band Table (Tables 7-1 and 7-3). -/
def defaultBandTable : BandTable :=
  { bounds := ⟨[5, 15, 25, 32, 38, 43, 50], rfl⟩
    entries := ⟨[⟨0, 1, 0, 0, false⟩, ⟨2, 4, 2, 0, true⟩, ⟨4, 2, 4, 2, true⟩, ⟨6, 1, 8, 4, true⟩,
                 ⟨4, 1, 6, 2, true⟩, ⟨2, 2, 2, 0, true⟩, ⟨0, 1, 0, 0, true⟩, ⟨0, 1, 0, 0, false⟩], rfl⟩ }

/-! ### Event Queue -/

/-- The 31 event kinds (Table 9-2), in the order of their codes (Table 8-11). -/
inductive EventKind where
  | dockedRise | dockedFall | readyRise | readyFall | fullRise | fullFall | faultRise | faultFall
  | tourStarted | tourClosed | issued | mark | markOverrun | endOfRoute | guideQuiet | fallbackOn
  | fallbackNone | fallbackOff | handoverWait | handoverDone | issuedShort | returned | unplannedTake
  | overdue | unknownReceiver | sourceStale | sourceBack | rackOffline | rackOnline | bandChange
  | turnStarved
  deriving DecidableEq, Repr

/-- An event record (Table 9-1). -/
structure EventRecord where
  kind : EventKind
  time : Nat
  subject : Nat
  run : Option (BitVec 16)
  detail : Nat
  deriving DecidableEq, Repr

/-- Event Queue: the Event Enable Table, the queue and what stands beside it (section 9.4). -/
structure Evq where
  enables : BitVec 31
  queue : List EventRecord
  overflow : Bool
  drops : Nat
  desk : Option Station
  deriving DecidableEq, Repr

/-! ### Hall Link Interface -/

/-- Which egress frame it is, and whom its placing concerns (Table 8-4). A POLL stays `valid` until its rack is disabled
or re-keyed (R116). -/
inductive Origin where
  | program (channel : Fin 24)
  | poll (rack : Fin 12) (bay : Fin 24) (valid : Bool)
  | bayCommand
  | reply
  | attention
  deriving DecidableEq, Repr

/-- An egress frame: destination (R169), origin and payload. -/
structure EgressFrame where
  dest : Station
  origin : Origin
  payload : List Byte
  deriving DecidableEq, Repr

/-- The link counters (R170). -/
structure LinkCounters where
  received : Nat
  lengthErrors : Nat
  crcErrors : Nat
  notAddressed : Nat
  badVersion : Nat
  unknownKinds : Nat
  unroutedAudio : Nat
  rackLengthErrors : Nat
  transmitted : Nat
  superseded : Nat
  discards : Nat
  linkDowns : Nat
  deriving DecidableEq, Repr

/-- Hall Link Interface: station address, link state, egress arbiter and counters. The frame being placed is held beside
the three class lists (log 12). -/
structure Hli where
  station : Station
  linkUp : Bool
  placing : Option EgressFrame
  class1 : List EgressFrame
  class2 : List EgressFrame
  class3 : List EgressFrame
  counters : LinkCounters
  /-- bytes of the frame most recently placed on the transmit pair; the model's own field (log 20) -/
  lineOut : Option (List Byte)
  deriving DecidableEq, Repr

/-- The link counters at 0 (R170). -/
def LinkCounters.zero : LinkCounters := ⟨0, 0, 0, 0, 0, 0, 0, 0, 0, 0, 0, 0⟩

/-- HLI after power-on and pin reset, with the straps read (R159, R164, R170). -/
def Hli.reset (straps : BitVec 4) : Hli :=
  { station := 0x0F00#16 + straps.setWidth 16, linkUp := false, placing := none, class1 := [], class2 := [],
    class3 := [], counters := .zero, lineOut := none }

/-! ### Management Engine -/

/-- A management request as received: its source station and its payload (R180). -/
structure Request where
  source : Station
  payload : List Byte
  deriving DecidableEq, Repr

/-- A reply as MGE hands it to the egress arbiter: its destination and its payload (Table 8-7, R169). -/
structure Reply where
  dest : Station
  payload : List Byte
  deriving DecidableEq, Repr

/-- What stands in service (R181, R168). -/
inductive Service where
  /-- no request in service -/
  | idle
  /-- a request taken from the queue, not yet acted on -/
  | taken (req : Request)
  /-- a request acted on, its reply held while class 3 is full -/
  | held (reply : Reply)
  deriving DecidableEq, Repr

/-- The hall mode (R183), coded in this order. -/
inductive HallMode where
  | closed | opened
  deriving DecidableEq, Repr

/-- The hall settings (R186). -/
structure Settings where
  ready : Nat
  full : Nat
  grace : Nat
  autoEnrol : Bool
  deriving DecidableEq, Repr

/-- Management Engine (chapter 10). -/
structure Mge where
  requests : List Request
  service : Service
  mode : HallMode
  hubTime : Nat
  settings : Settings
  received : Nat
  busyReplies : Nat
  badRequests : Nat
  deriving DecidableEq, Repr

/-- The hall settings after power-on and pin reset (R186). -/
def Settings.reset : Settings := { ready := 80, full := 98, grace := 15, autoEnrol := false }

/-! ### The whole hub -/

/-- The state of the hub. `choices` counts the free values used (log 18); `pending` is the queue of waiting commands. -/
structure State where
  clock : Clock
  siu : Siu
  mxr : Mxr
  zal : Zal
  tcl : Tcl
  flt : Flt
  rpl : Rpl
  chs : Chs
  evq : Evq
  hli : Hli
  mge : Mge
  choices : Nat
  pending : List Instr
  deriving DecidableEq, Repr

/-- The hub after power-on or pin reset with this strap value (R4, R41, R61, R87, R111, R136, R158, R159, R170, R179,
R188); the phase of the clock is log 1. -/
def State.atReset (straps : BitVec 4) : State :=
  { clock := { now := 0, nextMix := Config.framePeriodMs, nextSecond := 1000 }
    siu := { sources := .fill 48 none }
    mxr := { programs := .fill 32 .reset, applyRequest := false }
    zal := { channels := .fill 24 .reset, zones := .fill 12 .reset }
    tcl := { tours := .fill 16 .reset }
    flt := { receivers := .fill 384 none, unknownDocks := 0, unplannedTakes := 0, lateReturns := 0 }
    rpl := { racks := .fill 12 .reset, bays := .fill 288 .reset, curve := defaultCurve, unroutedRack := 0,
             senderHolds := false, lastRack := 11, lastBay := .fill 12 23 }
    chs := { sched := .fill 12 .reset, table := defaultBandTable }
    evq := { enables := BitVec.allOnes 31, queue := [], overflow := false, drops := 0, desk := none }
    hli := .reset straps
    mge := { requests := [], service := .idle, mode := .closed, hubTime := 0, settings := .reset, received := 0,
             busyReplies := 0, badRequests := 0 }
    choices := 0
    pending := [] }

/-- DESIGN CHOICE, unsafe (log 2): the machine right after reset, with the straps read as 0. -/
def State.reset : State := State.atReset 0#4

/-! ### One named update per block -/

/-- The state with another clock. -/
def State.withClock (s : State) (x : Clock) : State := { s with clock := x }
/-- The state with another Source Intake. -/
def State.withSiu (s : State) (x : Siu) : State := { s with siu := x }
/-- The state with another Mixer. -/
def State.withMxr (s : State) (x : Mxr) : State := { s with mxr := x }
/-- The state with another Zone Allocator. -/
def State.withZal (s : State) (x : Zal) : State := { s with zal := x }
/-- The state with another Tour Controller. -/
def State.withTcl (s : State) (x : Tcl) : State := { s with tcl := x }
/-- The state with another Fleet Table. -/
def State.withFlt (s : State) (x : Flt) : State := { s with flt := x }
/-- The state with another Rack Poller. -/
def State.withRpl (s : State) (x : Rpl) : State := { s with rpl := x }
/-- The state with another Charge Scheduler. -/
def State.withChs (s : State) (x : Chs) : State := { s with chs := x }
/-- The state with another Event Queue. -/
def State.withEvq (s : State) (x : Evq) : State := { s with evq := x }
/-- The state with another Hall Link Interface. -/
def State.withHli (s : State) (x : Hli) : State := { s with hli := x }
/-- The state with another Management Engine. -/
def State.withMge (s : State) (x : Mge) : State := { s with mge := x }
/-- The state with another count of free values used. -/
def State.withChoices (s : State) (x : Nat) : State := { s with choices := x }
/-- The state with another queue of waiting commands. -/
def State.withPending (s : State) (x : List Instr) : State := { s with pending := x }

end Sys2Proof.Machine
end

