-- ==== Sys2Proof/Machine/Ops.lean ====
section
/-! DEFINITION. The named reads and writes of the hub's tables, elapsed time and the numbering of free values. -/

namespace Sys2Proof.Machine

open Sys2Proof

/-! ### Reads -/

/-- The record of a source id; none when unloaded (R1). -/
def State.source (s : State) (i : Fin 48) : Option Source := s.siu.sources.get i
/-- The record of a program id. -/
def State.program (s : State) (i : Fin 32) : Program := s.mxr.programs.get i
/-- The record of a channel. -/
def State.channel (s : State) (i : Fin 24) : Channel := s.zal.channels.get i
/-- The record of a zone. -/
def State.zone (s : State) (i : Fin 12) : Zone := s.zal.zones.get i
/-- The record of a tour slot. -/
def State.tour (s : State) (i : Fin 16) : Tour := s.tcl.tours.get i
/-- The record of a handle; none when absent. -/
def State.receiver (s : State) (i : Fin 384) : Option Receiver := s.flt.receivers.get i
/-- The record of a rack. -/
def State.rack (s : State) (i : Fin 12) : Rack := s.rpl.racks.get i
/-- The record of a bay address. -/
def State.bay (s : State) (i : Fin 288) : Bay := s.rpl.bays.get i
/-- The scheduler part of a rack. -/
def State.sched (s : State) (i : Fin 12) : Sched := s.chs.sched.get i

/-! ### Writes -/

/-- Writes a source record. -/
def State.putSource (s : State) (i : Fin 48) (x : Option Source) : State :=
  s.withSiu ⟨s.siu.sources.set i x⟩
/-- Writes a program record. -/
def State.putProgram (s : State) (i : Fin 32) (x : Program) : State :=
  s.withMxr { s.mxr with programs := s.mxr.programs.set i x }
/-- Writes a channel record. -/
def State.putChannel (s : State) (i : Fin 24) (x : Channel) : State :=
  s.withZal { s.zal with channels := s.zal.channels.set i x }
/-- Writes a zone record. -/
def State.putZone (s : State) (i : Fin 12) (x : Zone) : State :=
  s.withZal { s.zal with zones := s.zal.zones.set i x }
/-- Writes a tour slot. -/
def State.putTour (s : State) (i : Fin 16) (x : Tour) : State :=
  s.withTcl ⟨s.tcl.tours.set i x⟩
/-- Writes the live record of a tour slot. -/
def State.putLive (s : State) (i : Fin 16) (x : TourLive) : State :=
  s.putTour i { s.tour i with live := x }
/-- Writes a receiver record. -/
def State.putReceiver (s : State) (i : Fin 384) (x : Option Receiver) : State :=
  s.withFlt { s.flt with receivers := s.flt.receivers.set i x }
/-- Writes a rack record. -/
def State.putRack (s : State) (i : Fin 12) (x : Rack) : State :=
  s.withRpl { s.rpl with racks := s.rpl.racks.set i x }
/-- Writes the live fields of a rack record. -/
def State.putRackLive (s : State) (i : Fin 12) (x : RackLive) : State :=
  s.putRack i { s.rack i with live := x }
/-- Writes a bay record. -/
def State.putBay (s : State) (i : Fin 288) (x : Bay) : State :=
  s.withRpl { s.rpl with bays := s.rpl.bays.set i x }
/-- Writes the scheduler part of a rack. -/
def State.putSched (s : State) (i : Fin 12) (x : Sched) : State :=
  s.withChs { s.chs with sched := s.chs.sched.set i x }

/-- Writes the link counters. -/
def State.putLinkCounters (s : State) (c : LinkCounters) : State :=
  s.withHli { s.hli with counters := c }

/-! ### Bay addresses -/

/-- The bay address of a bay of a rack: rack × 24 + bay number (00). -/
def bayAddress (rack : Fin 12) (bay : Fin 24) : Fin 288 :=
  ⟨rack.val * 24 + bay.val, by omega⟩

/-- The rack of a bay address (06, section 6.3). -/
def rackOf (a : Fin 288) : Fin 12 := ⟨a.val / 24, by omega⟩

/-- The bay number of a bay address (06, section 6.3). -/
def bayNumber (a : Fin 288) : Fin 24 := ⟨a.val % 24, by omega⟩

/-! ### Elapsed time and free values -/

/-- The state once elapsed time has reached `t`; time never goes back (log 1). -/
def State.reach (s : State) (t : Nat) : State :=
  s.withClock { s.clock with now := max s.clock.now t }

/-- The ms left to the moment `ends`. -/
def State.timeLeft (s : State) (ends : Nat) : Nat := ends - s.clock.now

/-- The state once the free value number `s.choices` is used (log 18). -/
def State.useChoice (s : State) : State := s.withChoices (s.choices + 1)

/-- A step of the state for each item of a list, in order. -/
def forEach {α : Type} (items : List α) (f : α → State → State) (s : State) : State :=
  items.foldl (fun t a => f a t) s

end Sys2Proof.Machine
end

