-- ==== Sys2Proof/Machine/Link.lean ====
section
/-! DEFINITION. The Hall Link Interface: the checks of an arriving frame (R161), the egress arbiter (R164 to R168) and what
placing a frame tells its sender (R116, R132). -/

namespace Sys2Proof.Machine

open Sys2Proof

/-! ### Egress -/

/-- The kind code of an egress frame (Table 8-2). -/
def kindCode : Origin → Byte
  | .program _ => 0x02#8
  | .poll _ _ _ => 0x10#8
  | .bayCommand => 0x13#8
  | .reply => 0x21#8
  | .attention => 0x22#8

/-- The bytes of an egress frame on the link, with the hub's own address as source (R159, R169). -/
def wireBytes (station : Station) (f : EgressFrame) : List Byte :=
  frameBytes f.dest station (kindCode f.origin) f.payload

/-- DEDUCED (log 12). The frames class 3 holds, the one being placed included: a frame leaves its list when it is
placed (R165). -/
def class3Held (h : Hli) : Nat :=
  h.class3.length +
    match h.placing with
    | some f => match f.origin with
      | .reply | .attention => 1
      | .program _ | .poll _ _ _ | .bayCommand => 0
    | none => 0

/-- A POLL counts as placed: it ceases to wait and is outstanding with its 20 ms timer started (R116). -/
def pollOutstanding (rack : Fin 12) (bay : Fin 24) (s : State) : State :=
  s.putRackLive rack { (s.rack rack).live with
    waiting := none
    outstanding := some ⟨bay, s.clock.now + Config.pollTimeoutMs⟩ }

/-- The arbiter tells the sender of a frame that it counts as placed (R165). A POLL whose rack was disabled or re-keyed
meanwhile makes nothing outstanding (R116). -/
def tellSender (o : Origin) (s : State) : State :=
  match o with
  | .poll rack bay valid => if valid then pollOutstanding rack bay s else s
  | .bayCommand => s.withRpl { s.rpl with senderHolds := false }
  | .program _ | .reply | .attention => s

/-- Egress discards +1 (R164, R168). -/
def countDiscard (s : State) : State :=
  s.putLinkCounters { s.hli.counters with discards := satAdd s.hli.counters.discards 1 }

/-- A frame is discarded because the link is DOWN: counted, and placed for its sender (R164). -/
def discardFrame (f : EgressFrame) (s : State) : State :=
  tellSender f.origin (countDiscard s)

/-- The arbiter places the oldest frame of the highest class that holds one, when the link is UP and free (R165). -/
def startPlacing (h : Hli) : Hli :=
  if h.linkUp && h.placing.isNone then
    match h.class1 with
    | f :: rest => { h with placing := some f, class1 := rest }
    | [] =>
      match h.class2 with
      | f :: rest => { h with placing := some f, class2 := rest }
      | [] =>
        match h.class3 with
        | f :: rest => { h with placing := some f, class3 := rest }
        | [] => h
  else h

/-- The class lists with a frame appended to the list of its class (Table 8-4). -/
def enqueue (f : EgressFrame) (h : Hli) : Hli :=
  match f.origin with
  | .program _ => { h with class1 := h.class1 ++ [f] }
  | .poll _ _ _ | .bayCommand => { h with class2 := h.class2 ++ [f] }
  | .reply | .attention => { h with class3 := h.class3 ++ [f] }

/-- A frame is handed to the arbiter: held and placed as the link allows, or discarded while the link is DOWN
(R164, R165). -/
def handOver (f : EgressFrame) (s : State) : State :=
  if s.hli.linkUp then s.withHli (startPlacing (enqueue f s.hli)) else discardFrame f s

/-- A BUSY reply or an ATTENTION is accepted only while class 3 holds fewer than 7 frames (R168). -/
def handOverSpare (f : EgressFrame) (s : State) : State :=
  if class3Held s.hli < Config.class3Capacity - 1 then handOver f s else countDiscard s

/-- The frames of the arbiter that a link going down discards, the one being placed first (R164). -/
def heldFrames (h : Hli) : List EgressFrame :=
  h.placing.toList ++ h.class1 ++ h.class2 ++ h.class3

/-- The frame being placed counts as placed: counted, put on the transmit pair, the next frame begun, and the sender
told (R165; the order of the last two is DEDUCED, log 11). -/
def completePlacing (f : EgressFrame) (s : State) : State :=
  let h := { s.hli with
    placing := none
    counters := { s.hli.counters with transmitted := satAdd s.hli.counters.transmitted 1 }
    lineOut := some (wireBytes s.hli.station f) }
  tellSender f.origin (s.withHli (startPlacing h))

/-- Completes the placing of the frame being placed when it is of the kind asked for; otherwise nothing is placed. -/
def placedWhen (kind : Origin → Bool) (s : State) : State :=
  match s.hli.placing with
  | some f => if kind f.origin then completePlacing f s else s
  | none => s

/-- A POLL of a rack, whichever bay it names. -/
def isPollOf (rack : Fin 12) (f : EgressFrame) : Bool :=
  match f.origin with
  | .poll r _ _ => r == rack
  | .program _ | .bayCommand | .reply | .attention => false

/-- A frame whose POLL no longer counts for its rack (R116). -/
def voidPoll (rack : Fin 12) (f : EgressFrame) : EgressFrame :=
  match f.origin with
  | .poll r b _ => if r = rack then { f with origin := .poll r b false } else f
  | .program _ | .bayCommand | .reply | .attention => f

/-- The POLL of a rack is withdrawn from class 2; one that is being placed goes on but makes nothing outstanding
(R116, R167). -/
def withdrawPoll (rack : Fin 12) (s : State) : State :=
  s.withHli { s.hli with
    class2 := s.hli.class2.filter fun f => !isPollOf rack f
    placing := s.hli.placing.map (voidPoll rack) }

/-! ### Ingress -/

/-- The frame kinds the hub takes (R161). -/
inductive IngressKind where
  | audioUp | bayStatus | dockNotice | mgmtRequest
  deriving DecidableEq, Repr

/-- Why HLI drops an arriving frame (R161). -/
inductive Drop where
  | length | crc | notAddressed | version | kind
  deriving DecidableEq, Repr

/-- HLI's judgement of an arriving frame (R161). -/
inductive Judgement where
  | dropped (why : Drop)
  | accepted (kind : IngressKind) (source : Station) (payload : List Byte)
  deriving DecidableEq, Repr

/-- The kind of an arriving frame by its code, none for every other code (Table 8-2, R161). -/
def ingressKind (code : Nat) : Option IngressKind :=
  if code = 0x01 then some .audioUp
  else if code = 0x11 then some .bayStatus
  else if code = 0x12 then some .dockNotice
  else if code = 0x20 then some .mgmtRequest
  else none

/-- The checks of R161, in order. -/
def judgeFrame (station : Station) (frame : List Byte) : Judgement :=
  let len := wordAt frame 6
  if frame.length < 12 then .dropped .length
  else if frame.length ≠ 12 + len ∨ Config.maxPayload < len then .dropped .length
  else if crcBytes (crc (frame.take (8 + len))) ≠ frame.drop (8 + len) then .dropped .crc
  else if wordAt frame 0 ≠ station.toNat ∧ wordAt frame 0 ≠ Config.groupAddress.toNat then .dropped .notAddressed
  else if byteAt frame 5 / 16 ≠ 1 then .dropped .version
  else match ingressKind (byteAt frame 4) with
    | none => .dropped .kind
    | some k => .accepted k (BitVec.ofNat 16 (wordAt frame 2)) ((frame.drop 8).take len)

/-- The link counters after a dropped frame (R161). -/
def countDrop (why : Drop) (c : LinkCounters) : LinkCounters :=
  match why with
  | .length => { c with lengthErrors := satAdd c.lengthErrors 1 }
  | .crc => { c with crcErrors := satAdd c.crcErrors 1 }
  | .notAddressed => { c with notAddressed := satAdd c.notAddressed 1 }
  | .version => { c with badVersion := satAdd c.badVersion 1 }
  | .kind => { c with unknownKinds := satAdd c.unknownKinds 1 }

/-- Frames received +1 (R161). -/
def countReceived (s : State) : State :=
  s.putLinkCounters { s.hli.counters with received := satAdd s.hli.counters.received 1 }

end Sys2Proof.Machine
end

