-- ==== Sys2Proof/Machine/Events.lean ====
section
/-! DEFINITION. The Event Queue: taking an event (R171, R172, R175) and the ATTENTION frame (R176). -/

namespace Sys2Proof.Machine

open Sys2Proof

/-- The code of an event kind (Table 8-11). -/
def EventKind.code : EventKind → Nat
  | .dockedRise => 0 | .dockedFall => 1 | .readyRise => 2 | .readyFall => 3 | .fullRise => 4
  | .fullFall => 5 | .faultRise => 6 | .faultFall => 7 | .tourStarted => 8 | .tourClosed => 9
  | .issued => 10 | .mark => 11 | .markOverrun => 12 | .endOfRoute => 13 | .guideQuiet => 14
  | .fallbackOn => 15 | .fallbackNone => 16 | .fallbackOff => 17 | .handoverWait => 18
  | .handoverDone => 19 | .issuedShort => 20 | .returned => 21 | .unplannedTake => 22 | .overdue => 23
  | .unknownReceiver => 24 | .sourceStale => 25 | .sourceBack => 26 | .rackOffline => 27
  | .rackOnline => 28 | .bandChange => 29 | .turnStarved => 30

/-- A detail of two parts: the first in byte 10, the second in byte 11 (Table 8-9). -/
def detailPair (first second : Nat) : Nat := first * 256 + second

/-- Creates the ATTENTION frame of a rise to 32 records, when a desk address is known (R176, Table 8-7). -/
def sendAttention (s : State) : State :=
  match s.evq.desk with
  | none => s
  | some desk => handOverSpare
      { dest := desk, origin := .attention,
        payload := enc8 s.evq.queue.length ++ encFlag s.evq.overflow ++ enc32 s.mge.hubTime } s

/-- EVQ takes an event: stamped with the hub time (R171), judged by its enable (R172) and by the queue's capacity
(R175). -/
def raiseEvent (kind : EventKind) (subject : Nat) (run : Option (BitVec 16)) (detail : Nat) (s : State) : State :=
  if s.evq.enables.getLsbD kind.code then
    if s.evq.queue.length < Config.eventCapacity then
      let t := s.withEvq { s.evq with
        queue := s.evq.queue ++ [⟨kind, s.mge.hubTime, subject, run, detail⟩] }
      if t.evq.queue.length = Config.attentionAt then sendAttention t else t
    else
      s.withEvq { s.evq with overflow := true, drops := satAdd s.evq.drops 1 }
  else s

end Sys2Proof.Machine
end

