-- ==== Sys2Proof/Machine/Bays.lean ====
section
/-! DEFINITION. Bay records: desired state and its pending flag (R131), the turn settle (R127) and the rack sender (R132). -/

namespace Sys2Proof.Machine

open Sys2Proof

/-- A write of a bay's desired mode; a change sets the pending flag (R131). -/
def setMode (a : Fin 288) (m : ChargeMode) (s : State) : State :=
  let b := s.bay a
  if b.mode = m then s else s.putBay a { b with mode := m, pending := true }

/-- A write of a bay's desired assignment; a change sets the pending flag (R131). -/
def setAssign (a : Fin 288) (x : Option Assignment) (s : State) : State :=
  let b := s.bay a
  if b.assign = x then s else s.putBay a { b with assign := x, pending := true }

/-- A bay is marked pending (R117, R133, R137). -/
def markPending (a : Fin 288) (s : State) : State := s.putBay a { s.bay a with pending := true }

/-- Every bay of a rack is marked pending (R117). -/
def markRackPending (rack : Fin 12) (s : State) : State :=
  forEach (indices 24) (fun b => markPending (bayAddress rack b)) s

/-- A turn settle is started or restarted, unless the bay is EMPTY or in a dock settle (R127). -/
def startTurnSettle (a : Fin 288) (s : State) : State :=
  let b := s.bay a
  if b.presence = .empty ∨ b.settle = .dock ∨ b.settle = .dockEnded then s
  else s.putBay a { b with settle := .turn, settleEnds := some (s.clock.now + Config.turnSettleMs) }

/-! ### The rack sender -/

/-- The numbers above `last` in ascending order, then the others: the turn order of R132. -/
def afterLast {n : Nat} (last : Fin n) : List (Fin n) :=
  (indices n).filter (fun i => decide (last < i)) ++ (indices n).filter (fun i => decide (i ≤ last))

/-- The pending bay of a rack that the sender takes next (R132). -/
def nextBay (s : State) (rack : Fin 12) : Option (Fin 24) :=
  (afterLast (s.rpl.lastBay.get rack)).find? fun b => (s.bay (bayAddress rack b)).pending

/-- The rack that the sender serves next: the first in turn that is ONLINE and has a pending bay, with that bay
(R132). -/
def nextServed (s : State) : Option (Fin 12 × Fin 24) :=
  (afterLast s.rpl.lastRack).findSome? fun rack =>
    if (s.rack rack).live.phase = .online then (nextBay s rack).map fun b => (rack, b) else none

/-- The code of a charge mode (Table 8-6). -/
def ChargeMode.code : ChargeMode → Nat
  | .off => 0
  | .trickle => 1
  | .fast => 2

/-- An assignment in two bytes: channel and lamp, FFh and 0 for none (Table 8-6). -/
def encAssign (x : Option Assignment) : List Byte :=
  match x with
  | some y => enc8 y.channel.val ++ encFlag y.lamp
  | none => enc8 0xFF ++ enc8 0

/-- The payload of a BAY COMMAND (Table 8-6). -/
def commandPayload (b : Fin 24) (bay : Bay) : List Byte :=
  enc8 b.val ++ enc8 bay.mode.code ++ encAssign bay.assign

/-- The sender builds the BAY COMMAND of a bay with its desired state as it stands, clears its pending flag and hands
the frame over (R132). -/
def sendCommand (rack : Fin 12) (b : Fin 24) (s : State) : State :=
  let a := bayAddress rack b
  let bay := s.bay a
  let f : EgressFrame :=
    { dest := (s.rack rack).config.station, origin := .bayCommand, payload := commandPayload b bay }
  let t := s.putBay a { bay with pending := false }
  handOver f (t.withRpl { t.rpl with senderHolds := true, lastRack := rack, lastBay := t.rpl.lastBay.set rack b })

/-- The sender builds frames as long as it holds none and a bay it may serve is pending (R132). -/
def runSender : Nat → State → State
  | 0, s => s
  | fuel + 1, s =>
    if s.rpl.senderHolds then s
    else match nextServed s with
      | none => s
      | some (rack, b) => runSender fuel (sendCommand rack b s)

/-- The rack sender at the end of an action (log 10). Each frame clears one of 288 pending flags, so 288 rounds
suffice. -/
def rackSender (s : State) : State := runSender 289 s

end Sys2Proof.Machine
end

