-- ==== Sys2Proof/Machine/Charge.lean ====
section
/-! DEFINITION. The Charge Scheduler: capacity and cadence (R141, R142), selection (R143, R144), turns (R145 to R150), bands
(R139, R140, R151), charge modes (R153) and resynchronisation (R155). -/

namespace Sys2Proof.Machine

open Sys2Proof

/-! ### Reads -/

/-- A rack is ONLINE (R115). -/
def isOnline (s : State) (rack : Fin 12) : Bool := decide ((s.rack rack).live.phase = .online)

/-- The Thermal Band Table entry of a rack's current band; none while it has no band (R140). -/
def bandEntry (s : State) (rack : Fin 12) : Option BandEntry :=
  (s.sched rack).band.map fun k => s.chs.table.entries.get k

/-- The effective capacity: the lesser of the band's cap and the hall-mode capacity, 0 without a band (R141). -/
def capacityOf (s : State) (rack : Fin 12) : Nat :=
  match bandEntry s rack with
  | none => 0
  | some e => min e.cap
      (match s.mge.mode with
        | .opened => (s.rack rack).config.openCap
        | .closed => (s.rack rack).config.closedCap)

/-- The cadence period in ms: base turn interval × multiplier of the band (R142). Without a band C is 0 and no cadence
runs. -/
def cadencePeriod (s : State) (rack : Fin 12) : Nat :=
  match bandEntry s rack with
  | none => 0
  | some e => (s.rack rack).config.baseInterval * e.multiplier * 1000

/-- The active turn of a bay number, in its rack's active list (section 7.3). -/
def turnOn (s : State) (rack : Fin 12) (b : Fin 24) : Option Turn :=
  (s.sched rack).active.find? fun t => decide (t.bay = b)

/-- The receiver a KNOWN bay names. -/
def receiverIn (s : State) (a : Fin 288) : Option Receiver :=
  match (s.bay a).presence with
  | .known h => s.receiver h
  | .empty => none
  | .foreign _ => none

/-! ### Charge modes -/

/-- What keeps a bay without current whatever the band: it is empty, its receiver is faulty, or a FOREIGN bay shows FAULT
(R153). -/
def isBarred (s : State) (a : Fin 288) : Bool :=
  match (s.bay a).presence with
  | .empty => true
  | .foreign _ => (s.bay a).fault
  | .known h => match s.receiver h with
    | some r => r.fault
    | none => false

/-- The desired mode of a bay (R153). -/
def judgedMode (s : State) (a : Fin 288) : ChargeMode :=
  if (turnOn s (rackOf a) (bayNumber a)).isSome then .fast
  else if isBarred s a || (s.bay a).full then .off
  else match bandEntry s (rackOf a) with
    | none => .off
    | some e => if e.trickle then .trickle else .off

/-- CHS judges a bay's desired mode afresh (R153). -/
def judge (a : Fin 288) (s : State) : State := setMode a (judgedMode s a) s

/-- CHS judges every bay of a rack that is not in the active list (R151, R155). -/
def judgeRack (rack : Fin 12) (s : State) : State :=
  forEach (indices 24) (fun b t => if (turnOn t rack b).isSome then t else judge (bayAddress rack b) t) s

/-! ### Cadence and capacity -/

/-- The cadence is loaded with the full period when the rack is ONLINE and C is above 0, and stopped otherwise
(R142). -/
def restartCadence (rack : Fin 12) (s : State) : State :=
  s.putSched rack { s.sched rack with
    cadenceEnds := if isOnline s rack && decide (0 < (s.sched rack).capacity)
      then some (s.clock.now + cadencePeriod s rack) else none }

/-- Steps 1 to 3 of the end of a turn: out of the list, mode judged, TURN settle started (R148). -/
def stopTurn (rack : Fin 12) (b : Fin 24) (s : State) : State :=
  let t := s.putSched rack { s.sched rack with
    active := (s.sched rack).active.filter fun x => decide (x.bay ≠ b) }
  startTurnSettle (bayAddress rack b) (judge (bayAddress rack b) t)

/-- Turns end, the most recently started first, until the list has `limit` entries (R149, R150). -/
def trimTurns (rack : Fin 12) (limit : Nat) (s : State) : State :=
  forEach ((s.sched rack).active.drop limit).reverse (fun t => stopTurn rack t.bay) s

/-- C is computed afresh (R141); turns end where it falls (R150), and the cadence stops at 0 or is loaded at a rise from
0 on an ONLINE rack (R142, R152). -/
def refreshCapacity (rack : Fin 12) (s : State) : State :=
  let before := (s.sched rack).capacity
  let c := capacityOf s rack
  let t := trimTurns rack c (s.putSched rack { s.sched rack with capacity := c })
  if c = 0 then t.putSched rack { t.sched rack with cadenceEnds := none }
  else if before = 0 then restartCadence rack t
  else t

/-! ### Selection -/

/-- A bay is a candidate for a fast turn (R143). -/
def isCandidate (s : State) (rack : Fin 12) (b : Fin 24) : Bool :=
  let bay := s.bay (bayAddress rack b)
  isOnline s rack && decide (0 < (s.sched rack).capacity) &&
  (match receiverIn s (bayAddress rack b) with
    | some r => !r.fault
    | none => false) &&
  decide (bay.settle ≠ .dock) && decide (bay.settle ≠ .dockEnded) && bay.level.isSome && !bay.full &&
  (turnOn s rack b).isNone

/-- A candidate whose served flag is clear (R143). -/
def isEligible (s : State) (rack : Fin 12) (b : Fin 24) : Bool :=
  isCandidate s rack b && !(s.bay (bayAddress rack b)).served

/-- The class of a bay for selection: 1 short-reserved, 2 reserved, 3 other (R144). -/
def turnClass (s : State) (a : Fin 288) : Nat :=
  match receiverIn s a with
  | some r => if r.phase = .reserved then (if r.short then 1 else 2) else 3
  | none => 3

/-- Whether bay `x` comes before bay `y`: by class, then by level, lowest first (R144). -/
def ranksBefore (s : State) (rack : Fin 12) (x y : Fin 24) : Bool :=
  let cx := turnClass s (bayAddress rack x)
  let cy := turnClass s (bayAddress rack y)
  let lx := (s.bay (bayAddress rack x)).level.getD 0
  let ly := (s.bay (bayAddress rack y)).level.getD 0
  decide (cx < cy) || (decide (cx = cy) && decide (lx < ly))

/-- The first of the eligible bays in the order of R144; the lowest bay number among equals. -/
def bestBay (s : State) (rack : Fin 12) : Option (Fin 24) :=
  ((indices 24).filter (isEligible s rack)).foldl
    (fun best b => match best with
      | none => some b
      | some x => if ranksBefore s rack b x then some b else some x) none

/-- Whether a rack has a candidate, served or not (R146). -/
def hasCandidate (s : State) (rack : Fin 12) : Bool := (indices 24).any (isCandidate s rack)

/-- A new round begins: the served flags of the rack are cleared and the round number rises by 1 (R144, R155). -/
def newRound (rack : Fin 12) (s : State) : State :=
  let t := forEach (indices 24)
    (fun b u => u.putBay (bayAddress rack b) { u.bay (bayAddress rack b) with served := false }) s
  t.putSched rack { t.sched rack with round := (t.sched rack).round + 1 }

/-- Selection: the best eligible bay; with none eligible and a candidate served, the round closes and selection is made
once more (R144). -/
def selectBay (rack : Fin 12) (s : State) : Option (Fin 24) × State :=
  match bestBay s rack with
  | some b => (some b, s)
  | none =>
    if hasCandidate s rack then
      let t := newRound rack s
      (bestBay t rack, t)
    else (none, s)

/-! ### Turns -/

/-- The receiver's turn count rises by 1 (R88, R145). -/
def countTurn (a : Fin 288) (s : State) : State :=
  match (s.bay a).presence with
  | .known h =>
    match s.receiver h with
    | some r => s.putReceiver h (some { r with turnCount := satInc16 r.turnCount })
    | none => s
  | .empty => s
  | .foreign _ => s

/-- A turn is started on a bay (R145). -/
def startTurn (rack : Fin 12) (b : Fin 24) (s : State) : State :=
  let a := bayAddress rack b
  let q := s.sched rack
  let t := s.putSched rack { q with
    active := q.active ++ [⟨b, s.clock.now + (s.rack rack).config.turnLength * 1000⟩]
    counters := { q.counters with started := satAdd q.counters.started 1 } }
  let u := t.putBay a { t.bay a with served := true }
  countTurn a (startTurnSettle a (setMode a .fast u))

/-- Selection is made, and a turn is started on the bay it chooses; `pay` then changes the scheduler part. -/
def startSelected (rack : Fin 12) (pay : Sched → Sched) (s : State) : State :=
  match selectBay rack s with
  | (some b, t) =>
    let u := startTurn rack b t
    u.putSched rack (pay (u.sched rack))
  | (none, t) => t

/-- The start that may follow the end of a turn: a postponement repaid, or a pull-in (R148 step 4). -/
def followTurn (rack : Fin 12) (s : State) : State :=
  let q := s.sched rack
  if isOnline s rack && decide (q.active.length < q.capacity) then
    if 0 < q.postponed then startSelected rack (fun x => { x with postponed := x.postponed - 1 }) s
    else match bandEntry s rack with
      | none => s
      | some e =>
        if q.pulledIn < e.iMax then startSelected rack (fun x => { x with pulledIn := x.pulledIn + 1 }) s else s
  else s

/-- A turn ends, for the events of the first five rows of R147 (R148). -/
def endTurn (rack : Fin 12) (b : Fin 24) (s : State) : State := followTurn rack (stopTurn rack b s)

/-- A bay's active turn ends if it has one; otherwise its desired mode is judged (R154). -/
def endOrJudge (a : Fin 288) (s : State) : State :=
  if (turnOn s (rackOf a) (bayNumber a)).isSome then endTurn (rackOf a) (bayNumber a) s else judge a s

/-- A rack leaves ONLINE: every active turn ends, the cadence stops (R149). -/
def leaveOnline (rack : Fin 12) (s : State) : State :=
  let t := trimTurns rack 0 s
  t.putSched rack { t.sched rack with cadenceEnds := none }

/-- A cadence expiry, before the cadence is loaded again (R146). -/
def cadenceAct (rack : Fin 12) (s : State) : State :=
  let q := s.sched rack
  if 0 < q.pulledIn then s.putSched rack { q with pulledIn := q.pulledIn - 1 }
  else if !hasCandidate s rack then s
  else if q.active.length < q.capacity then startSelected rack id s
  else match bandEntry s rack with
    | none => s
    | some e =>
      if q.postponed < e.pMax then s.putSched rack { q with postponed := q.postponed + 1 }
      else
        let t := s.putSched rack { q with counters := { q.counters with starved := satAdd q.counters.starved 1 } }
        raiseEvent .turnStarved rack.val none
          (detailPair ((q.band.map Fin.val).getD 8) q.active.length) t

/-! ### Bands -/

/-- Moving up: while a temperature is at or above the next boundary, the band rises by 1 (R140). -/
def bandUp (t : BandTable) (temp : Int) (k : Fin 8) : Fin 8 :=
  (indices 7).foldl (fun b j => if b.val = j.val ∧ t.bounds.get j ≤ temp then j.succ else b) k

/-- Moving down: while a temperature is at or below the lower boundary less 2, the band falls by 1 (R140). -/
def bandDown (t : BandTable) (temp : Int) (k : Fin 8) : Fin 8 :=
  (indices 7).reverse.foldl
    (fun b j => if b.val = j.val + 1 ∧ temp ≤ t.bounds.get j - 2 then j.castSucc else b) k

/-- The band whose range contains a temperature (R139, R140). -/
def bandFresh (t : BandTable) (temp : Int) : Fin 8 := bandUp t temp 0

/-- The band a temperature gives a rack, with hysteresis where it has a band (R140). -/
def bandFor (t : BandTable) (temp : Int) (band : Option (Fin 8)) : Fin 8 :=
  match band with
  | none => bandFresh t temp
  | some k => bandDown t temp (bandUp t temp k)

/-- The band-change action (R151). The old band is given as 8 when it was absent; BAND_CHANGE is raised only where the
number has changed (R139). -/
def changeBand (rack : Fin 12) (new : Fin 8) (s : State) : State :=
  let old := (s.sched rack).band
  let e := s.chs.table.entries.get new
  let q := s.sched rack
  let t := s.putSched rack { q with
    band := some new
    pulledIn := 0
    postponed := min q.postponed e.pMax
    counters := { q.counters with dropped := satAdd q.counters.dropped (q.postponed - e.pMax) } }
  let c := capacityOf t rack
  let u := trimTurns rack c (t.putSched rack { t.sched rack with capacity := c })
  let v := restartCadence rack (judgeRack rack u)
  if old = some new then v
  else raiseEvent .bandChange rack.val none (detailPair ((old.map Fin.val).getD 8) new.val) v

/-- CHS is handed a temperature for a rack (R140). -/
def takeTemperature (rack : Fin 12) (temp : Int) (s : State) : State :=
  let old := (s.sched rack).band
  let new := bandFor s.chs.table temp old
  if old = some new then s else changeBand rack new s

/-- A rack is treated at a new Thermal Band Table, when it has a band (R139). -/
def treatRack (rack : Fin 12) (s : State) : State :=
  match (s.sched rack).band, (s.rack rack).live.temperature with
  | some _, some temp => changeBand rack (bandFresh s.chs.table temp) s
  | some k, none => changeBand rack k s
  | none, _ => s

/-! ### Resynchronisation -/

/-- Resynchronisation of a rack (R155). -/
def resync (rack : Fin 12) (s : State) : State :=
  let t := newRound rack s
  let u := t.putSched rack { t.sched rack with postponed := 0, pulledIn := 0 }
  restartCadence rack (judgeRack rack u)

/-- Every rack's C is computed afresh, then every enabled rack is resynchronised, in ascending rack number
(R152, R155). -/
def refreshAll (s : State) : State :=
  let t := forEach (indices 12) refreshCapacity s
  forEach (indices 12) (fun r u => if (u.rack r).config.enabled then resync r u else u) t

end Sys2Proof.Machine
end

