-- ==== Sys2Proof/Machine/Flags.lean ====
section
/-! DEFINITION. The flag computations: the voice flag of a source (R16), the level of a cell voltage (R129) and the signals
of a bay (R130). -/

namespace Sys2Proof.Machine

open Sys2Proof

/-- The voice flag and hang remaining after a mix point whose frame level stands in the record (R16). -/
def voiceUpdate (c : SourceConfig) (l : SourceLive) : SourceLive :=
  if c.onThreshold ≤ l.level then { l with voice := true, hangLeft := c.hang }
  else if l.voice then
    if c.offThreshold ≤ l.level then { l with hangLeft := c.hang }
    else { l with hangLeft := l.hangLeft - 1, voice := decide (l.hangLeft - 1 ≠ 0) }
  else l

/-- The level between two points of the curve, rounded half up (R129). -/
def interpolate (a b : CurvePoint) (v : Nat) : Nat :=
  a.percent + (2 * (v - a.mv) * (b.percent - a.percent) + (b.mv - a.mv)) / (2 * (b.mv - a.mv))

/-- The level by the segments from point `a` on: the segment with `vi ≤ v < v(i+1)`, or the last point's level (R129). -/
def levelFrom (a : CurvePoint) (v : Nat) : List CurvePoint → Nat
  | [] => a.percent
  | b :: rest => if v < b.mv then interpolate a b v else levelFrom b v rest

/-- The battery level of a cell voltage by the Level Curve: flat below the first point and above the last (R129). -/
def levelOf (curve : Tab CurvePoint 8) (v : Nat) : Nat :=
  match curve.items with
  | [] => 0
  | a :: rest => if v ≤ a.mv then a.percent else levelFrom a v rest

/-- READY: level at or above the ready threshold (R130). -/
def readySignal (set : Settings) (level : Nat) : Bool := decide (set.ready ≤ level)

/-- FULL: level at or above the full threshold (R130). -/
def fullSignal (set : Settings) (level : Nat) : Bool := decide (set.full ≤ level)

/-- FAULT: the rack's fault flag, or a voltage below 2500 mV or above 4400 mV (R130). -/
def faultSignal (rackFault : Bool) (mv : Nat) : Bool := rackFault || decide (mv < 2500) || decide (4400 < mv)

end Sys2Proof.Machine
end

