-- ==== Sys2Proof/Machine/Intake.lean ====
section
/-! DEFINITION. Source Intake: judging and accepting audio frames (R6 to R8, R17) and a source's part of a mix point
(R10 to R16). -/

namespace Sys2Proof.Machine

open Sys2Proof

/-- Silence: 64 samples of zero. -/
def silence : Frame := Tab.fill 64 0#16

/-- Every sample halved by arithmetic shift (R11). -/
def halveFrame (f : Frame) : Frame := f.map fun x => x.sshiftRight 1

/-- The greatest magnitude among a frame's samples (R15). -/
def frameLevel (f : Frame) : Nat := f.items.foldl (fun m x => max m x.toInt.natAbs) 0

/-- The voice flag another block reads for a source id; clear for an unloaded one (R1, R14). -/
def voiceOf (s : State) (i : Fin 48) : Bool :=
  match s.source i with
  | some r => r.live.voice
  | none => false

/-! ### A mix point -/

/-- What a mix point makes of one source: the new live fields, the frame handed on, and an event with its detail. -/
structure SlotOutcome where
  live : SourceLive
  frame : Frame
  event : Option (EventKind × Nat)

/-- The slot is empty of a frame taken as fresh (R10). -/
def takeFresh (l : SourceLive) (f : Frame) : SourceLive :=
  { l with slot := none, lastUsed := some f, missRun := 0, concealStep := 0, level := frameLevel f }

/-- A missed mix point of a LIVE source: concealed by R11, STALE at the 25th miss by R12. -/
def concealMiss (l : SourceLive) : SlotOutcome :=
  let miss := satInc16 l.missRun
  let handed := if l.concealStep = 0 then (l.lastUsed.map halveFrame).getD silence else silence
  let next := { l with
    slot := none, missRun := miss, concealStep := if l.concealStep = 0 then 1 else 2, level := 0
    counters := { l.counters with concealed := satAdd l.counters.concealed 1 } }
  if Config.staleAfter ≤ miss then
    { live := { next with phase := .stale }, frame := handed
      event := some (.sourceStale, (l.lastSeq.map BitVec.toNat).getD 0) }
  else { live := next, frame := handed, event := none }

/-- The frame slot is emptied and the frame handed on is chosen, by the state of the record (R10 to R13). -/
def takeSlot (l : SourceLive) : SlotOutcome :=
  match l.phase, l.slot with
  | .absent, _ => { live := { l with slot := none, level := 0 }, frame := silence, event := none }
  | .live, some f => { live := takeFresh l f, frame := f, event := none }
  | .live, none => concealMiss l
  | .stale, some f =>
    { live := { takeFresh l f with phase := .live }, frame := f, event := some (.sourceBack, l.missRun) }
  | .stale, none =>
    { live := { l with missRun := satInc16 l.missRun, level := 0 }, frame := silence, event := none }

/-- The frame SIU hands the Mixer for a record at a mix point; silence for an unloaded id (R1, R14). -/
def handedFrame (r : Option Source) : Frame :=
  match r with
  | some x => (takeSlot x.live).frame
  | none => silence

/-- The mix point's work on one source: slot, level, voice flag, event (R10 to R16, R20). -/
def mixSource (i : Fin 48) (s : State) : State :=
  match s.source i with
  | none => s
  | some r =>
    let o := takeSlot r.live
    let t := s.putSource i (some { r with live := voiceUpdate r.config o.live })
    match o.event with
    | some (kind, detail) => raiseEvent kind i.val none detail t
    | none => t

/-- A LIVE source with an empty slot whose next miss is the 25th (R12). -/
def staleDue (l : SourceLive) : Bool :=
  decide (l.phase = .live) && l.slot.isNone && decide (Config.staleAfter ≤ satInc16 l.missRun)

/-! ### Frame intake -/

/-- The loaded record with this key, by station and stream (R1, R6). -/
def findSource (station : Station) (stream : Nat) (s : State) : Option (Fin 48) :=
  (indices 48).find? fun i =>
    match s.source i with
    | some r => decide (r.config.station = station) && decide (r.config.stream.val = stream)
    | none => false

/-- How a frame's sequence number is judged (R7). -/
inductive SeqJudgement where
  | first | newer | newerWithGap | duplicate | late
  deriving DecidableEq, Repr

/-- The sequence judgement of R7. A LIVE source has a last accepted sequence; without one the frame is a first one. -/
def judgeSequence (l : SourceLive) (seq : BitVec 16) : SeqJudgement :=
  match l.phase, l.lastSeq with
  | .live, some a =>
    let d := (seq - a).toNat
    if d = 0 then .duplicate
    else if d = 1 then .newer
    else if d < 32768 then .newerWithGap
    else .late
  | .live, none => .first
  | .absent, _ => .first
  | .stale, _ => .first

/-- The advance of the mark counter that an accepted frame shows, none for a baseline or no change (R17). -/
def markAdvance (kind : SourceKind) (l : SourceLive) (mark : BitVec 4) : Option Nat :=
  match kind, l.lastMark with
  | .guide, some m => if l.phase = .stale ∨ mark = m then none else some (mark - m).toNat
  | .guide, none => none
  | .interpreter, _ => none
  | .track, _ => none

/-- The live fields after a frame is accepted (R8, R17), with the gap counted where R7 says. -/
def acceptFrame (kind : SourceKind) (l : SourceLive) (gap : Bool) (seq : BitVec 16) (mark : BitVec 4)
    (f : Frame) : SourceLive :=
  { l with
    lastSeq := some seq
    slot := some f
    lastMark := if kind = .guide then some mark else l.lastMark
    phase := if l.phase = .absent then .live else l.phase
    counters := { l.counters with
      accepted := satAdd l.counters.accepted 1
      gap := if gap then satAdd l.counters.gap 1 else l.counters.gap
      overrun := if l.slot.isSome then satAdd l.counters.overrun 1 else l.counters.overrun } }

/-- The 64 samples of an AUDIO UP payload (Table 8-3). -/
def payloadSamples (payload : List Byte) : Frame :=
  Tab.ofFn fun n => BitVec.ofNat 16 (wordAt payload (4 + 2 * n.val))

end Sys2Proof.Machine
end

