-- ==== Sys2Proof/Machine/Mixer.lean ====
section
/-! DEFINITION. The Mixer: installing, staging and the mix computation of one program (R24, R26, R29 to R38). -/

namespace Sys2Proof.Machine

open Sys2Proof

/-- A program record is loaded when it holds installed or pending fields (R21). -/
def programLoaded (p : Program) : Bool := p.installed.isSome || p.pendingRec.isSome

/-- The effective record: the pending one when present, otherwise the installed one (R21). -/
def effectiveRecord (p : Program) : Option ProgramFields := p.pendingRec.or p.installed

/-- A program is on air while it is bound and the hall mode is OPEN (R29). -/
def onAir (mode : HallMode) (p : Program) : Bool := p.binding.isSome && decide (mode = .opened)

/-- The pending record becomes the installed fields (R24). -/
def installPending (p : Program) : Program :=
  match p.pendingRec with
  | some r => { p with installed := some r, pendingRec := none }
  | none => p

/-- A member with its staged gain applied, when it is present and one is staged (R26). -/
def stagedMember (m : Option Member) (g : Option Nat) : Option Member :=
  match m, g with
  | some x, some gain => some { x with gain := gain }
  | some x, none => some x
  | none, _ => none

/-- Every staged gain is applied or discarded, and becomes absent (R26). -/
def applyStaged (p : Program) : Program :=
  { p with
    installed := p.installed.map fun r =>
      { r with members := r.members.mapWith fun k m => stagedMember m (p.staged.get k) }
    staged := .fill 5 none }

/-- One input of a program at a mix point (R31). -/
structure Input where
  gain : Nat
  cls : MemberClass
  frame : Frame
  voice : Bool

/-- What SIU hands the Mixer at a mix point for each source id: the frame chosen, its frame level L and the voice flag; for
an unloaded id silence, 0 and clear (R1, R14). The default gain per source stands beside them (R28). L is no part of an
input (R31), so no rule of the Mixer reads it. -/
structure MixFeed where
  frames : Tab Frame 48
  levels : Tab Nat 48
  voices : Tab Bool 48
  gains : Tab Nat 48

/-- The feed of a mix point: the frames SIU chose, with the levels, flags and default gains of the records after its work
(R14, R15). -/
def mixFeed (before after : State) : MixFeed :=
  { frames := before.siu.sources.map handedFrame
    levels := after.siu.sources.map fun r => match r with | some x => x.live.level | none => 0
    voices := after.siu.sources.map fun r => match r with | some x => x.live.voice | none => false
    gains := after.siu.sources.map fun r => match r with | some x => x.config.defaultGain | none => 0 }

/-- The inputs of a program: present members in slot order, then the fallback input (R28, R31). -/
def inputsOf (feed : MixFeed) (r : ProgramFields) (fallback : Option (Fin 48)) : List Input :=
  (r.members.items.filterMap fun m => m.map fun x =>
    { gain := x.gain, cls := x.cls, frame := feed.frames.get x.source, voice := feed.voices.get x.source }) ++
  (fallback.map fun i =>
    { gain := feed.gains.get i, cls := .voice, frame := feed.frames.get i, voice := feed.voices.get i }).toList

/-- The duck target: the duck depth while the voice-active set has an input (R32). -/
def duckTarget (r : ProgramFields) (inputs : List Input) : Nat :=
  if inputs.any fun x => decide (x.cls = .voice) && x.voice then r.duckDepth else Config.unity

/-- The duck factor after one step toward the target (R33). -/
def duckStep (r : ProgramFields) (target g : Nat) : Nat :=
  if target < g then max target (g - r.attack)
  else if g < target then min target (g + r.release)
  else g

/-- The effective gain of an input (R34). -/
def effectiveGain (g : Nat) (x : Input) : Nat :=
  match x.cls with
  | .voice => x.gain
  | .bed => (x.gain * g + 16384) / 32768

/-- The exact sum of sample `n` over all inputs (R35). -/
def sampleSum (g : Nat) (inputs : List Input) (n : Fin 64) : Int :=
  (inputs.map fun x => (x.frame.get n).toInt * (effectiveGain g x : Int)).sum

/-- Scaled back to sample scale by rounding half up; the divisor is positive, so the quotient is the floor (R36). -/
def roundSum (total : Int) : Int := (total + 16384) / 32768

/-- Saturated to the sample range (R37). -/
def saturate (y : Int) : Int := max (-32768) (min 32767 y)

/-- The frame of an on-air program: rounded and saturated sums (R35 to R37). -/
def mixFrame (g : Nat) (inputs : List Input) : Frame :=
  Tab.ofFn fun n => BitVec.ofInt 16 (saturate (roundSum (sampleSum g inputs n)))

/-- Whether at least one sample of the frame was saturated (R37). -/
def mixClips (g : Nat) (inputs : List Input) : Bool :=
  (indices 64).any fun n => decide (saturate (roundSum (sampleSum g inputs n)) ≠ roundSum (sampleSum g inputs n))

/-- Fields of an on-air program without installed fields: no members. A bound program is loaded, so step 1 of R30 has
installed fields before step 4; the case is here for totality only (log 19). -/
def noFields : ProgramFields := { members := .fill 5 none, duckDepth := 8192, attack := 8192, release := 1024 }

/-- Steps 1 and 2 of R30 for one program. -/
def preparedProgram (apply : Bool) (p : Program) : Program :=
  if apply then applyStaged (installPending p) else installPending p

/-- The inputs of a prepared program (R31). -/
def programInputs (feed : MixFeed) (p : Program) : List Input :=
  inputsOf feed (p.installed.getD noFields) p.fallback

/-- The new duck factor of a prepared on-air program (R32, R33). -/
def nextDuck (feed : MixFeed) (p : Program) : Nat :=
  let r := p.installed.getD noFields
  duckStep r (duckTarget r (programInputs feed p)) p.duck

/-- The record of a program after a mix point (R30). -/
def mixedProgram (mode : HallMode) (apply : Bool) (feed : MixFeed) (p : Program) : Program :=
  let q := preparedProgram apply p
  if onAir mode q then
    let g := nextDuck feed q
    { q with
      duck := g
      clipped := if mixClips g (programInputs feed q) then satAdd q.clipped 1 else q.clipped }
  else q

/-- The frame an on-air program hands to the Zone Allocator, with its binding (R38). -/
def programFrame (mode : HallMode) (apply : Bool) (feed : MixFeed) (p : Program) : Option (Fin 24 × Frame) :=
  let q := preparedProgram apply p
  match q.binding with
  | some ch => if mode = .opened then some (ch, mixFrame (nextDuck feed q) (programInputs feed q)) else none
  | none => none

/-- The Mixer's work at a mix point: every program, then the apply request is cleared (R30, R26). -/
def mixPrograms (feed : MixFeed) (s : State) : State :=
  s.withMxr { programs := s.mxr.programs.map (mixedProgram s.mge.mode s.mxr.applyRequest feed)
              applyRequest := false }

/-- The frames the Mixer hands over at a mix point, in program order (R38). -/
def framesOnAir (feed : MixFeed) (s : State) : List (Fin 24 × Frame) :=
  s.mxr.programs.items.filterMap (programFrame s.mge.mode s.mxr.applyRequest feed)

/-- A program that becomes on air has its duck factor set to 32768 (R29). -/
def bindProgram (p : Fin 32) (ch : Fin 24) (s : State) : State :=
  let q := s.program p
  s.putProgram p { q with
    binding := some ch
    duck := if s.mge.mode = .opened then Config.unity else q.duck }

/-- A program's binding is removed (R43, R29). -/
def unbindProgram (p : Fin 32) (s : State) : State :=
  s.putProgram p { s.program p with binding := none }

end Sys2Proof.Machine
end

