-- ==== Sys2Proof/Machine/Zones.lean ====
section
/-! DEFINITION. The Zone Allocator: zone sets and carried counts (R44), PROGRAM frames (R48, R166), handover (R51 to R55) and
wait queues (R56 to R58). -/

namespace Sys2Proof.Machine

open Sys2Proof

/-! ### Zone sets and carried counts -/

/-- The zone set that holds one zone (Table 8-5). -/
def zoneBit (z : Fin 12) : ZoneSet := 1#12 <<< z.val

/-- 1 when the zone is in the set, else 0. -/
def inSet (z : Fin 12) (zs : ZoneSet) : Nat := if zs.getLsbD z.val then 1 else 0

/-- The free slots of a zone: 8 minus its carried count (section 3.2). -/
def freeSlots (s : State) (z : Fin 12) : Nat := Config.zoneCapacity - (s.zone z).carried

/-- A channel takes another zone set, and the carried counts change in the same action: each zone added gains 1 and
each zone removed loses 1 (R44, R46). -/
def setZones (ch : Fin 24) (zs : ZoneSet) (s : State) : State :=
  let c := s.channel ch
  s.withZal
    { channels := s.zal.channels.set ch { c with zones := zs }
      zones := s.zal.zones.mapWith fun z r => { r with carried := r.carried + inSet z zs - inSet z c.zones } }

/-- The lowest-numbered zone of a set (R58). -/
def lowestZone (zs : ZoneSet) : Option (Fin 12) := (indices 12).find? fun z => zs.getLsbD z.val

/-! ### PROGRAM frames -/

/-- A frame put at its place among frames in ascending channel number (R48). -/
def insertByChannel (x : Fin 24 × Frame) : List (Fin 24 × Frame) → List (Fin 24 × Frame)
  | [] => [x]
  | y :: rest => if y.1 ≤ x.1 then y :: insertByChannel x rest else x :: y :: rest

/-- The frames of one mix point in ascending channel number (R48). -/
def sortByChannel (xs : List (Fin 24 × Frame)) : List (Fin 24 × Frame) :=
  xs.foldl (fun acc x => insertByChannel x acc) []

/-- The payload of a PROGRAM frame (Table 8-5). -/
def programPayload (ch : Fin 24) (c : Channel) (f : Frame) : List Byte :=
  enc8 ch.val ++ enc16 c.zones.toNat ++ enc16 c.seq.toNat ++ (f.items.map fun x => enc16 x.toNat).flatten

/-- ZAL builds the PROGRAM frame of a channel (R48). -/
def buildProgram (s : State) (ch : Fin 24) (f : Frame) : EgressFrame :=
  { dest := Config.broadcast, origin := .program ch, payload := programPayload ch (s.channel ch) f }

/-- PROGRAM frames of an earlier mix point still in class 1 are discarded (R166). -/
def supersede (s : State) : State :=
  s.withHli { s.hli with
    class1 := []
    counters := { s.hli.counters with superseded := satAdd s.hli.counters.superseded s.hli.class1.length } }

/-- ZAL builds one PROGRAM frame, raises the channel's sequence and hands the frame over (R48). -/
def emitProgram (x : Fin 24 × Frame) (s : State) : State :=
  let f := buildProgram s x.1 x.2
  handOver f (s.putChannel x.1 { s.channel x.1 with seq := (s.channel x.1).seq + 1 })

/-- ZAL hands the PROGRAM frames of a mix point over together, after those of an earlier one are discarded (R48, R166);
with no frame to hand over there is no hand-over (log 13). -/
def emitPrograms (xs : List (Fin 24 × Frame)) (s : State) : State :=
  match sortByChannel xs with
  | [] => s
  | sorted => forEach sorted emitProgram (supersede s)

/-! ### Binding and unbinding channels -/

/-- A channel is bound to a program and takes a zone set; the program's binding is written in the same action (R43). -/
def bindChannel (ch : Fin 24) (phase : ChannelState) (p : Fin 32) (zs : ZoneSet) (s : State) : State :=
  let t := s.putChannel ch { s.channel ch with phase := phase, program := some p }
  bindProgram p ch (setZones ch zs t)

/-- A channel is freed: its program's binding is removed, its program becomes absent, its zone set is emptied, and its
sequence is kept (R46, R50). -/
def freeChannel (ch : Fin 24) (s : State) : State :=
  let t := match (s.channel ch).program with
    | some p => unbindProgram p s
    | none => s
  let u := setZones ch 0#12 t
  u.putChannel ch { u.channel ch with phase := .free, program := none }

/-- The FREE channels, in ascending number (R49). -/
def freeChannels (s : State) : List (Fin 24) :=
  (indices 24).filter fun ch => decide ((s.channel ch).phase = .free)

/-! ### Handover -/

/-- The timing of a slot; a slot that is not FREE has one (section 4.1). -/
def timingOf (t : Tour) : Timing := t.timing.getD .reset

/-- The channels a tour holds, in entry order. -/
def tourChannels (l : TourLive) : List (Fin 24) := l.channels.items.filterMap id

/-- The need of a tour: the number of channels it holds (section 3.5). -/
def tourNeed (l : TourLive) : Nat := (tourChannels l).length

/-- Handover state of a tour (R51), coded in this order (Table 8-9). -/
inductive Handover where
  | settled | window | waiting
  deriving DecidableEq, Repr

/-- The handover state, told by the live record (R51). -/
def handoverOf (l : TourLive) : Handover :=
  if l.prevZone.isSome then .window
  else if l.target.isSome then .waiting
  else .settled

/-- Every channel of a tour takes a zone set (R52). -/
def setTourZones (slot : Fin 16) (zs : ZoneSet) (s : State) : State :=
  forEach (tourChannels (s.tour slot).live) (fun ch => setZones ch zs) s

/-- Raises an event about a tour, with its slot as subject and its run number (section 4.7). -/
def raiseTour (kind : EventKind) (slot : Fin 16) (detail : Nat) (s : State) : State :=
  raiseEvent kind slot.val (some (s.tour slot).live.run) detail s

/-- The previous zone is dropped: steps 1 to 3 of a window's end (R54), which a cut (R55) and a grant with a window of 0 (R52)
share. DEDUCED (log 24): window remaining becomes absent with the previous zone. -/
def dropPrevious (slot : Fin 16) (s : State) : State :=
  match (s.tour slot).live.prevZone with
  | none => s
  | some p =>
    let t := forEach (tourChannels (s.tour slot).live)
      (fun ch u => setZones ch ((u.channel ch).zones &&& ~~~zoneBit p) u) s
    let u := t.putLive slot { (t.tour slot).live with prevZone := none, window := none }
    raiseTour .handoverDone slot p.val u

/-- A tour's entry is taken out of a zone's wait queue; the entries behind it keep their order (R56). -/
def dequeue (slot : Fin 16) (z : Fin 12) (s : State) : State :=
  s.putZone z { s.zone z with queue := (s.zone z).queue.filter fun w => decide (w.slot ≠ slot) }

/-- A granted handover (R52), and the zone it releases when the window is 0. -/
def grant (slot : Fin 16) (z : Fin 12) (s : State) : State × ZoneSet :=
  match (s.tour slot).live.zone with
  | none => (s, 0#12)
  | some cur =>
    let t := dequeue slot z (setTourZones slot (zoneBit cur ||| zoneBit z) s)
    let w := (timingOf (t.tour slot)).window / Config.framePeriodMs
    let u := t.putLive slot { (t.tour slot).live with
      prevZone := some cur, zone := some z, target := none, window := some w }
    if w = 0 then (dropPrevious slot u, zoneBit cur) else (u, 0#12)

/-- Serves the wait queue of one zone: the head is granted while its need fits (R57). `released` gathers the zones that
grants with a window of 0 release (R58). -/
def serveZone (z : Fin 12) : Nat → State × ZoneSet → State × ZoneSet
  | 0, r => r
  | fuel + 1, (s, released) =>
    match (s.zone z).queue with
    | [] => (s, released)
    | w :: _ =>
      if w.need ≤ freeSlots s z then
        let g := grant w.slot z (dequeue w.slot z s)
        serveZone z fuel (g.1, released ||| g.2)
      else (s, released)

/-- Serves a set of zones, the lowest-numbered first, until the set is empty (R58). -/
def serveSet : Nat → ZoneSet → State → State
  | 0, _, s => s
  | fuel + 1, zs, s =>
    match lowestZone zs with
    | none => s
    | some z =>
      let r := serveZone z (s.zone z).queue.length (s, zs &&& ~~~zoneBit z)
      serveSet fuel r.2 r.1

/-- Enough rounds for R58: each grant removes one tour from a queue and adds one zone at most. -/
def serviceRounds (s : State) : Nat := 12 + (s.zal.zones.items.map fun r => r.queue.length).sum

/-- The service of the zones whose slots were released (R57, R58). -/
def serveZones (zs : ZoneSet) (s : State) : State := serveSet (serviceRounds s + 1) zs s

/-- Whether a zone's wait queue is empty or headed by this tour (R52). -/
def mayEnter (s : State) (slot : Fin 16) (z : Fin 12) : Bool :=
  match (s.zone z).queue with
  | [] => true
  | w :: _ => decide (w.slot = slot)

/-- The tour joins the tail of a zone's wait queue (R53). -/
def joinQueue (slot : Fin 16) (z : Fin 12) (s : State) : State :=
  let l := (s.tour slot).live
  let t := s.putZone z { s.zone z with queue := (s.zone z).queue ++ [⟨slot, tourNeed l⟩] }
  raiseTour .handoverWait slot z.val (t.putLive slot { l with target := some z })

/-- A handover request to a zone: granted, put in WAITING, or left where it stands (R52, R53). -/
def requestHandover (slot : Fin 16) (z : Fin 12) (s : State) : State :=
  let l := (s.tour slot).live
  if mayEnter s slot z && decide (tourNeed l ≤ freeSlots s z) then
    let g := grant slot z s
    serveZones g.2 g.1
  else if l.target = some z then s
  else joinQueue slot z s

/-- A cut of the window, with the service of the dropped zone (R55). -/
def cutWindow (slot : Fin 16) (s : State) : State :=
  match (s.tour slot).live.prevZone with
  | some p => serveZones (zoneBit p) (dropPrevious slot s)
  | none => s

/-- A waiting tour is taken out of its queue (R56), and the zone whose queue lost its head. -/
def leaveQueue (slot : Fin 16) (s : State) : State × ZoneSet :=
  match (s.tour slot).live.target with
  | none => (s, 0#12)
  | some z =>
    let head := match (s.zone z).queue with
      | [] => false
      | w :: _ => decide (w.slot = slot)
    let t := dequeue slot z s
    (t.putLive slot { (t.tour slot).live with target := none }, if head then zoneBit z else 0#12)

/-- A waiting tour is taken out of its queue, and that queue is served if it lost its head (R56). -/
def takeOut (slot : Fin 16) (s : State) : State :=
  let r := leaveQueue slot s
  serveZones r.2 r.1

/-- The countdown of one tour's window at a mix point, with its end and the service it brings (R54). -/
def tickWindow (slot : Fin 16) (s : State) : State :=
  let l := (s.tour slot).live
  match l.prevZone with
  | none => s
  | some p =>
    let w := l.window.getD 0 - 1
    if w = 0 then serveZones (zoneBit p) (dropPrevious slot (s.putLive slot { l with window := some 0 }))
    else s.putLive slot { l with window := some w }

/-- Whether the countdown of a tour's window reaches 0 at its next mix point (R54). -/
def windowDue (l : TourLive) : Bool := l.prevZone.isSome && decide (l.window.getD 0 ≤ 1)

/-- The zones carried by a tour's channels. -/
def carriedBy (s : State) (chs : List (Fin 24)) : ZoneSet :=
  chs.foldl (fun acc ch => acc ||| (s.channel ch).zones) 0#12

/-- The Zone Allocator unbinds a tour: steps 1 to 3 of R50, and the zones that step 4 serves. -/
def unbindTour (slot : Fin 16) (s : State) : State × ZoneSet :=
  let r := leaveQueue slot s
  let chs := tourChannels (r.1.tour slot).live
  let released := r.2 ||| carriedBy r.1 chs
  let t := forEach chs freeChannel r.1
  (t.putLive slot { (t.tour slot).live with prevZone := none, window := none, target := none }, released)

end Sys2Proof.Machine
end

