-- ==== Sys2Proof/Machine/Fleet.lean ====
section
/-! DEFINITION. The Fleet Table and the bay rules it works with: docks and undocks (R94 to R99, R123, R124), enrolment (R90 to
R92), reservation (R102 to R105) and return deadlines (R106, R107). -/

namespace Sys2Proof.Machine

open Sys2Proof

/-! ### Finding records -/

/-- The handle of the present record that holds a tag (R88). -/
def findTag (tag : RxTag) (s : State) : Option (Fin 384) :=
  (indices 384).find? fun h =>
    match s.receiver h with
    | some r => decide (r.tag = tag)
    | none => false

/-- The lowest absent handle (R90). -/
def freeHandle (s : State) : Option (Fin 384) := (indices 384).find? fun h => (s.receiver h).isNone

/-- The FOREIGN bay with the lowest bay address that shows a tag (R91). -/
def foreignBay (tag : RxTag) (s : State) : Option (Fin 288) :=
  (indices 288).find? fun a => decide ((s.bay a).presence = .foreign tag)

/-- A new record: the tag, UNSEEN, and every other field at its Reset value (R90). -/
def newReceiver (tag : RxTag) : Receiver :=
  { tag := tag, phase := .unseen, bay := none, level := none, fault := false, short := false, tour := none,
    required := none, deadline := none, issueTime := none, turnCount := 0 }

/-! ### Notices to the Tour Controller -/

/-- A RESERVED receiver of the run is issued (R70). -/
def noteIssued (slot : Fin 16) (s : State) : State :=
  let l := (s.tour slot).live
  s.putLive slot { l with reserved := l.reserved - 1, issued := l.issued + 1 }

/-- A RESERVED receiver of the run is released (R70). -/
def noteReleased (slot : Fin 16) (s : State) : State :=
  let l := (s.tour slot).live
  s.putLive slot { l with reserved := l.reserved - 1 }

/-- An ISSUED receiver of the run docks (R70). -/
def noteReturned (slot : Fin 16) (s : State) : State :=
  let l := (s.tour slot).live
  s.putLive slot { l with issued := l.issued - 1, returned := l.returned + 1 }

/-! ### Undocks -/

/-- The detail of a DOCKED edge: the handle of a KNOWN receiver, FFFFh for a FOREIGN one (R171). -/
def dockedDetail (p : Presence) : Nat :=
  match p with
  | .known h => h.val
  | .foreign _ => 0xFFFF
  | .empty => 0xFFFF

/-- The detail of a READY, FULL or FAULT edge: the level, FFFFh where the bay has none (Table 9-2). -/
def levelDetail (level : Option Nat) : Nat := level.getD 0xFFFF

/-- Raises a bay event when a condition holds. -/
def raiseBay (cond : Bool) (kind : EventKind) (a : Fin 288) (detail : Nat) (s : State) : State :=
  if cond then raiseEvent kind a.val none detail s else s

/-- Steps 2 to 4 of an undock: the bay is cleared of its receiver's data, the signals that were set fall, CHS is told
(R124). `old` is the bay record before the undock. -/
def bayEmptied (old : Bay) (a : Fin 288) (s : State) : State :=
  let t := s.putBay a { s.bay a with
    presence := .empty, level := none, voltage := none, settle := .none, settleEnds := none,
    docked := false, ready := false, full := false, fault := false }
  let u := raiseBay old.fault .faultFall a (levelDetail old.level) t
  let v := raiseBay old.full .fullFall a (levelDetail old.level) u
  let w := raiseBay old.ready .readyFall a (levelDetail old.level) v
  let x := raiseBay old.docked .dockedFall a (dockedDetail old.presence) w
  endOrJudge a x

/-- The bay is emptied: presence EMPTY and desired assignment none (R96, R98, R99). -/
def clearBay (a : Fin 288) (s : State) : State :=
  setAssign a none (s.putBay a { s.bay a with presence := .empty })

/-- FLT's part of an undock of the record that a KNOWN bay names (R98, R99). -/
def fleetUndock (a : Fin 288) (h : Fin 384) (s : State) : State :=
  let t := clearBay a s
  match t.receiver h with
  | none => t
  | some r =>
    match r.phase, r.tour with
    | .reserved, some ref =>
      let u := t.putReceiver h (some { r with
        phase := .issued, bay := none, short := false, required := none, issueTime := some t.mge.hubTime })
      raiseEvent (if r.short then .issuedShort else .issued) h.val none (detailPair ref.slot.val ref.entry.val)
        (noteIssued ref.slot u)
    | .docked, _ =>
      let u := t.putReceiver h (some { r with phase := .stray, bay := none, issueTime := some t.mge.hubTime })
      raiseEvent .unplannedTake h.val none a.val
        (u.withFlt { u.flt with unplannedTakes := satAdd u.flt.unplannedTakes 1 })
    | _, _ => t.putReceiver h (some { r with bay := none })

/-- An undock of a bay, whatever found it (R124). -/
def undockBay (a : Fin 288) (s : State) : State :=
  let old := s.bay a
  match old.presence with
  | .empty => s
  | .known h => bayEmptied old a (fleetUndock a h s)
  | .foreign _ => bayEmptied old a (clearBay a s)

/-! ### Docks -/

/-- A present record takes a bay: the record names the bay, the bay names the record, and the level is absent
(R95, R96). -/
def placeReceiver (a : Fin 288) (h : Fin 384) (r : Receiver) (s : State) : State :=
  let t := s.putReceiver h (some { r with bay := some a, level := none })
  t.putBay a { t.bay a with presence := .known h }

/-- A dock of a known tag whose record names no bay (R95). -/
def dockKnown (a : Fin 288) (h : Fin 384) (r : Receiver) (s : State) : State :=
  let t := placeReceiver a h
    { r with phase := .docked, tour := none, issueTime := none, deadline := none, short := false, required := none } s
  let u := setAssign a none t
  let v := match r.phase, r.tour with
    | .issued, some ref => noteReturned ref.slot u
    | _, _ => u
  let late := decide (r.phase = .due) || decide (r.phase = .overdue)
  let w := if late then v.withFlt { v.flt with lateReturns := satAdd v.flt.lateReturns 1 } else v
  if decide (r.phase = .stray) || decide (r.phase = .issued) || late then
    raiseEvent .returned h.val none (a.val + if late then 32768 else 0) w
  else w

/-- A dock of a tag whose record names another bay: the receiver moves (R96). -/
def moveReceiver (old a : Fin 288) (h : Fin 384) (s : State) : State :=
  let was := s.bay old
  let t := bayEmptied was old (clearBay old s)
  match t.receiver h with
  | none => t
  | some r =>
    let u := placeReceiver a h r t
    match r.phase, r.tour with
    | .reserved, some ref => setAssign a (some ⟨ref.channel, true⟩) u
    | _, _ => setAssign a none u

/-- Enrolment of a tag into the bay where it docks (R92). -/
def enrolInto (a : Fin 288) (h : Fin 384) (tag : RxTag) (s : State) : State :=
  setAssign a none (placeReceiver a h { newReceiver tag with phase := .docked } s)

/-- A dock of an unknown tag (R97). -/
def dockUnknown (a : Fin 288) (tag : RxTag) (s : State) : State :=
  let t := setAssign a none (s.putBay a { s.bay a with presence := .foreign tag })
  raiseEvent .unknownReceiver a.val none (tag.toNat % 65536)
    (t.withFlt { t.flt with unknownDocks := satAdd t.flt.unknownDocks 1 })

/-- An undock of the record that holds a bay, when its tag is not the docking one (R94). -/
def undockFormer (a : Fin 288) (tag : RxTag) (s : State) : State :=
  match (s.bay a).presence with
  | .known h =>
    match s.receiver h with
    | some r => if r.tag = tag then s else undockBay a s
    | none => s
  | .empty => s
  | .foreign _ => s

/-- FLT takes a dock and answers with the bay's new presence, by the first case of R94 that holds. -/
def fleetDock (a : Fin 288) (tag : RxTag) (s : State) : State :=
  let t := undockFormer a tag s
  match findTag tag t with
  | some h =>
    match t.receiver h with
    | none => t
    | some r =>
      match r.bay with
      | some old =>
        if old = a then t.putBay a { t.bay a with presence := .known h }
        else moveReceiver old a h t
      | none => dockKnown a h r t
  | none =>
    match t.mge.settings.autoEnrol, freeHandle t with
    | true, some h => enrolInto a h tag t
    | true, none => dockUnknown a tag t
    | false, _ => dockUnknown a tag t

/-- A dock into a bay (R123). -/
def dockBay (a : Fin 288) (tag : RxTag) (s : State) : State :=
  let t := fleetDock a tag s
  let u := t.putBay a { t.bay a with
    level := none, voltage := none, ready := false, full := false, fault := false, rackFault := false,
    settle := .dock, settleEnds := some (t.clock.now + Config.dockSettleMs), docked := true }
  judge a (raiseEvent .dockedRise a.val none (dockedDetail (u.bay a).presence) u)

/-- A notice or reading of a bay is compared with its presence: none shown is empty (R122). -/
def comparePresence (a : Fin 288) (shown : Option RxTag) (s : State) : State :=
  match (s.bay a).presence, shown with
  | .empty, none => s
  | .empty, some tag => dockBay a tag s
  | .known h, some tag =>
    match s.receiver h with
    | some r => if r.tag = tag then s else dockBay a tag s
    | none => dockBay a tag s
  | .foreign old, some tag => if old = tag then s else dockBay a tag (undockBay a s)
  | .known _, none => undockBay a s
  | .foreign _, none => undockBay a s

/-! ### Readings -/

/-- FLT takes the level and the FAULT signal of a KNOWN bay's reading (R100, R101). -/
def fleetReading (a : Fin 288) (s : State) : State :=
  let b := s.bay a
  match b.presence, b.level with
  | .known h, some p =>
    match s.receiver h with
    | none => s
    | some r => s.putReceiver h (some { r with
        level := some p
        fault := b.fault
        short := r.short && !(decide (r.phase = .reserved) && decide (r.required.getD 0 ≤ p)) })
  | .known _, none => s
  | .empty, _ => s
  | .foreign _, _ => s

/-! ### Reservation -/

/-- A record is in the reservation pool (R102). -/
def inPool (s : State) (h : Fin 384) : Bool :=
  match s.receiver h with
  | none => false
  | some r =>
    decide (r.phase = .docked) && r.level.isSome && !r.fault &&
    (match r.bay with
      | some a => isOnline s (rackOf a)
      | none => false)

/-- Level of a handle for ranking; bay address of a handle for ranking (R103). -/
def poolLevel (s : State) (h : Fin 384) : Nat := ((s.receiver h).bind Receiver.level).getD 0

/-- Bay address of a handle for ranking (R103). -/
def poolBay (s : State) (h : Fin 384) : Nat := (((s.receiver h).bind Receiver.bay).map Fin.val).getD 0

/-- Whether handle `x` is taken before handle `y`: highest level first, then lowest bay address (R103). -/
def takenBefore (s : State) (x y : Fin 384) : Bool :=
  decide (poolLevel s y < poolLevel s x) ||
  (decide (poolLevel s x = poolLevel s y) && decide (poolBay s x < poolBay s y))

/-- A handle put at its place in the order of R103. -/
def insertRanked (s : State) (h : Fin 384) : List (Fin 384) → List (Fin 384)
  | [] => [h]
  | y :: rest => if takenBefore s h y then h :: y :: rest else y :: insertRanked s h rest

/-- The pool in the order of R103. -/
def rankedPool (s : State) : List (Fin 384) :=
  ((indices 384).filter (inPool s)).foldl (fun acc h => insertRanked s h acc) []

/-- A reservation request to the Fleet Table (R70). -/
structure Reservation where
  slot : Fin 16
  run : BitVec 16
  entry : Fin 4
  channel : Fin 24
  required : Nat
  count : Nat
  deriving DecidableEq, Repr

/-- The three numbers of the Fleet Table's answer (R103). -/
structure ReserveAnswer where
  reserved : Nat
  short : Nat
  unfilled : Nat
  deriving DecidableEq, Repr

/-- The handles that the ready pass takes (R103). -/
def readyPass (s : State) (q : Reservation) : List (Fin 384) :=
  ((rankedPool s).filter fun h => decide (q.required ≤ poolLevel s h)).take q.count

/-- The handles that the short pass takes (R103). -/
def shortPass (s : State) (q : Reservation) : List (Fin 384) :=
  ((rankedPool s).filter fun h => decide (poolLevel s h < q.required)).take (q.count - (readyPass s q).length)

/-- A chosen record becomes RESERVED, and its bay's desired assignment becomes (channel, lamp on) (R104). -/
def reserveOne (q : Reservation) (short : Bool) (h : Fin 384) (s : State) : State :=
  match s.receiver h with
  | none => s
  | some r =>
    let t := s.putReceiver h (some { r with
      phase := .reserved, tour := some ⟨q.slot, q.run, q.entry, q.channel⟩, required := some q.required,
      short := short })
    match r.bay with
    | some a => setAssign a (some ⟨q.channel, true⟩) t
    | none => t

/-- FLT answers a reservation request (R103, R104), and TCL adds the three numbers to its counts (R70). -/
def reserve (q : Reservation) (s : State) : ReserveAnswer × State :=
  let ready := readyPass s q
  let shorts := shortPass s q
  let answer : ReserveAnswer :=
    { reserved := ready.length + shorts.length, short := shorts.length
      unfilled := q.count - (ready.length + shorts.length) }
  let t := forEach shorts (reserveOne q true) (forEach ready (reserveOne q false) s)
  let l := (t.tour q.slot).live
  (answer, t.putLive q.slot { l with
    reserved := l.reserved + answer.reserved
    short := l.short + answer.short
    unfilled := l.unfilled + answer.unfilled })

/-- Whether a record stands in a state and belongs to a run. -/
def ofRun (r : Receiver) (phase : RxState) (slot : Fin 16) (run : BitVec 16) : Bool :=
  decide (r.phase = phase) &&
  match r.tour with
  | some ref => decide (ref.slot = slot) && decide (ref.run = run)
  | none => false

/-- A release of a RESERVED record of the run (R105). -/
def releaseOne (slot : Fin 16) (run : BitVec 16) (h : Fin 384) (s : State) : State :=
  match s.receiver h with
  | none => s
  | some r =>
    if ofRun r .reserved slot run then
      let t := s.putReceiver h (some { r with phase := .docked, tour := none, short := false, required := none })
      let u := match r.bay with
        | some a => setAssign a none t
        | none => t
      noteReleased slot u
    else s

/-- FLT releases every RESERVED record of the run, in ascending handle order (R105). -/
def releaseRun (slot : Fin 16) (run : BitVec 16) (s : State) : State :=
  forEach (indices 384) (releaseOne slot run) s

/-- The due deadline of a close taken now (R106). -/
def dueDeadline (s : State) : Nat := min (s.mge.hubTime + s.mge.settings.grace * 60) Config.max32

/-- An ISSUED record of the run becomes DUE (R106). -/
def makeDueOne (slot : Fin 16) (run : BitVec 16) (h : Fin 384) (s : State) : State :=
  match s.receiver h with
  | none => s
  | some r =>
    if ofRun r .issued slot run then
      s.putReceiver h (some { r with phase := .due, deadline := some (dueDeadline s) })
    else s

/-- FLT makes every ISSUED record of the run DUE, in ascending handle order (R106). -/
def makeDue (slot : Fin 16) (run : BitVec 16) (s : State) : State :=
  forEach (indices 384) (makeDueOne slot run) s

/-- A DUE record whose deadline the hub time has reached becomes OVERDUE (R107). -/
def overdueOne (h : Fin 384) (s : State) : State :=
  match s.receiver h with
  | none => s
  | some r =>
    match r.phase, r.deadline with
    | .due, some d =>
      if d ≤ s.mge.hubTime then
        let ref := (r.tour.map fun x => detailPair x.slot.val x.entry.val).getD 0
        raiseEvent .overdue h.val none ref (s.putReceiver h (some { r with phase := .overdue }))
      else s
    | _, _ => s

/-- FLT judges its due deadlines, in ascending handle order (R107). -/
def judgeDeadlines (s : State) : State := forEach (indices 384) overdueOne s

end Sys2Proof.Machine
end

