-- ==== Sys2Proof/Machine/Tours.lean ====
section
/-! DEFINITION. The Tour Controller: starting a tour (R68 to R71), marks (R72 to R75), silence stages and fallback (R76 to
R80), closing (R82, R83) and the close actions (R85). -/

namespace Sys2Proof.Machine

open Sys2Proof

/-! ### Reads -/

/-- A slot is LIVE or CLOSING. -/
def isRunning (t : Tour) : Bool := decide (t.live.phase = .live) || decide (t.live.phase = .closing)

/-- The present entries of a plan with their numbers, in entry order. -/
def planEntries (p : Plan) : List (Fin 4 × Entry) :=
  (indices 4).filterMap fun e => (p.entries.get e).map fun x => (e, x)

/-- The last stop of a route: its length less 1. -/
def lastStop (p : Plan) : Nat := p.route.length - 1

/-- The voice flag of a tour's guide as handed over at the last mix point (R14). -/
def guideVoice (s : State) (slot : Fin 16) : Bool :=
  match (s.tour slot).plan with
  | some p => voiceOf s p.guide
  | none => false

/-- Whether a tour in LIVE or CLOSING names a source as its guide or as an interpreter (R2). -/
def namedByTour (s : State) (i : Fin 48) : Bool :=
  (indices 16).any fun k =>
    let t := s.tour k
    isRunning t && match t.plan with
      | some p => decide (p.guide = i) || (planEntries p).any fun x => decide (x.2.interpreter = some i)
      | none => false

/-! ### Fallback -/

/-- The fallback slot of a program is written or cleared (R28). -/
def setFallback (p : Fin 32) (x : Option (Fin 48)) (s : State) : State :=
  s.putProgram p { s.program p with fallback := x }

/-- The set of entries as a byte: bit e set when entry e is in the set (08, field encoding). -/
def entrySet (es : List (Fin 4)) : Nat := (es.map fun e => 2 ^ e.val).sum

/-- The fallback slots are written from the stop at the tour's stop index, and the fallback becomes ON or NONE
(R78, R79). Either event has the stop index and the set of entries as its detail, as the raising rule gives it (R78, Table
8-9); the set is empty for FALLBACK_NONE, for which Tables 4-4 and 9-2 name the stop index alone (DEDUCED, log 25). -/
def writeFallback (slot : Fin 16) (s : State) : State :=
  match (s.tour slot).plan with
  | none => s
  | some p =>
    match p.route[(s.tour slot).live.stop]? with
    | none => s
    | some stop =>
      let t := forEach (planEntries p) (fun x => setFallback x.2.program (stop.fallback.get x.1)) s
      let on := ((planEntries p).map Prod.fst).filter fun e => (stop.fallback.get e).isSome
      let l := (t.tour slot).live
      raiseTour (if on = [] then .fallbackNone else .fallbackOn) slot (detailPair l.stop (entrySet on))
        (t.putLive slot { l with fallback := if on = [] then .none else .on })

/-- The fallback slot of every entry's program is cleared (R76, R85). -/
def clearFallbacks (p : Plan) (s : State) : State :=
  forEach (planEntries p) (fun x => setFallback x.2.program none) s

/-! ### Silence stages -/

/-- A mix point with the guide's voice flag set (R76). -/
def resetSilence (slot : Fin 16) (s : State) : State :=
  let t := s.tour slot
  let u := s.putLive slot { t.live with
    timer := (timingOf t).q1 * Config.periodsPerSecond, stage := 0, fallback := .off }
  if t.live.fallback = .on then
    raiseTour .fallbackOff slot 0 (match t.plan with
      | some p => clearFallbacks p u
      | none => u)
  else u

/-- A mix point with the guide's voice flag clear (R77). -/
def countSilence (slot : Fin 16) (s : State) : State :=
  let t := s.tour slot
  let n := t.live.timer - 1
  if t.live.stage = 0 then
    if n = 0 then
      raiseTour .guideQuiet slot 0 (s.putLive slot { t.live with
        stage := 1, timer := (timingOf t).q2 * Config.periodsPerSecond })
    else s.putLive slot { t.live with timer := n }
  else if t.live.stage = 1 then
    if n = 0 then writeFallback slot (s.putLive slot { t.live with stage := 2, timer := 0 })
    else s.putLive slot { t.live with timer := n }
  else s

/-- The silence stages of a tour at a mix point (R76, R77). -/
def tickSilence (slot : Fin 16) (s : State) : State :=
  if guideVoice s slot then resetSilence slot s else countSilence slot s

/-- Whether the silence timer of a tour in this stage reaches 0 at a quiet mix point (R77). -/
def silenceDue (s : State) (slot : Fin 16) (stage : Nat) : Bool :=
  isRunning (s.tour slot) && !guideVoice s slot && decide ((s.tour slot).live.stage = stage) &&
  decide ((s.tour slot).live.timer ≤ 1)

/-! ### Close actions -/

/-- The owner field and the fallback slot of a program are cleared (R85 step 4, R27). -/
def disown (p : Fin 32) (s : State) : State :=
  s.putProgram p { s.program p with owner := none, fallback := none }

/-- The live record as the close leaves it: fields absent or zero but run, stop index and the six counts
(R85 step 6). DEDUCED: the current zone is absent, where R85 gives "absent or zero" and section 3.6 does not call it
optional; 0 would name a zone (log 28). Window remaining is absent in the same way (log 24). -/
def closedLive (l : TourLive) : TourLive :=
  { l with
    phase := .planned, channels := .fill 4 none, zone := none, prevZone := none, window := none,
    target := none, stage := 0, timer := 0, fallback := .off, hold := none, wait := none }

/-- The close actions, steps 1 to 7 of R85, with the zones that step 8 serves. A silent close raises no event (R86). -/
def closeActions (silent : Bool) (slot : Fin 16) (s : State) : State × ZoneSet :=
  let t := releaseRun slot (s.tour slot).live.run s
  let issued := (t.tour slot).live.issued
  let returned := (t.tour slot).live.returned
  let u := makeDue slot (s.tour slot).live.run t
  let v := match (s.tour slot).plan with
    | some p => forEach (planEntries p) (fun x => disown x.2.program) u
    | none => u
  let w := unbindTour slot v
  let x := w.1.putLive slot (closedLive (w.1.tour slot).live)
  (if silent then x else raiseTour .tourClosed slot (detailPair issued returned) x, w.2)

/-- One close outside SET HALL MODE and RESTART: the close actions with their service (R85 step 8), then the deadlines
already reached (R107). -/
def closeTour (slot : Fin 16) (s : State) : State :=
  let r := closeActions false slot s
  judgeDeadlines (serveZones r.2 r.1)

/-- One close of SET HALL MODE CLOSED or RESTART, the service held (R59, R86). -/
def closeHeld (silent : Bool) (slot : Fin 16) (r : State × ZoneSet) : State × ZoneSet :=
  if isRunning (r.1.tour slot) then
    let c := closeActions silent slot r.1
    (c.1, r.2 ||| c.2)
  else r

/-- Every tour in LIVE or CLOSING is closed, in ascending slot order, and the zones released are then served together
(R59, R86). -/
def closeAll (silent : Bool) (s : State) : State :=
  let r := (indices 16).foldl (fun acc k => closeHeld silent k acc) (s, 0#12)
  judgeDeadlines (serveZones r.2 r.1)

/-- The close hold of a CLOSING tour at a mix point (R82). -/
def nextHold (voice : Bool) (hold : Option Nat) (full : Nat) : Option Nat :=
  if voice then none
  else match hold with
    | some n => some (n - 1)
    | none => some (full - 1)

/-- The close timers of a CLOSING tour at a mix point, with the close they bring (R82, R83). -/
def tickClose (slot : Fin 16) (s : State) : State :=
  let t := s.tour slot
  if t.live.phase = .closing then
    let hold := nextHold (guideVoice s slot) t.live.hold ((timingOf t).closeHold * Config.periodsPerSecond)
    let wait := t.live.wait.getD 0 - 1
    let u := s.putLive slot { t.live with hold := hold, wait := some wait }
    if hold = some 0 ∨ wait = 0 then closeTour slot u else u
  else s

/-- Whether hold remaining of a CLOSING tour is 0 after the update of its next mix point (R82). -/
def holdDue (s : State) (slot : Fin 16) : Bool :=
  let t := s.tour slot
  decide (t.live.phase = .closing) &&
  decide (nextHold (guideVoice s slot) t.live.hold ((timingOf t).closeHold * Config.periodsPerSecond) = some 0)

/-- Whether wait remaining of a CLOSING tour reaches 0 at its next mix point (R83). -/
def waitDue (s : State) (slot : Fin 16) : Bool :=
  let t := s.tour slot
  decide (t.live.phase = .closing) && decide (t.live.wait.getD 0 ≤ 1)

/-- The Tour Controller's work on one slot at a mix point (R76, R77, R78, R82, R83). -/
def tickTour (slot : Fin 16) (s : State) : State :=
  if isRunning (s.tour slot) then tickClose slot (tickSilence slot s) else s

/-! ### Marks -/

/-- The zone of a tour's stop, when the plan has that stop. -/
def stopZone (t : Tour) : Option (Fin 12) :=
  t.plan.bind fun p => (p.route[t.live.stop]?).map Stop.zone

/-- A SETTLED tour whose stop has changed asks for the new stop's zone when it differs from the current one (R73). -/
def followSettled (slot : Fin 16) (s : State) : State :=
  match stopZone (s.tour slot), (s.tour slot).live.zone with
  | some z, some cur => if z = cur then s else requestHandover slot z s
  | _, _ => s

/-- A WAITING tour whose stop has changed (R75). -/
def followWaiting (slot : Fin 16) (s : State) : State :=
  match stopZone (s.tour slot), (s.tour slot).live.target with
  | some z, some t =>
    if z = t then requestHandover slot z s
    else if (s.tour slot).live.zone = some z then takeOut slot s
    else requestHandover slot z (takeOut slot s)
  | _, _ => s

/-- The zone of the new stop is acted on, by the tour's handover state (R73, R74, R75). -/
def followStop (slot : Fin 16) (s : State) : State :=
  match handoverOf (s.tour slot).live with
  | .settled => followSettled slot s
  | .window => followSettled slot (cutWindow slot s)
  | .waiting => followWaiting slot s

/-- The code of a handover state (Table 8-9). -/
def Handover.code : Handover → Nat
  | .settled => 0
  | .window => 1
  | .waiting => 2

/-- TCL takes an advance of `d` for a LIVE slot (R72). -/
def takeAdvance (d : Nat) (slot : Fin 16) (s : State) : State :=
  let t := s.tour slot
  match t.plan with
  | none => s
  | some p =>
    if lastStop p ≤ t.live.stop then raiseTour .endOfRoute slot d s
    else
      let found := handoverOf t.live
      let stop := min (t.live.stop + d) (lastStop p)
      let u := raiseTour .mark slot (detailPair d stop) (s.putLive slot { t.live with stop := stop })
      let v := if 1 < d ∨ found ≠ .settled
        then raiseTour .markOverrun slot (detailPair d found.code) u else u
      let w := followStop slot v
      if (w.tour slot).live.stage = 2 then writeFallback slot w else w

/-- A slot takes the advances of a source: LIVE, with that source as its guide (R18, R72). -/
def takesAdvance (s : State) (i : Fin 48) (slot : Fin 16) : Bool :=
  decide ((s.tour slot).live.phase = .live) &&
  match (s.tour slot).plan with
  | some p => decide (p.guide = i)
  | none => false

/-- SIU passes an advance to TCL; one that no slot takes is counted as ignored (R18). -/
def passAdvance (i : Fin 48) (d : Nat) (s : State) : State :=
  match (indices 16).filter (takesAdvance s i) with
  | [] =>
    match s.source i with
    | none => s
    | some r => s.putSource i (some { r with live := { r.live with
        counters := { r.live.counters with ignoredMark := satAdd r.live.counters.ignoredMark d } } })
  | slots => forEach slots (takeAdvance d) s

/-! ### Starting a tour -/

/-- The effective record of a program holds a source as a present VOICE member (R68). -/
def holdsVoice (s : State) (p : Fin 32) (i : Fin 48) : Bool :=
  match effectiveRecord (s.program p) with
  | none => false
  | some r => r.members.items.any fun m => match m with
    | some x => decide (x.source = i) && decide (x.cls = .voice)
    | none => false

/-- A source is loaded with a kind (R68). -/
def hasKind (s : State) (i : Fin 48) (kind : SourceKind) : Bool :=
  match s.source i with
  | some r => decide (r.config.kind = kind)
  | none => false

/-- The program of an entry is loaded, unowned and unbound (R68). -/
def programFree (s : State) (p : Fin 32) : Bool :=
  let q := s.program p
  programLoaded q && q.owner.isNone && q.binding.isNone

/-- The source that speaks on an entry: the guide on entry 0, the interpreter on the others (R68). -/
def entryVoice (p : Plan) (e : Fin 4) (x : Entry) : Option (Fin 48) :=
  if e = 0 then some p.guide else x.interpreter

/-- Check 4 of R68 for one entry. -/
def entryReady (s : State) (p : Plan) (e : Fin 4) (x : Entry) : Bool :=
  programFree s x.program &&
  match entryVoice p e x with
  | none => false
  | some i => holdsVoice s x.program i && hasKind s i (if e = 0 then .guide else .interpreter)

/-- Check 4 of R68 (BAD_PLAN when it fails). -/
def planReady (s : State) (slot : Fin 16) (p : Plan) : Bool :=
  (planEntries p).all (fun x => entryReady s p x.1 x.2) &&
  hasKind s p.guide .guide &&
  p.route.all (fun st => st.fallback.items.all fun f => match f with
    | some i => hasKind s i .track
    | none => true) &&
  (indices 16).all fun k => decide (k = slot) || !isRunning (s.tour k) ||
    match (s.tour k).plan with
    | some q => decide (q.guide ≠ p.guide)
    | none => true

/-- One entry is bound to one channel at a tour's start: channel, zone set, program binding, live record and owner
(R49, R69 steps 1 and 2). -/
def bindEntry (slot : Fin 16) (zs : ZoneSet) (x : (Fin 4 × Entry) × Fin 24) (s : State) : State :=
  let p := x.1.2.program
  let t := bindChannel x.2 .tour p zs s
  let u := t.putProgram p { t.program p with owner := some (slot, x.1.1) }
  let l := (u.tour slot).live
  u.putLive slot { l with channels := l.channels.set x.1.1 (some x.2) }

/-- The live record set for the run (R69 steps 3 and 4). An entry the plan does not have has asked for nothing in the run
(log 15). -/
def startedLive (p : Plan) (timing : Timing) (zone : Fin 12) (l : TourLive) : TourLive :=
  { l with
    phase := .live, run := l.run + 1, stop := 0, zone := some zone, prevZone := none, window := none, target := none
    stage := 0, timer := timing.q1 * Config.periodsPerSecond, fallback := .off, hold := none, wait := none
    asked := Tab.ofFn fun e => ((p.entries.get e).map Entry.party).getD 0
    reserved := 0, issued := 0, returned := 0, short := 0, unfilled := 0 }

/-- A reservation request of a slot for one entry (R70); none when the entry has no channel. -/
def reserveFor (slot : Fin 16) (e : Fin 4) (n : Nat) (s : State) : ReserveAnswer × State :=
  let t := s.tour slot
  match t.live.channels.get e with
  | none => (⟨0, 0, n⟩, s)
  | some ch => reserve { slot := slot, run := t.live.run, entry := e, channel := ch,
                         required := (t.plan.map Plan.requiredLevel).getD 60, count := n } s

/-- The reservations of a tour's start, one for each present entry in entry order, with the answers (R69 step 5). -/
def reserveParties (slot : Fin 16) : List (Fin 4 × Entry) → State → List (Fin 4 × ReserveAnswer) × State
  | [], s => ([], s)
  | x :: rest, s =>
    let a := reserveFor slot x.1 x.2.party s
    let r := reserveParties slot rest a.2
    ((x.1, a.1) :: r.1, r.2)

/-- TOUR START once every check has passed: one action (R69). -/
def startTour (slot : Fin 16) (p : Plan) (zone : Fin 12) (s : State) : List (Fin 4 × ReserveAnswer) × State :=
  let t := forEach ((planEntries p).zip (freeChannels s)) (bindEntry slot (zoneBit zone)) s
  let u := t.putLive slot (startedLive p (timingOf (s.tour slot)) zone (t.tour slot).live)
  let r := reserveParties slot (planEntries p) u
  let l := (r.2.tour slot).live
  (r.1, raiseTour .tourStarted slot (detailPair l.reserved l.unfilled) r.2)

end Sys2Proof.Machine
end

