-- ==== Sys2Proof/Machine/Racks.lean ====
section
/-! DEFINITION. The Rack Poller: polls (R116 to R118), rack frames (R112, R163), readings (R117, R120, R126, R129, R130,
R133) and changes of a rack's state (R114, R115). -/

namespace Sys2Proof.Machine

open Sys2Proof

/-! ### Polls -/

/-- The bay after the scan pointer: the next one below scan high, else scan low (R116). -/
def nextPointer (c : RackConfig) (p : Fin 24) : Fin 24 :=
  if p < c.scanHigh then ⟨(p.val + 1) % 24, by omega⟩ else c.scanLow

/-- RPL builds a POLL for the bay at the scan pointer and hands it over (R116). -/
def sendPoll (rack : Fin 12) (s : State) : State :=
  let r := s.rack rack
  let b := r.live.pointer
  let t := s.putRackLive rack { r.live with
    pointer := nextPointer r.config b, waiting := some b
    counters := { r.live.counters with polls := satAdd r.live.counters.polls 1 } }
  handOver { dest := r.config.station, origin := .poll rack b true, payload := enc8 b.val } t

/-- The spacing timer starts with the rack's poll spacing (R116). -/
def startSpacing (rack : Fin 12) (s : State) : State :=
  let r := s.rack rack
  s.putRackLive rack { r.live with spacingEnds := some (s.clock.now + r.config.spacing) }

/-! ### Changes of a rack's state -/

/-- An OFFLINE rack becomes ONLINE: RACK_ONLINE with the miss run before the answer, every bay pending, the scheduler
resynchronised (R115, R117, R155). -/
def rackOnline (rack : Fin 12) (missBefore : Nat) (s : State) : State :=
  let t := s.putRackLive rack { (s.rack rack).live with phase := .online }
  resync rack (markRackPending rack (raiseEvent .rackOnline rack.val none missBefore t))

/-- An ONLINE rack becomes OFFLINE: its turns end for accounting and RACK_OFFLINE is raised (R115, R118, R149). -/
def rackOffline (rack : Fin 12) (s : State) : State :=
  let t := s.putRackLive rack { (s.rack rack).live with phase := .offline }
  leaveOnline rack (raiseEvent .rackOffline rack.val none (t.rack rack).live.missRun t)

/-- A rack is disabled: its poll and timers are abandoned, a POLL not yet placed is withdrawn, its turns end
(R114, R115, R149). -/
def disableRack (rack : Fin 12) (s : State) : State :=
  let wasOnline := isOnline s rack
  let t := withdrawPoll rack (s.putRackLive rack { (s.rack rack).live with
    phase := .disabled, outstanding := none, waiting := none, spacingEnds := none })
  if wasOnline then leaveOnline rack t else t

/-- A rack is enabled: OFFLINE, miss run 0, scan pointer at scan low, timed-out bay absent, first poll sent at once
(R114). -/
def enableRack (rack : Fin 12) (s : State) : State :=
  let r := s.rack rack
  sendPoll rack (s.putRackLive rack { r.live with
    phase := .offline, missRun := 0, pointer := r.config.scanLow, timedOut := none })

/-! ### Readings -/

/-- A BAY STATUS frame's fields (Table 8-6). -/
structure Reading where
  bay : Fin 24
  shown : Option RxTag
  voltage : Nat
  fault : Bool
  mode : ChargeMode
  assign : Option Assignment
  temperature : Int
  deriving DecidableEq, Repr

/-- A charge mode by its code (Table 8-6). -/
def modeOfCode (n : Nat) : Option ChargeMode :=
  if n = 0 then some .off else if n = 1 then some .trickle else if n = 2 then some .fast else none

/-- A reported assignment by its two bytes; the outer none is malformed (R163). -/
def assignOfCodes (channel lamp : Nat) : Option (Option Assignment) :=
  if channel = 0xFF then some none
  else match toId 24 channel with
    | none => none
    | some ch => if lamp = 0 then some (some ⟨ch, false⟩) else if lamp = 1 then some (some ⟨ch, true⟩) else none

/-- The presence a BAY STATUS reports: the inner none is an empty bay, the outer none is malformed (R112, R163). -/
def shownByStatus (presence tag : Nat) : Option (Option RxTag) :=
  if presence = 0 then some none
  else if presence = 1 ∧ tag ≠ 0 then some (some (BitVec.ofNat 24 tag))
  else none

/-- The rack fault flag of a reading: 0 clear, 1 set (Table 8-6); any other code is a free value (log 4). -/
def faultOfCode (choice : Nat) (code : Byte) : Bool :=
  if code = 0#8 then false
  else if code = 1#8 then true
  else Config.faultOfOddCode choice code

/-- The fields of a BAY STATUS payload; none when it is malformed (R112, R163). -/
def parseReading (choice : Nat) (payload : List Byte) : Option Reading :=
  match toId 24 (byteAt payload 0), shownByStatus (byteAt payload 1) (tripleAt payload 2),
      modeOfCode (byteAt payload 8), assignOfCodes (byteAt payload 9) (byteAt payload 10) with
  | some b, some shown, some mode, some assign =>
    some { bay := b, shown := shown, voltage := wordAt payload 5, fault := faultOfCode choice (payload.getD 7 0#8),
           mode := mode, assign := assign, temperature := signedAt payload 11 }
  | _, _, _, _ => none

/-- The rack temperature of a reading, clamped to -40 to 125 °C (R120). -/
def clampTemperature (t : Int) : Int := max (-40) (min 125 t)

/-- A poll's answer, or a late answer (R117 steps 1 to 3, R120). -/
def settlePoll (rack : Fin 12) (b : Fin 24) (s : State) : State :=
  let l := (s.rack rack).live
  if l.outstanding.map Outstanding.bay = some b then
    let t := s.putRackLive rack { l with
      outstanding := none, missRun := 0, timedOut := none
      counters := { l.counters with answers := satAdd l.counters.answers 1 } }
    startSpacing rack (if l.phase = .offline then rackOnline rack l.missRun t else t)
  else if l.timedOut = some b then
    s.putRackLive rack { l with
      timedOut := none, counters := { l.counters with lateAnswers := satAdd l.counters.lateAnswers 1 } }
  else s

/-- Step 1 of a reading: the temperature (R120). -/
def readTemperature (rack : Fin 12) (temp : Int) (s : State) : State :=
  let t := clampTemperature temp
  takeTemperature rack t (s.putRackLive rack { (s.rack rack).live with temperature := some t })

/-- Step 3 of a reading: the reported state is stored and compared with the desired state (R133). -/
def readReported (a : Fin 288) (mode : ChargeMode) (assign : Option Assignment) (s : State) : State :=
  let b := s.bay a
  s.putBay a { b with
    reportedMode := some mode, reportedAssign := some assign
    pending := b.pending || decide (mode ≠ b.mode) || decide (assign ≠ b.assign) }

/-- The bay record once the electrical part of a reading is used: voltage, flag, level (R129) and signals (R130). -/
def usedBay (curve : Tab CurvePoint 8) (set : Settings) (v : Nat) (fault : Bool) (b : Bay) : Bay :=
  let p := levelOf curve v
  { b with
    voltage := some v, level := some p, rackFault := fault
    ready := readySignal set p, full := fullSignal set p, fault := faultSignal fault v }

/-- Raises the edges of a bay's signals, in the order FAULT, FULL, READY, with the level as detail (R130). -/
def raiseEdges (old new : Bay) (a : Fin 288) (s : State) : State :=
  let d := levelDetail new.level
  let t := raiseBay (decide (old.fault ≠ new.fault)) (if new.fault then .faultRise else .faultFall) a d s
  let u := raiseBay (decide (old.full ≠ new.full)) (if new.full then .fullRise else .fullFall) a d t
  raiseBay (decide (old.ready ≠ new.ready)) (if new.ready then .readyRise else .readyFall) a d u

/-- CHS is handed the level and FULL of a reading used: an active turn ends if FULL is set or the receiver is faulty,
and otherwise the mode of a bay without a turn is judged (R130, R147, R154). -/
def chargeReading (a : Fin 288) (s : State) : State :=
  let rack := rackOf a
  let b := bayNumber a
  let faulty := match receiverIn s a with
    | some r => r.fault
    | none => false
  if (turnOn s rack b).isSome then
    if (s.bay a).full || faulty then endTurn rack b s else s
  else judge a s

/-- Step 4 of a reading: the electrical part, unless a settle holds it (R120, R126, R129, R130). -/
def readElectrical (a : Fin 288) (v : Nat) (fault : Bool) (s : State) : State :=
  let b := s.bay a
  let used := usedBay s.rpl.curve s.mge.settings v fault b
  if b.presence = .empty then s
  else match b.settle with
    | .none => chargeReading a (fleetReading a (raiseEdges b used a (s.putBay a used)))
    | .dockEnded => judge a (fleetReading a (s.putBay a { used with settle := .none, settleEnds := none }))
    | .dock => s
    | .turn => s

/-- The four steps of a reading (R120). -/
def takeReading (rack : Fin 12) (x : Reading) (s : State) : State :=
  let a := bayAddress rack x.bay
  let t := comparePresence a x.shown (readTemperature rack x.temperature s)
  readElectrical a x.voltage x.fault (readReported a x.mode x.assign t)

/-! ### Rack frames -/

/-- The enabled rack with this station (R112). -/
def findRack (station : Station) (s : State) : Option (Fin 12) :=
  (indices 12).find? fun r => (s.rack r).config.enabled && decide ((s.rack r).config.station = station)

/-- Unrouted rack frames +1 (R112). -/
def countUnroutedRack (s : State) : State :=
  s.withRpl { s.rpl with unroutedRack := satAdd s.rpl.unroutedRack 1 }

/-- A rack's malformed counter +1 (R112). -/
def countMalformedRack (rack : Fin 12) (s : State) : State :=
  let l := (s.rack rack).live
  s.putRackLive rack { l with counters := { l.counters with malformed := satAdd l.counters.malformed 1 } }

/-- RPL takes a BAY STATUS of the right length (R112, R117, R120). -/
def takeStatus (station : Station) (payload : List Byte) (s : State) : State :=
  match findRack station s with
  | none => countUnroutedRack s
  | some rack =>
    match parseReading s.choices payload with
    | none => countMalformedRack rack s
    | some x => rackSender (takeReading rack x (settlePoll rack x.bay s.useChoice))

/-- RPL takes a DOCK NOTICE of the right length (R112, R122). -/
def takeNotice (station : Station) (payload : List Byte) (s : State) : State :=
  match findRack station s with
  | none => countUnroutedRack s
  | some rack =>
    match toId 24 (byteAt payload 0) with
    | none => countMalformedRack rack s
    | some b =>
      let tag := tripleAt payload 1
      let shown : Option RxTag := if tag = 0 then none else some (BitVec.ofNat 24 tag)
      rackSender (comparePresence (bayAddress rack b) shown s)

end Sys2Proof.Machine
end

