-- ==== Sys2Proof/Machine/Manage.lean ====
section
/-! DEFINITION. The Management Engine: taking requests (R180), service and replies (R181, R168). -/

namespace Sys2Proof.Machine

open Sys2Proof

/-- Reply statuses (Table 8-10), coded in this order. -/
inductive Status where
  | done | clamped | busy | badRequest | badArgument | notFound | wrongState | noChannel | zoneFull
  | tableFull | exists | badPlan | hallClosed
  deriving DecidableEq, Repr

/-- The code of a status (Table 8-10). -/
def statusCode : Status → Nat
  | .done => 0 | .clamped => 1 | .busy => 2 | .badRequest => 3 | .badArgument => 4 | .notFound => 5
  | .wrongState => 6 | .noChannel => 7 | .zoneFull => 8 | .tableFull => 9 | .exists => 10 | .badPlan => 11
  | .hallClosed => 12

/-- DONE, or CLAMPED when a value was brought into range (R182). -/
def appliedStatus (clamped : Bool) : Status := if clamped then .clamped else .done

/-- The code byte of a request; a missing byte is taken as 0 (R180). -/
def requestCode (req : Request) : Nat := byteAt req.payload 2

/-- The argument bytes of a request (Table 8-7). -/
def requestArgs (req : Request) : List Byte := req.payload.drop 3

/-- The argument length Table 8-8 gives for a code; none for a code it does not list, and none for LOAD TOUR PLAN
arguments too short to hold the stop count byte (R181). -/
def argumentLength (code : Nat) (args : List Byte) : Option Nat :=
  match code with
  | 0x01 => some 13 | 0x02 => some 1 | 0x08 => some 33 | 0x09 => some 4 | 0x0A => some 0 | 0x0B => some 1
  | 0x10 => some 4 | 0x11 => some 1 | 0x12 => some 1
  | 0x18 => if 24 < args.length then some (25 + 5 * byteAt args 24) else none
  | 0x19 => some 11 | 0x1A => some 1 | 0x1B => some 1 | 0x1C => some 1 | 0x1D => some 3 | 0x1E => some 1
  | 0x1F => some 1 | 0x20 => some 3 | 0x21 => some 2 | 0x22 => some 4 | 0x28 => some 15 | 0x29 => some 1
  | 0x2A => some 2 | 0x2B => some 24 | 0x30 => some 47 | 0x31 => some 0 | 0x38 => some 0 | 0x39 => some 0
  | 0x3A => some 4 | 0x3B => some 4 | 0x40 => some 1 | 0x41 => some 0 | 0x42 => some 4 | 0x43 => some 0
  | 0x44 => some 0 | 0x45 => some 5
  | _ => none

/-- A request passes the checks of Table 8-8 (R181). -/
def wellFormedRequest (req : Request) : Bool :=
  decide (3 ≤ req.payload.length) &&
  decide (argumentLength (requestCode req) (requestArgs req) = some (requestArgs req).length)

/-- The MGMT REPLY to a request (Table 8-7, R169, R181). -/
def replyTo (req : Request) (status : Status) (data : List Byte) : Reply :=
  { dest := req.source
    payload := enc16 (wordAt req.payload 0) ++ enc8 (requestCode req) ++ enc8 (statusCode status) ++ data }

/-- The egress frame of a reply (Table 8-4, R169). -/
def replyFrame (r : Reply) : EgressFrame := { dest := r.dest, origin := .reply, payload := r.payload }

/-- MGE takes the oldest waiting request into service when none is in service (R181). DEDUCED (log 27): it was counted as
received when it was handed over (R180) and is not counted again here, also after a RESTART (R188). -/
def takeNext (s : State) : State :=
  match s.mge.service, s.mge.requests with
  | .idle, r :: rest => s.withMge { s.mge with service := .taken r, requests := rest }
  | .idle, [] => s
  | .taken _, _ => s
  | .held _, _ => s

/-- A served reply is handed to the arbiter: accepted while class 3 holds fewer than 8 frames, and the request leaves
service; otherwise it is held (R168, R181). DESIGN CHOICE: a held reply is offered again by REPLY_ACCEPTED alone, behind the
frames that class 3 has taken by then (log 29). -/
def offerReply (r : Reply) (s : State) : State :=
  if class3Held s.hli < Config.class3Capacity then
    let t := handOver (replyFrame r) s
    takeNext (t.withMge { t.mge with service := .idle })
  else s.withMge { s.mge with service := .held r }

/-- What an owner block answers: status, reply data and the state it leaves (R181). -/
structure Answer where
  status : Status
  data : List Byte
  state : State

/-- A refusal: a status, no data, and no change (R182). -/
def refuse (status : Status) (s : State) : Answer := { status := status, data := [], state := s }

/-- An answer with no reply data. -/
def answer (status : Status) (s : State) : Answer := { status := status, data := [], state := s }

/-- The owner block serves the request in service when it is a well-formed request of this code; the reply is offered to
the arbiter (R181). No other request is served by this command (log 7). -/
def serve (code : Nat) (owner : List Byte → State → Answer) (s : State) : State :=
  match s.mge.service with
  | .taken req =>
    if requestCode req = code ∧ wellFormedRequest req then
      let a := owner (requestArgs req) s
      offerReply (replyTo req a.status a.data) a.state
    else s
  | .idle => s
  | .held _ => s

/-- As `serve`, for a request whose action can make bays pending: the rack sender acts before the reply is offered
(R132, log 10). -/
def serveRacks (code : Nat) (owner : List Byte → State → Answer) (s : State) : State :=
  serve code (fun args t =>
    let a := owner args t
    { a with state := rackSender a.state }) s

/-- MGE takes a MGMT REQUEST: the desk address, then the queue or a BUSY reply (R176, R180). -/
def takeRequest (source : Station) (payload : List Byte) (s : State) : State :=
  let req : Request := ⟨source, payload⟩
  let t := (s.withEvq { s.evq with desk := some source }).withMge
    { s.mge with received := satAdd s.mge.received 1 }
  if t.mge.requests.length < Config.requestCapacity then
    takeNext (t.withMge { t.mge with requests := t.mge.requests ++ [req] })
  else
    handOverSpare (replyFrame (replyTo req .busy []))
      (t.withMge { t.mge with busyReplies := satAdd t.mge.busyReplies 1 })

end Sys2Proof.Machine
end

