-- ==== Sys2Proof/Machine/Operands.lean ====
section
/-! DEFINITION. The operand forms: argument fields of requests (Table 8-8, 08 field encoding) and the layout of reply
data. -/

namespace Sys2Proof.Machine

open Sys2Proof

/-! ### Reply data -/

/-- One piece of reply data: bytes the rules give, or bytes of an absent field, which are open (log 3). -/
inductive Field where
  | known (bytes : List Byte)
  | absent (count : Nat)

/-- The bytes of reply data from position `pos` on, with the free value of this number for absent fields (log 3). -/
def layoutFrom (choice : Nat) : Nat → List Field → List Byte
  | _, [] => []
  | pos, .known bs :: rest => bs ++ layoutFrom choice (pos + bs.length) rest
  | pos, .absent n :: rest =>
    (List.range n).map (fun k => Config.absentByte choice (pos + k)) ++ layoutFrom choice (pos + n) rest

/-- The answer of a read: DONE with the fields, in order. -/
def readAnswer (fields : List Field) (s : State) : Answer :=
  { status := .done, data := layoutFrom s.choices 0 fields, state := s.useChoice }

/-- An optional field: a presence byte, then its bytes, sent either way (08, field encoding). -/
def optField (width : Nat) (x : Option (List Byte)) : List Field :=
  match x with
  | some bs => [.known (enc8 1 ++ bs)]
  | none => [.known (enc8 0), .absent width]

/-- An optional one-byte identifier: a presence byte, then the identifier, FFh when absent (08, field encoding). -/
def optId {n : Nat} (x : Option (Fin n)) : List Field :=
  match x with
  | some i => [.known (enc8 1 ++ enc8 i.val)]
  | none => [.known (enc8 0 ++ enc8 0xFF)]

/-- An optional number of one byte. -/
def opt8 (x : Option Nat) : List Field := optField 1 (x.map enc8)
/-- An optional number of two bytes. -/
def opt16 (x : Option Nat) : List Field := optField 2 (x.map enc16)
/-- An optional number of four bytes. -/
def opt32 (x : Option Nat) : List Field := optField 4 (x.map enc32)

/-- The code of an enumerated value given as its place in the owner chapter's list (08, field encoding). -/
def SourceKind.code : SourceKind → Nat
  | .guide => 0 | .interpreter => 1 | .track => 2
/-- The code of a source state (Table 1-2). -/
def SourceState.code : SourceState → Nat
  | .absent => 0 | .live => 1 | .stale => 2
/-- The code of a member class (Table 2-1). -/
def MemberClass.code : MemberClass → Nat
  | .voice => 0 | .bed => 1
/-- The code of a channel state (Table 3-1). -/
def ChannelState.code : ChannelState → Nat
  | .free => 0 | .standing => 1 | .tour => 2
/-- The code of a tour state (Table 4-3). -/
def TourState.code : TourState → Nat
  | .free => 0 | .planned => 1 | .live => 2 | .closing => 3
/-- The code of a tour's fallback (Table 4-3). -/
def FallbackState.code : FallbackState → Nat
  | .off => 0 | .on => 1 | .none => 2
/-- The code of a receiver state (Table 5-1). -/
def RxState.code : RxState → Nat
  | .unseen => 0 | .docked => 1 | .reserved => 2 | .issued => 3 | .stray => 4 | .due => 5 | .overdue => 6
/-- The code of a rack state (Table 6-2). -/
def RackState.code : RackState → Nat
  | .disabled => 0 | .offline => 1 | .online => 2
/-- The code of a settle (Table 6-3). -/
def Settle.code : Settle → Nat
  | .none => 0 | .dock => 1 | .dockEnded => 2 | .turn => 3
/-- The code of the hall mode (08, field encoding). -/
def HallMode.code : HallMode → Nat
  | .closed => 0 | .opened => 1

/-- A source kind by its code. -/
def kindOfCode (n : Nat) : Option SourceKind :=
  if n = 0 then some .guide else if n = 1 then some .interpreter else if n = 2 then some .track else none

/-- A member class by its code. -/
def classOfCode (n : Nat) : Option MemberClass :=
  if n = 0 then some .voice else if n = 1 then some .bed else none

/-- A flag by its code, 0 or 1; none for another code. -/
def flagOfCode (n : Nat) : Option Bool :=
  if n = 0 then some false else if n = 1 then some true else none

/-- A field given as default, or the value of its bytes (08, field encoding). -/
def orDefault (isDefault : Bool) (default given : Nat) : Nat := if isDefault then default else given

/-- A value brought into a range (R182). -/
def clampTo (low high n : Nat) : Nat := max low (min high n)

/-! ### LOAD SOURCE -/

/-- The loaded fields a LOAD SOURCE names, before clamping; none when check 1 of R2 fails. -/
def parseSource (args : List Byte) : Option (Fin 48 × SourceConfig) :=
  match toId 48 (byteAt args 1), toId 4 (byteAt args 4), kindOfCode (byteAt args 5) with
  | some id, some stream, some kind =>
    some (id,
      { station := BitVec.ofNat 16 (wordAt args 2), stream := stream, kind := kind
        onThreshold := orDefault (bitAt args 0 0) 1200 (wordAt args 6)
        offThreshold := orDefault (bitAt args 0 1) 800 (wordAt args 8)
        hang := orDefault (bitAt args 0 2) 50 (byteAt args 10)
        defaultGain := orDefault (bitAt args 0 3) 32768 (wordAt args 11) })
  | _, _, _ => none

/-- The clamps of R2. -/
def clampSource (c : SourceConfig) : SourceConfig :=
  { c with
    onThreshold := min c.onThreshold 32768
    offThreshold := min (min c.offThreshold 32768) (min c.onThreshold 32768)
    hang := min c.hang 250 }

/-! ### LOAD PROGRAM -/

/-- Member slot `k` of a LOAD PROGRAM; the outer none fails check 1 of R22. An absent member's bytes are not read. -/
def parseMember (args : List Byte) (k : Fin 5) : Option (Option Member) :=
  let at_ := 2 + 5 * k.val
  match flagOfCode (byteAt args at_) with
  | none => none
  | some false => some none
  | some true =>
    match toId 48 (byteAt args (at_ + 1)), classOfCode (byteAt args (at_ + 4)) with
    | some i, some c => some (some ⟨i, wordAt args (at_ + 2), c⟩)
    | _, _ => none

/-- Every item of a list present, or none. -/
def allPresent {α : Type} : List (Option α) → Option (List α)
  | [] => some []
  | none :: _ => none
  | some x :: rest => (allPresent rest).map fun xs => x :: xs

/-- No two present members name the same source (R22). -/
def distinctSources (ms : List (Option Member)) : Bool :=
  decide (ms.filterMap fun m => m.map Member.source).Nodup

/-- The fields a LOAD PROGRAM names, before clamping; none when check 1 of R22 fails. -/
def parseProgram (args : List Byte) : Option (Fin 32 × ProgramFields) :=
  match toId 32 (byteAt args 1), allPresent ((indices 5).map (parseMember args)) with
  | some id, some ms =>
    if distinctSources ms then
      some (id,
        { members := Tab.ofFn fun k => (ms[k.val]?).getD none
          duckDepth := orDefault (bitAt args 0 0) 8192 (wordAt args 27)
          attack := orDefault (bitAt args 0 1) 8192 (wordAt args 29)
          release := orDefault (bitAt args 0 2) 1024 (wordAt args 31) })
    else none
  | _, _ => none

/-- The clamps of R22. -/
def clampProgram (r : ProgramFields) : ProgramFields :=
  { r with
    duckDepth := min r.duckDepth 32768
    attack := clampTo 1 32768 r.attack
    release := clampTo 1 32768 r.release }

/-! ### LOAD CHANNEL -/

/-- The arguments of LOAD CHANNEL; none when check 1 of R45 fails. -/
def parseChannel (args : List Byte) : Option (Fin 24 × Option (Fin 32) × ZoneSet) :=
  let zs := wordAt args 2
  match toId 24 (byteAt args 0) with
  | none => none
  | some ch =>
    if 4096 ≤ zs then none
    else if byteAt args 1 = 0xFF then some (ch, none, BitVec.ofNat 12 zs)
    else (toId 32 (byteAt args 1)).map fun p => (ch, some p, BitVec.ofNat 12 zs)

/-! ### LOAD TOUR PLAN and LOAD TOUR TIMING -/

/-- An optional source id in one byte, FFh for none; the outer none is an id above 47 (08, R63). -/
def optSource (n : Nat) : Option (Option (Fin 48)) :=
  if n = 0xFF then some none else (toId 48 n).map some

/-- Entry `e` of a LOAD TOUR PLAN; the outer none fails check 1 of R63. The interpreter byte of entry 0 is not read. -/
def parseEntry (args : List Byte) (e : Fin 4) : Option (Option Entry) :=
  let at_ := 4 + 5 * e.val
  match flagOfCode (byteAt args at_) with
  | none => none
  | some false => some none
  | some true =>
    match toId 16 (byteAt args (at_ + 1)), toId 32 (byteAt args (at_ + 2)),
        (if e = 0 then some none else optSource (byteAt args (at_ + 4))) with
    | some lang, some p, some interp => some (some ⟨lang.val, p, byteAt args (at_ + 3), interp⟩)
    | _, _, _ => none

/-- Stop `k` of a LOAD TOUR PLAN; none fails check 1 of R63. -/
def parseStop (args : List Byte) (k : Nat) : Option Stop :=
  let at_ := 25 + 5 * k
  match toId 12 (byteAt args at_),
      allPresent ((indices 4).map fun e => optSource (byteAt args (at_ + 1 + e.val))) with
  | some z, some fs => some ⟨z, Tab.ofFn fun e => (fs[e.val]?).getD none⟩
  | _, _ => none

/-- The slot and the plan a LOAD TOUR PLAN names, before clamping; none when check 1 of R63 fails. -/
def parsePlan (args : List Byte) : Option (Fin 16 × Plan) :=
  match toId 16 (byteAt args 0), toId 48 (byteAt args 2), allPresent ((indices 4).map (parseEntry args)),
      allPresent ((List.range (byteAt args 24)).map (parseStop args)) with
  | some slot, some guide, some es, some route =>
    some (slot,
      { guide := guide, entries := Tab.ofFn fun e => (es[e.val]?).getD none, route := route
        requiredLevel := orDefault (bitAt args 1 0) 60 (byteAt args 3) })
  | _, _, _, _ => none

/-- Check 3 of R63 (BAD_PLAN when it fails). -/
def planConsistent (p : Plan) : Bool :=
  (p.entries.get 0).isSome &&
  ((planEntries p).all fun x => decide (x.1 = 0) || x.2.interpreter.isSome) &&
  decide ((planEntries p).map fun x => x.2.program).Nodup &&
  decide (1 ≤ p.route.length) && decide (p.route.length ≤ 24) &&
  p.route.all fun st => (indices 4).all fun e => (st.fallback.get e).isNone || (p.entries.get e).isSome

/-- The parties of a list of entries, each the lesser of its own value (at most 96) and what the entries before it leave
of 192 (R64). -/
def clampParties : Nat → List (Option Entry) → List (Option Entry)
  | _, [] => []
  | left, none :: rest => none :: clampParties left rest
  | left, some x :: rest =>
    let party := min (min x.party Config.entryLimit) left
    some { x with party := party } :: clampParties (left - party) rest

/-- The clamps of R64. -/
def clampPlan (p : Plan) : Plan :=
  { p with
    requiredLevel := min p.requiredLevel 100
    entries := Tab.ofFn fun e => ((clampParties Config.tourLimit p.entries.items)[e.val]?).getD none }

/-- The timing a LOAD TOUR TIMING names, before clamping (R65). -/
def parseTiming (args : List Byte) : Timing :=
  { q1 := orDefault (bitAt args 1 0) 30 (wordAt args 2)
    q2 := orDefault (bitAt args 1 1) 30 (wordAt args 4)
    closeHold := orDefault (bitAt args 1 2) 3 (byteAt args 6)
    maxWait := orDefault (bitAt args 1 3) 60 (wordAt args 7)
    window := orDefault (bitAt args 1 4) 1000 (wordAt args 9) }

/-- The clamps of R65, without the rounding. -/
def clampTiming (t : Timing) : Timing :=
  { q1 := clampTo 1 600 t.q1, q2 := clampTo 1 600 t.q2, closeHold := min t.closeHold 60
    maxWait := clampTo 1 600 t.maxWait, window := min t.window 10000 }

/-- The handover window rounded up to the next multiple of 4 ms (R65). -/
def roundWindow (t : Timing) : Timing := { t with window := (t.window + 3) / 4 * 4 }

/-! ### LOAD RACK CONFIG -/

/-- The loaded fields a LOAD RACK CONFIG names, before clamping; none when check 1 of R113 fails. -/
def parseRack (args : List Byte) : Option (Fin 12 × RackConfig) :=
  match toId 12 (byteAt args 0), flagOfCode (byteAt args 2), toId 24 (orDefault (bitAt args 1 0) 0 (byteAt args 5)),
      toId 24 (orDefault (bitAt args 1 1) 23 (byteAt args 6)) with
  | some rack, some enabled, some low, some high =>
    some (rack,
      { enabled := enabled, station := BitVec.ofNat 16 (wordAt args 3), scanLow := low, scanHigh := high
        spacing := orDefault (bitAt args 1 2) 50 (wordAt args 7)
        openCap := orDefault (bitAt args 1 3) 3 (byteAt args 9)
        closedCap := orDefault (bitAt args 1 4) 6 (byteAt args 10)
        baseInterval := orDefault (bitAt args 1 5) 60 (wordAt args 11)
        turnLength := orDefault (bitAt args 1 6) 300 (wordAt args 13) })
  | _, _, _, _ => none

/-- The clamps of R113. -/
def clampRack (c : RackConfig) : RackConfig :=
  { c with
    scanHigh := if c.scanHigh < c.scanLow then c.scanLow else c.scanHigh
    spacing := clampTo 10 1000 c.spacing
    openCap := min c.openCap 6
    closedCap := min c.closedCap 6
    baseInterval := clampTo 10 600 c.baseInterval
    turnLength := clampTo 30 1800 c.turnLength }

/-! ### Tables -/

/-- The eight points of a LOAD LEVEL CURVE. -/
def parseCurve (args : List Byte) : Tab CurvePoint 8 :=
  Tab.ofFn fun k => ⟨wordAt args (3 * k.val), byteAt args (3 * k.val + 2)⟩

/-- The points are acceptable: voltages strictly ascending and in range, levels non-decreasing and at most 100 (R128). -/
def curveValid (c : Tab CurvePoint 8) : Bool :=
  c.items.all (fun x => decide (x.mv ≤ 65535) && decide (x.percent ≤ 100)) &&
  decide ((c.items.map CurvePoint.mv).Pairwise (· < ·)) &&
  decide ((c.items.map CurvePoint.percent).Pairwise (· ≤ ·))

/-- The trickle entry by its code: 0 allowed, 1 not allowed (Table 7-1's order, log 14). -/
def trickleOfCode (n : Nat) : Option Bool :=
  if n = 0 then some true else if n = 1 then some false else none

/-- Band entry `k` of a LOAD THERMAL TABLE, clamped (R138); none for an unknown trickle code. The Boolean tells whether a
value was clamped. -/
def parseBand (args : List Byte) (k : Fin 8) : Option (BandEntry × Bool) :=
  let at_ := 7 + 5 * k.val
  let e : BandEntry := ⟨byteAt args at_, byteAt args (at_ + 1), byteAt args (at_ + 2), byteAt args (at_ + 3), true⟩
  let c : BandEntry := ⟨min e.cap 6, clampTo 1 8 e.multiplier, min e.pMax 8, min e.iMax 8, true⟩
  (trickleOfCode (byteAt args (at_ + 4))).map fun x => ({ c with trickle := x }, decide (c ≠ e))

/-- The boundaries of a LOAD THERMAL TABLE. -/
def parseBounds (args : List Byte) : Tab Int 7 := Tab.ofFn fun k => signedAt args k.val

/-- The boundaries lie in -40 to 125 and are strictly ascending (R138). -/
def boundsValid (b : Tab Int 7) : Bool :=
  b.items.all (fun t => decide (-40 ≤ t) && decide (t ≤ 125)) && decide (b.items.Pairwise (· < ·))

/-- The Thermal Band Table a LOAD THERMAL TABLE gives, and whether a value was clamped; none when it is refused
(R138). -/
def parseBandTable (args : List Byte) : Option (BandTable × Bool) :=
  match boundsValid (parseBounds args), allPresent ((indices 8).map (parseBand args)) with
  | true, some es =>
    some ({ bounds := parseBounds args
            entries := Tab.ofFn fun k => ((es[k.val]?).map Prod.fst).getD ⟨0, 1, 0, 0, false⟩ },
          es.any Prod.snd)
  | _, _ => none

/-! ### SET HALL SETTINGS -/

/-- The settings a SET HALL SETTINGS names, before clamping; none for an unknown auto-enrol code (R186). -/
def parseSettings (args : List Byte) : Option Settings :=
  (flagOfCode (orDefault (bitAt args 0 3) 0 (byteAt args 4))).map fun auto =>
    { ready := orDefault (bitAt args 0 0) 80 (byteAt args 1)
      full := orDefault (bitAt args 0 1) 98 (byteAt args 2)
      grace := orDefault (bitAt args 0 2) 15 (byteAt args 3)
      autoEnrol := auto }

/-- The clamps of R186. -/
def clampSettings (x : Settings) : Settings :=
  { x with
    ready := min x.ready 100
    full := max (min x.full 100) (min x.ready 100)
    grace := clampTo 1 240 x.grace }

end Sys2Proof.Machine
end

