-- ==== Sys2Proof/Machine/AudioRequests.lean ====
section
/-! DEFINITION. Requests of Source Intake and the Mixer (R2 to R5, R22 to R26, R39). -/

namespace Sys2Proof.Machine

open Sys2Proof

/-! ### LOAD SOURCE and READ SOURCE -/

/-- Another loaded record holds this key (R2 check 2). -/
def keyTaken (s : State) (id : Fin 48) (c : SourceConfig) : Bool :=
  (indices 48).any fun j => decide (j ≠ id) && match s.source j with
    | some r => decide (r.config.station = c.station) && decide (r.config.stream = c.stream)
    | none => false

/-- Whether two loaded records have the same key (R1). -/
def sameKey (a b : SourceConfig) : Bool := decide (a.station = b.station) && decide (a.stream = b.stream)

/-- The request changes the key or the kind of a loaded record (R2 check 3). -/
def changesIdentity (s : State) (id : Fin 48) (c : SourceConfig) : Bool :=
  match s.source id with
  | some r => !sameKey r.config c || decide (r.config.kind ≠ c.kind)
  | none => false

/-- The live fields after a LOAD SOURCE is applied (R3). -/
def reloadedLive (old : Option Source) (c : SourceConfig) : SourceLive :=
  match old with
  | none => .initial
  | some r =>
    if sameKey r.config c then
      if r.config.kind ≠ c.kind ∧ (r.config.kind = .guide ∨ c.kind = .guide) then
        { r.live with lastMark := none }
      else r.live
    else .initial

/-- LOAD SOURCE at SIU (R2, R3). -/
def loadSource (args : List Byte) (s : State) : Answer :=
  match parseSource args with
  | none => refuse .badArgument s
  | some (id, given) =>
    let c := clampSource given
    if keyTaken s id c then refuse .exists s
    else if changesIdentity s id c && namedByTour s id then refuse .wrongState s
    else answer (appliedStatus (decide (c ≠ given)))
      (s.putSource id (some { config := c, live := reloadedLive (s.source id) c }))

/-- LOAD_SOURCE (R2). -/
def execLoadSource (s : State) : Host.Outcome State Fault Refusal := .next (serve 0x01 loadSource s)

/-- The loaded fields of a source in a reply (Table 1-1). -/
def sourceConfigFields (c : SourceConfig) : List Field :=
  [.known (enc16 c.station.toNat ++ enc8 c.stream.val ++ enc8 c.kind.code ++ enc16 c.onThreshold ++
    enc16 c.offThreshold ++ enc8 c.hang ++ enc16 c.defaultGain)]

/-- The eight counters of a source, in the order of Table 1-4. -/
def sourceCounterList (c : SourceCounters) : List Nat :=
  [c.accepted, c.duplicate, c.late, c.gap, c.overrun, c.concealed, c.malformed, c.ignoredMark]

/-- The payload of READ SOURCE (R5). -/
def sourceFields (r : Source) : List Field :=
  sourceConfigFields r.config ++ [.known (enc8 r.live.phase.code)] ++
  opt16 (r.live.lastSeq.map BitVec.toNat) ++
  [.known (encFlag r.live.slot.isSome ++ enc16 r.live.missRun ++ enc8 r.live.concealStep ++ enc16 r.live.level ++
    encFlag r.live.voice ++ enc8 r.live.hangLeft)] ++
  opt8 (r.live.lastMark.map BitVec.toNat) ++
  [.known ((sourceCounterList r.live.counters).map enc32).flatten]

/-- READ SOURCE at SIU (R5). -/
def readSource (args : List Byte) (s : State) : Answer :=
  match toId 48 (byteAt args 0) with
  | none => refuse .badArgument s
  | some id => match s.source id with
    | none => refuse .notFound s
    | some r => readAnswer (sourceFields r) s

/-- READ_SOURCE (R5). -/
def execReadSource (s : State) : Host.Outcome State Fault Refusal := .next (serve 0x02 readSource s)

/-! ### Programs -/

/-- LOAD PROGRAM at MXR (R22, R23). -/
def loadProgram (args : List Byte) (s : State) : Answer :=
  match parseProgram args with
  | none => refuse .badArgument s
  | some (id, given) =>
    if (s.program id).owner.isSome then refuse .wrongState s
    else
      let r := clampProgram given
      answer (appliedStatus (decide (r ≠ given)))
        (s.putProgram id { s.program id with pendingRec := some r })

/-- LOAD_PROGRAM (R22). -/
def execLoadProgram (s : State) : Host.Outcome State Fault Refusal := .next (serve 0x08 loadProgram s)

/-- STAGE GAIN at MXR (R25). -/
def stageGain (args : List Byte) (s : State) : Answer :=
  match toId 32 (byteAt args 0), toId 5 (byteAt args 1) with
  | some id, some k =>
    let p := s.program id
    if programLoaded p then
      answer .done (s.putProgram id { p with staged := p.staged.set k (some (wordAt args 2)) })
    else refuse .notFound s
  | _, _ => refuse .badArgument s

/-- STAGE_GAIN (R25). -/
def execStageGain (s : State) : Host.Outcome State Fault Refusal := .next (serve 0x09 stageGain s)

/-- APPLY GAINS at MXR (R26). -/
def applyGains (_ : List Byte) (s : State) : Answer :=
  answer .done (s.withMxr { s.mxr with applyRequest := true })

/-- APPLY_GAINS (R26). -/
def execApplyGains (s : State) : Host.Outcome State Fault Refusal := .next (serve 0x0A applyGains s)

/-- The bytes of a present member (R39). -/
def memberBytes (m : Member) : List Byte := enc8 m.source.val ++ enc16 m.gain ++ enc8 m.cls.code

/-- The fields of an installed or pending record, preceded by its presence (R39). -/
def recordFields (r : Option ProgramFields) : List Field :=
  match r with
  | none => [.known (enc8 0), .absent 31]
  | some x => [.known (enc8 1)] ++ (x.members.items.map fun m => optField 4 (m.map memberBytes)).flatten ++
      [.known (enc16 x.duckDepth ++ enc16 x.attack ++ enc16 x.release)]

/-- The payload of READ PROGRAM (R39). The two bytes of an absent owner, a slot and an entry under one presence flag, are
free values (log 3). -/
def programFields (s : State) (p : Program) : List Field :=
  recordFields p.installed ++ recordFields p.pendingRec ++ (p.staged.items.map opt16).flatten ++
  [.known (encFlag s.mxr.applyRequest)] ++ optId p.fallback ++ [.known (enc16 p.duck)] ++
  optField 2 (p.owner.map fun o => enc8 o.1.val ++ enc8 o.2.val) ++ optId p.binding ++
  [.known (encFlag (onAir s.mge.mode p) ++ enc32 p.clipped)]

/-- READ PROGRAM at MXR (R39). -/
def readProgram (args : List Byte) (s : State) : Answer :=
  match toId 32 (byteAt args 0) with
  | none => refuse .badArgument s
  | some id =>
    if programLoaded (s.program id) then readAnswer (programFields s (s.program id)) s
    else refuse .notFound s

/-- READ_PROGRAM (R39). -/
def execReadProgram (s : State) : Host.Outcome State Fault Refusal := .next (serve 0x0B readProgram s)

end Sys2Proof.Machine
end

