-- ==== Sys2Proof/Machine/ChargeRequests.lean ====
section
/-! DEFINITION. Requests of the Charge Scheduler (R138, R139). -/

namespace Sys2Proof.Machine

open Sys2Proof

/-- The table is replaced whole, then every rack with a band is treated, in ascending rack number (R138, R139). -/
def applyBandTable (table : BandTable) (s : State) : State :=
  forEach (indices 12) treatRack (s.withChs { s.chs with table := table })

/-- LOAD THERMAL TABLE at CHS (R138, R139). -/
def loadThermalTable (args : List Byte) (s : State) : Answer :=
  match parseBandTable args with
  | none => refuse .badArgument s
  | some (table, clamped) => answer (appliedStatus clamped) (applyBandTable table s)

/-- LOAD_THERMAL_TABLE (R138). -/
def execLoadThermalTable (s : State) : Host.Outcome State Fault Refusal :=
  .next (serveRacks 0x30 loadThermalTable s)

/-- The five bytes of a band entry; trickle is 0 allowed and 1 not allowed (Table 7-1's order, log 14). -/
def bandBytes (e : BandEntry) : List Byte :=
  enc8 e.cap ++ enc8 e.multiplier ++ enc8 e.pMax ++ enc8 e.iMax ++ enc8 (if e.trickle then 0 else 1)

/-- The payload of READ THERMAL TABLE (R138). -/
def bandTableFields (t : BandTable) : List Field :=
  [.known ((t.bounds.items.map encSigned).flatten ++ (t.entries.items.map bandBytes).flatten)]

/-- READ THERMAL TABLE at CHS (R138). -/
def readThermalTable (_ : List Byte) (s : State) : Answer := readAnswer (bandTableFields s.chs.table) s

/-- READ_THERMAL_TABLE (R138). -/
def execReadThermalTable (s : State) : Host.Outcome State Fault Refusal := .next (serve 0x31 readThermalTable s)

end Sys2Proof.Machine
end

