-- ==== Sys2Proof/Machine/EventRequests.lean ====
section
/-! DEFINITION. Requests of the Event Queue (R173, R177, R178). -/

namespace Sys2Proof.Machine

open Sys2Proof

/-- The twelve bytes of an event record (Table 8-9). -/
def recordBytes (r : EventRecord) : List Byte :=
  enc8 r.kind.code ++ encFlag r.run.isSome ++ enc32 r.time ++ enc16 r.subject ++
  enc16 ((r.run.map BitVec.toNat).getD 0) ++ enc16 r.detail

/-- READ EVENTS at EVQ: the oldest records, up to 16, are removed and returned (R177). -/
def readEvents (_ : List Byte) (s : State) : Answer :=
  let q := s.evq.queue
  let sent := q.take Config.eventsPerReply
  let left := q.drop Config.eventsPerReply
  { status := .done
    data := enc8 sent.length ++ enc8 left.length ++ encFlag s.evq.overflow ++ enc32 s.evq.drops ++
      (sent.map recordBytes).flatten
    state := s.withEvq { s.evq with queue := left } }

/-- READ_EVENTS (R177). -/
def execReadEvents (s : State) : Host.Outcome State Fault Refusal := .next (serve 0x38 readEvents s)

/-- FLUSH EVENTS at EVQ (R178). -/
def flushEvents (_ : List Byte) (s : State) : Answer :=
  { status := .done
    data := enc8 s.evq.queue.length
    state := s.withEvq { s.evq with queue := [], overflow := false, drops := 0 } }

/-- FLUSH_EVENTS (R178). -/
def execFlushEvents (s : State) : Host.Outcome State Fault Refusal := .next (serve 0x39 flushEvents s)

/-- The enable mask of a request; bit 31 is not read (R173). -/
def maskOf (args : List Byte) : BitVec 31 := BitVec.ofNat 31 (quadAt args 0)

/-- The answer of ENABLE SET and ENABLE CLEAR: the table replaced, and given whole as a four-byte mask with bit 31 as 0
(R173). -/
def enableAnswer (table : BitVec 31) (s : State) : Answer :=
  { status := .done, data := enc32 table.toNat, state := s.withEvq { s.evq with enables := table } }

/-- ENABLE SET at EVQ (R173). -/
def enableSet (args : List Byte) (s : State) : Answer := enableAnswer (s.evq.enables ||| maskOf args) s

/-- ENABLE_SET (R173). -/
def execEnableSet (s : State) : Host.Outcome State Fault Refusal := .next (serve 0x3A enableSet s)

/-- ENABLE CLEAR at EVQ (R173). -/
def enableClear (args : List Byte) (s : State) : Answer := enableAnswer (s.evq.enables &&& ~~~maskOf args) s

/-- ENABLE_CLEAR (R173). -/
def execEnableClear (s : State) : Host.Outcome State Fault Refusal := .next (serve 0x3B enableClear s)

end Sys2Proof.Machine
end

