-- ==== Sys2Proof/Machine/FleetRequests.lean ====
section
/-! DEFINITION. Requests of the Fleet Table (R90, R91, R93, R108). -/

namespace Sys2Proof.Machine

open Sys2Proof

/-! ### ENROL -/

/-- The new record placed in a FOREIGN bay: DOCKED there, with level and fault flag from the bay as it stands (R91). -/
def enrolledIn (tag : RxTag) (a : Fin 288) (b : Bay) : Receiver :=
  { newReceiver tag with
    phase := .docked, bay := some a
    level := if b.settle = .dock then none else b.level
    fault := b.fault }

/-- A new record is created: UNSEEN, or placed in the FOREIGN bay that shows its tag (R90, R91). -/
def enrolTag (tag : RxTag) (h : Fin 384) (s : State) : State :=
  match foreignBay tag s with
  | none => s.putReceiver h (some (newReceiver tag))
  | some a =>
    let t := s.putReceiver h (some (enrolledIn tag a (s.bay a)))
    judge a (t.putBay a { t.bay a with presence := .known h })

/-- ENROL at FLT (R90, R91). -/
def enrol (args : List Byte) (s : State) : Answer :=
  let tag : RxTag := BitVec.ofNat 24 (tripleAt args 0)
  if tripleAt args 0 = 0 then refuse .badArgument s
  else match findTag tag s with
    | some h => { status := .exists, data := enc16 h.val, state := s }
    | none => match freeHandle s with
      | none => refuse .tableFull s
      | some h => { status := .done, data := enc16 h.val, state := enrolTag tag h s }

/-- ENROL (R90). -/
def execEnrol (s : State) : Host.Outcome State Fault Refusal := .next (serveRacks 0x20 enrol s)

/-! ### RETIRE -/

/-- A record is removed; the bay of a DOCKED one becomes FOREIGN with its tag, and CHS is told (R93, R154). DESIGN CHOICE
(log 26): CHS then judges the bay's desired mode (R153, R154), although R93 says that the RETIRE does not alter it. -/
def retireRecord (h : Fin 384) (r : Receiver) (s : State) : State :=
  let t := s.putReceiver h none
  match r.phase, r.bay with
  | .docked, some a => endOrJudge a (t.putBay a { t.bay a with presence := .foreign r.tag })
  | _, _ => t

/-- RETIRE at FLT (R93). -/
def retire (args : List Byte) (s : State) : Answer :=
  match toId 384 (wordAt args 0) with
  | none => refuse .badArgument s
  | some h => match s.receiver h with
    | none => refuse .notFound s
    | some r =>
      if r.phase = .reserved ∨ r.phase = .issued then refuse .wrongState s
      else answer .done (retireRecord h r s)

/-- RETIRE (R93). -/
def execRetire (s : State) : Host.Outcome State Fault Refusal := .next (serveRacks 0x21 retire s)

/-! ### READ RECEIVER -/

/-- The payload of READ RECEIVER (R108). The two bytes of an absent bay are free values, since FFh is one byte (log 3). -/
def receiverFields (h : Fin 384) (r : Receiver) : List Field :=
  [.known (enc16 h.val ++ enc24 r.tag.toNat ++ enc8 r.phase.code)] ++
  opt16 (r.bay.map Fin.val) ++ opt8 r.level ++
  optId (r.tour.map TourRef.slot) ++ opt16 (r.tour.map fun x => x.run.toNat) ++
  optId (r.tour.map TourRef.entry) ++ optId (r.tour.map TourRef.channel) ++
  opt8 r.required ++ opt32 r.deadline ++ opt32 r.issueTime ++
  [.known (encFlag r.fault ++ encFlag r.short ++ enc16 r.turnCount)]

/-- The record a READ RECEIVER names, or the status that refuses it (R108, 08 note to Table 8-8). -/
def namedReceiver (args : List Byte) (s : State) : Except Status (Fin 384) :=
  let n := tripleAt args 1
  if byteAt args 0 = 0 then
    match toId 384 n with
    | none => .error .badArgument
    | some h => .ok h
  else if byteAt args 0 = 1 then
    if n = 0 then .error .badArgument
    else match findTag (BitVec.ofNat 24 n) s with
      | none => .error .notFound
      | some h => .ok h
  else .error .badArgument

/-- READ RECEIVER at FLT (R108). -/
def readReceiver (args : List Byte) (s : State) : Answer :=
  match namedReceiver args s with
  | .error status => refuse status s
  | .ok h => match s.receiver h with
    | none => refuse .notFound s
    | some r => readAnswer (receiverFields h r) s

/-- READ_RECEIVER (R108). -/
def execReadReceiver (s : State) : Host.Outcome State Fault Refusal := .next (serve 0x22 readReceiver s)

end Sys2Proof.Machine
end

