-- ==== Sys2Proof/Machine/HallLink.lean ====
section
/-! DEFINITION. Commands of the hall link: resets, link state, arriving frames and placed frames. -/

namespace Sys2Proof.Machine

open Sys2Proof

/-- What power-on and pin reset do; the queue of commands and the count of free values are the model's own and stay
(log 18). -/
def resetHub (straps : BitVec 4) (s : State) : State :=
  ((State.atReset straps).withChoices s.choices).withPending s.pending

/-- POWER_ON (R159). -/
def execPowerOn (straps : BitVec 4) (s : State) : Host.Outcome State Fault Refusal :=
  .next (resetHub straps s)

/-- PIN_RESET (R159): power-on and pin reset act alike (00). -/
def execPinReset (straps : BitVec 4) (s : State) : Host.Outcome State Fault Refusal :=
  .next (resetHub straps s)

/-- LINK_UP (R164). -/
def execLinkUp (s : State) : Host.Outcome State Fault Refusal :=
  .next (s.withHli (startPlacing { s.hli with linkUp := true }))

/-- The link goes DOWN: link-down +1, and every frame of the arbiter is discarded (R164). -/
def dropLink (s : State) : State :=
  let t := s.withHli { s.hli with
    linkUp := false, placing := none, class1 := [], class2 := [], class3 := []
    counters := { s.hli.counters with linkDowns := satAdd s.hli.counters.linkDowns 1 } }
  rackSender (forEach (heldFrames s.hli) discardFrame t)

/-- LINK_DOWN (R164); a link already DOWN does not change. -/
def execLinkDown (s : State) : Host.Outcome State Fault Refusal :=
  .next (if s.hli.linkUp then dropLink s else s)

/-! ### Arriving frames -/

/-- An AUDIO UP frame whose source record is known (R6 to R8, R17, R18). -/
def takeSourceFrame (i : Fin 48) (r : Source) (payload : List Byte) (s : State) : State :=
  let l := r.live
  let put (x : SourceLive) : State := s.putSource i (some { r with live := x })
  if payload.length ≠ 132 then
    put { l with counters := { l.counters with malformed := satAdd l.counters.malformed 1 } }
  else
    let seq := BitVec.ofNat 16 (wordAt payload 2)
    let mark := BitVec.ofNat 4 (byteAt payload 1)
    match judgeSequence l seq with
    | .duplicate => put { l with counters := { l.counters with duplicate := satAdd l.counters.duplicate 1 } }
    | .late => put { l with counters := { l.counters with late := satAdd l.counters.late 1 } }
    | judged =>
      let gap := decide (judged = .newerWithGap)
      let t := put (acceptFrame r.config.kind l gap seq mark (payloadSamples payload))
      match markAdvance r.config.kind l mark with
      | some d => passAdvance i d t
      | none => t

/-- SIU takes an AUDIO UP frame; one without a source record is returned as unrouted (R6, R162). -/
def takeAudio (station : Station) (payload : List Byte) (s : State) : State :=
  let unrouted := s.putLinkCounters
    { s.hli.counters with unroutedAudio := satAdd s.hli.counters.unroutedAudio 1 }
  if payload = [] then unrouted
  else match findSource station (byteAt payload 0) s with
    | none => unrouted
    | some i => match s.source i with
      | none => unrouted
      | some r => takeSourceFrame i r payload s

/-- Rack length errors +1 (R162). -/
def countRackLength (s : State) : State :=
  s.putLinkCounters { s.hli.counters with rackLengthErrors := satAdd s.hli.counters.rackLengthErrors 1 }

/-- HLI dispatches an accepted frame by its kind (R162). -/
def dispatchFrame (kind : IngressKind) (source : Station) (payload : List Byte) (s : State) : State :=
  match kind with
  | .audioUp => takeAudio source payload s
  | .bayStatus => if payload.length = 12 then takeStatus source payload s else countRackLength s
  | .dockNotice => if payload.length = 4 then takeNotice source payload s else countRackLength s
  | .mgmtRequest => takeRequest source payload s

/-- A frame arrives: judged under R161, then counted and dropped or dispatched. While the link is DOWN no frame arrives
(R164). -/
def arrive (frame : List Byte) (s : State) : State :=
  if s.hli.linkUp then
    match judgeFrame s.hli.station frame with
    | .dropped why => s.putLinkCounters (countDrop why s.hli.counters)
    | .accepted kind source payload => dispatchFrame kind source payload (countReceived s)
  else s

/-- FRAME_REJECTED (R161): the bytes of an arriving frame; the checks decide what becomes of it (log 9). -/
def execFrameRejected (frame : List Byte) (s : State) : Host.Outcome State Fault Refusal :=
  .next (arrive frame s)

/-- AUDIO_UP (R6). -/
def execAudioUp (frame : List Byte) (s : State) : Host.Outcome State Fault Refusal :=
  .next (arrive frame s)

/-- BAY_STATUS (R120). -/
def execBayStatus (frame : List Byte) (s : State) : Host.Outcome State Fault Refusal :=
  .next (arrive frame s)

/-- DOCK_NOTICE (R122). -/
def execDockNotice (frame : List Byte) (s : State) : Host.Outcome State Fault Refusal :=
  .next (arrive frame s)

/-- MGMT_REQUEST (R180). -/
def execMgmtRequest (frame : List Byte) (s : State) : Host.Outcome State Fault Refusal :=
  .next (arrive frame s)

/-! ### Placed frames -/

/-- POLL_PLACED (R116). -/
def execPollPlaced (s : State) : Host.Outcome State Fault Refusal :=
  .next (placedWhen (fun o => match o with
    | .poll _ _ _ => true
    | .program _ | .bayCommand | .reply | .attention => false) s)

/-- BAY_COMMAND_PLACED (R132): the sender builds its next frame. -/
def execBayCommandPlaced (s : State) : Host.Outcome State Fault Refusal :=
  .next (rackSender (placedWhen (fun o => decide (o = .bayCommand)) s))

/-- FRAME_PLACED (R165). -/
def execFramePlaced (s : State) : Host.Outcome State Fault Refusal :=
  .next (placedWhen (fun o => match o with
    | .program _ | .reply | .attention => true
    | .poll _ _ _ | .bayCommand => false) s)

/-! ### Requests and replies -/

/-- BAD_REQUEST (R181): the request in service fails the checks of Table 8-8. -/
def badRequest (s : State) : State :=
  match s.mge.service with
  | .taken req =>
    if wellFormedRequest req then s
    else offerReply (replyTo req .badRequest [])
      (s.withMge { s.mge with badRequests := satAdd s.mge.badRequests 1 })
  | .idle => s
  | .held _ => s

/-- BAD_REQUEST (R181). -/
def execBadRequest (s : State) : Host.Outcome State Fault Refusal := .next (badRequest s)

/-- REPLY_ACCEPTED (R168): the held reply is offered again. DESIGN CHOICE: only this command offers it, at any moment after a
place of class 3 opens, so a BUSY or ATTENTION created meanwhile may stand ahead of it; R168 names no moment (log 29). With
class 3 still full the reply stays held. -/
def acceptHeld (s : State) : State :=
  match s.mge.service with
  | .held r => offerReply r s
  | .idle => s
  | .taken _ => s

/-- REPLY_ACCEPTED (R168). -/
def execReplyAccepted (s : State) : Host.Outcome State Fault Refusal := .next (acceptHeld s)

end Sys2Proof.Machine
end

