-- ==== Sys2Proof/Machine/HubRequests.lean ====
section
/-! DEFINITION. Requests that the Management Engine owns itself (R183 to R187). -/

namespace Sys2Proof.Machine

open Sys2Proof

/-! ### SET HALL MODE -/

/-- The hall mode is written (R183). -/
def putMode (m : HallMode) (s : State) : State := s.withMge { s.mge with mode := m }

/-- How many tours stand in LIVE or CLOSING. -/
def runningTours (s : State) : Nat := (s.tcl.tours.items.filter isRunning).length

/-- OPEN to CLOSED, steps 1 to 4 (R183). -/
def closeHall (s : State) : State := refreshAll (putMode .closed (closeAll false s))

/-- Every program that is bound comes on air with a duck factor of 32768 (R29, R183). -/
def airPrograms (s : State) : State :=
  s.withMxr { s.mxr with programs := s.mxr.programs.map fun p =>
    if p.binding.isSome then { p with duck := Config.unity } else p }

/-- CLOSED to OPEN, steps 1 and 2 (R183). -/
def openHall (s : State) : State := refreshAll (airPrograms (putMode .opened s))

/-- The reply of SET HALL MODE: the mode after the request and the number of tours closed (R183). -/
def modeReply (closed : Nat) (s : State) : Answer :=
  { status := .done, data := enc8 s.mge.mode.code ++ enc8 closed, state := s }

/-- The hall mode by its code (R183). -/
def modeOfHall (n : Nat) : Option HallMode :=
  if n = 0 then some .closed else if n = 1 then some .opened else none

/-- SET HALL MODE at MGE (R183). -/
def setHallMode (args : List Byte) (s : State) : Answer :=
  match modeOfHall (byteAt args 0) with
  | none => refuse .badArgument s
  | some m =>
    if m = s.mge.mode then modeReply 0 s
    else match m with
      | .closed => modeReply (runningTours s) (closeHall s)
      | .opened => modeReply 0 (openHall s)

/-- SET_HALL_MODE (R183). -/
def execSetHallMode (s : State) : Host.Outcome State Fault Refusal := .next (serveRacks 0x40 setHallMode s)

/-! ### RESTART -/

/-- Every bay of the Bay Table is marked pending (R137, R184 step 5). -/
def markAllPending (s : State) : State :=
  s.withRpl { s.rpl with bays := s.rpl.bays.map fun b => { b with pending := true } }

/-- Every loaded source is ABSENT with its live fields initial, its counters included (R4, R184 steps 6 and 9). -/
def restartSources (s : State) : State :=
  s.withSiu ⟨s.siu.sources.map fun r => r.map fun x => { x with live := .initial }⟩

/-- Every program's duck factor becomes 32768 and its clipped counter 0 (R42, R184 steps 7 and 9). -/
def restartPrograms (s : State) : State :=
  s.withMxr { s.mxr with programs := s.mxr.programs.map fun p => { p with duck := Config.unity, clipped := 0 } }

/-- The event queue is emptied, its flag cleared and its drop counter 0 (R184 step 8). -/
def restartEvents (s : State) : State :=
  s.withEvq { s.evq with queue := [], overflow := false, drops := 0 }

/-- The counters of FLT, RPL, CHS, HLI and MGE are 0 (R184 step 9). -/
def zeroCounters (s : State) : State :=
  ((((s.withFlt { s.flt with unknownDocks := 0, unplannedTakes := 0, lateReturns := 0 }).withRpl
    { s.rpl with
      racks := s.rpl.racks.map fun r => { r with live := { r.live with counters := .zero } }
      unroutedRack := 0 }).withChs
    { s.chs with sched := s.chs.sched.map fun q => { q with counters := .zero } }).withHli
    { s.hli with counters := .zero }).withMge
    { s.mge with received := 0, busyReplies := 0, badRequests := 0 }

/-- Class 1 of the egress arbiter is emptied (R170, R184 step 3). -/
def emptyClass1 (s : State) : State := s.withHli { s.hli with class1 := [] }

/-- The nine steps of RESTART (R184). -/
def restartHub (s : State) : State :=
  let t := refreshAll (emptyClass1 (putMode .closed (closeAll true s)))
  zeroCounters (restartEvents (restartPrograms (restartSources (markAllPending t))))

/-- RESTART at MGE (R184). -/
def restart (_ : List Byte) (s : State) : Answer := answer .done (restartHub s)

/-- RESTART (R184). -/
def execRestart (s : State) : Host.Outcome State Fault Refusal := .next (serveRacks 0x41 restart s)

/-! ### SET TIME -/

/-- SET TIME at MGE: the new hub time, its next rise one full second later, and the due deadlines judged (R185, R107). -/
def setTime (args : List Byte) (s : State) : Answer :=
  let t := (s.withMge { s.mge with hubTime := quadAt args 0 }).withClock
    { s.clock with nextSecond := s.clock.now + 1000 }
  { status := .done, data := enc32 s.mge.hubTime, state := judgeDeadlines t }

/-- SET_TIME (R185). -/
def execSetTime (s : State) : Host.Outcome State Fault Refusal := .next (serve 0x42 setTime s)

/-! ### READ IDENTITY and READ COUNTERS -/

/-- The payload of READ IDENTITY (R187). -/
def identityBytes (s : State) : List Byte :=
  enc16 0x7224 ++ enc8 1 ++ enc16 s.hli.station.toNat ++ enc8 1 ++ enc8 s.mge.mode.code

/-- READ IDENTITY at MGE (R187). -/
def readIdentity (_ : List Byte) (s : State) : Answer :=
  { status := .done, data := identityBytes s, state := s }

/-- READ_IDENTITY (R187). -/
def execReadIdentity (s : State) : Host.Outcome State Fault Refusal := .next (serve 0x43 readIdentity s)

/-- The saturating sum of one counter over the loaded sources (R19, R187). -/
def sourceSum (s : State) (f : SourceCounters → Nat) : Nat :=
  satSum (s.siu.sources.items.map fun r => match r with
    | some x => f x.live.counters
    | none => 0)

/-- The saturating sum of one RPL counter over the racks (R135, R187). -/
def rackSum (s : State) (f : RackCounters → Nat) : Nat :=
  satSum (s.rpl.racks.items.map fun r => f r.live.counters)

/-- The saturating sum of one CHS counter over the racks (R157, R187). -/
def schedSum (s : State) (f : SchedCounters → Nat) : Nat :=
  satSum (s.chs.sched.items.map fun q => f q.counters)

/-- The link counters in the order of R170. -/
def linkCounterList (c : LinkCounters) : List Nat :=
  [c.received, c.lengthErrors, c.crcErrors, c.notAddressed, c.badVersion, c.unknownKinds, c.unroutedAudio,
    c.rackLengthErrors, c.transmitted, c.superseded, c.discards, c.linkDowns]

/-- The 37 counters of READ COUNTERS, in the order of Table 10-2 (R187). -/
def allCounters (s : State) : List Nat :=
  [sourceSum s (·.accepted), sourceSum s (·.duplicate), sourceSum s (·.late), sourceSum s (·.gap),
    sourceSum s (·.overrun), sourceSum s (·.concealed), sourceSum s (·.malformed), sourceSum s (·.ignoredMark),
    satSum (s.mxr.programs.items.map Program.clipped),
    s.flt.unknownDocks, s.flt.unplannedTakes, s.flt.lateReturns,
    rackSum s (·.polls), rackSum s (·.answers), rackSum s (·.timeouts), rackSum s (·.lateAnswers),
    rackSum s (·.malformed), s.rpl.unroutedRack,
    schedSum s (·.started), schedSum s (·.starved), schedSum s (·.dropped)] ++
  linkCounterList s.hli.counters ++
  [s.evq.drops, s.mge.received, s.mge.busyReplies, s.mge.badRequests]

/-- READ COUNTERS at MGE (R187). -/
def readCounters (_ : List Byte) (s : State) : Answer :=
  { status := .done, data := ((allCounters s).map enc32).flatten, state := s }

/-- READ_COUNTERS (R187). -/
def execReadCounters (s : State) : Host.Outcome State Fault Refusal := .next (serve 0x44 readCounters s)

/-! ### SET HALL SETTINGS -/

/-- The four settings in a reply (R186). -/
def settingsBytes (x : Settings) : List Byte := enc8 x.ready ++ enc8 x.full ++ enc8 x.grace ++ encFlag x.autoEnrol

/-- SET HALL SETTINGS at MGE (R186). -/
def setHallSettings (args : List Byte) (s : State) : Answer :=
  match parseSettings args with
  | none => refuse .badArgument s
  | some given =>
    let x := clampSettings given
    { status := appliedStatus (decide (x ≠ given)), data := settingsBytes x
      state := s.withMge { s.mge with settings := x } }

/-- SET_HALL_SETTINGS (R186). -/
def execSetHallSettings (s : State) : Host.Outcome State Fault Refusal := .next (serve 0x45 setHallSettings s)

end Sys2Proof.Machine
end

