-- ==== Sys2Proof/Machine/RackRequests.lean ====
section
/-! DEFINITION. Requests of the Rack Poller (R113, R114, R128, R134). -/

namespace Sys2Proof.Machine

open Sys2Proof

/-! ### LOAD RACK CONFIG -/

/-- Another enabled rack has this station (R113 check 2). -/
def stationTaken (s : State) (rack : Fin 12) (c : RackConfig) : Bool :=
  c.enabled && (indices 12).any fun r => decide (r ≠ rack) && (s.rack r).config.enabled &&
    decide ((s.rack r).config.station = c.station)

/-- The scan pointer after a load that keeps the rack enabled with its station: the new scan low where the scan range
differs from before (R114). -/
def keptPointer (old new : RackConfig) (p : Fin 24) : Fin 24 :=
  if old.scanLow = new.scanLow ∧ old.scanHigh = new.scanHigh then p else new.scanLow

/-- A rack whose station changes: disabled, enabled, with RACK_OFFLINE raised if it was ONLINE (R114). The detail is the
miss run before the enabling sets it to 0 (log 16). -/
def rekeyRack (rack : Fin 12) (s : State) : State :=
  let t := disableRack rack s
  let u := if isOnline s rack then raiseEvent .rackOffline rack.val none (s.rack rack).live.missRun t else t
  enableRack rack u

/-- The loaded fields are replaced and the rack's live fields act by the enabled field before and after (R114); C is
then computed afresh (R152). -/
def applyRackConfig (rack : Fin 12) (c : RackConfig) (s : State) : State :=
  let old := (s.rack rack).config
  let t := s.putRack rack { s.rack rack with config := c }
  let u := match old.enabled, c.enabled with
    | false, false => t
    | false, true => enableRack rack t
    | true, false => disableRack rack t
    | true, true =>
      if old.station = c.station then
        t.putRackLive rack { (t.rack rack).live with pointer := keptPointer old c (t.rack rack).live.pointer }
      else rekeyRack rack t
  refreshCapacity rack u

/-- LOAD RACK CONFIG at RPL (R113, R114). -/
def loadRackConfig (args : List Byte) (s : State) : Answer :=
  match parseRack args with
  | none => refuse .badArgument s
  | some (rack, given) =>
    if stationTaken s rack given then refuse .exists s
    else
      let c := clampRack given
      answer (appliedStatus (decide (c ≠ given))) (applyRackConfig rack c s)

/-- LOAD_RACK_CONFIG (R113). -/
def execLoadRackConfig (s : State) : Host.Outcome State Fault Refusal := .next (serveRacks 0x28 loadRackConfig s)

/-! ### READ RACK -/

/-- The loaded fields of a rack in a reply (Table 6-1). -/
def rackConfigFields (c : RackConfig) : List Field :=
  [.known (encFlag c.enabled ++ enc16 c.station.toNat ++ enc8 c.scanLow.val ++ enc8 c.scanHigh.val ++
    enc16 c.spacing ++ enc8 c.openCap ++ enc8 c.closedCap ++ enc16 c.baseInterval ++ enc16 c.turnLength)]

/-- The counters RPL keeps of a rack, in the order of R135. -/
def rackCounterList (c : RackCounters) : List Nat := [c.polls, c.answers, c.timeouts, c.lateAnswers, c.malformed]

/-- The counters CHS keeps of a rack, in the order of R157. -/
def schedCounterList (c : SchedCounters) : List Nat := [c.started, c.starved, c.dropped]

/-- The live fields RPL keeps of a rack, in the order of Table 6-2, timers as the ms left (R134, log 14). The bytes of an
absent outstanding poll, a bay with its time left, are free values (log 3). -/
def rackLiveFields (s : State) (l : RackLive) : List Field :=
  [.known (enc8 l.phase.code ++ enc8 l.pointer.val)] ++
  optField 2 (l.outstanding.map fun o => enc8 o.bay.val ++ enc8 (s.timeLeft o.ends)) ++
  optId l.waiting ++ optId l.timedOut ++ opt16 (l.spacingEnds.map s.timeLeft) ++
  [.known (enc8 l.missRun)] ++ optField 1 (l.temperature.map encSigned) ++
  [.known ((rackCounterList l.counters).map enc32).flatten]

/-- The scheduler state of a rack, in the order of R157; the active list is preceded by its count (log 14). A band is a
number and no identifier (00, identifiers), so the byte of an absent band is a free value (log 3). DEDUCED (log 14): a stopped cadence is sent as an absent
time left. -/
def schedFields (s : State) (q : Sched) : List Field :=
  opt8 (q.band.map Fin.val) ++
  [.known (enc8 q.capacity ++ enc8 q.active.length ++
    (q.active.map fun t => enc8 t.bay.val ++ enc32 (s.timeLeft t.ends)).flatten ++
    enc8 q.postponed ++ enc8 q.pulledIn ++ enc16 q.round.toNat)] ++
  opt32 (q.cadenceEnds.map s.timeLeft) ++
  [.known ((schedCounterList q.counters).map enc32).flatten]

/-- READ RACK at RPL (R134, R157). -/
def readRack (args : List Byte) (s : State) : Answer :=
  match toId 12 (byteAt args 0) with
  | none => refuse .badArgument s
  | some rack =>
    readAnswer (rackConfigFields (s.rack rack).config ++ rackLiveFields s (s.rack rack).live ++
      schedFields s (s.sched rack)) s

/-- READ_RACK (R134). -/
def execReadRack (s : State) : Host.Outcome State Fault Refusal := .next (serve 0x29 readRack s)

/-! ### READ BAY -/

/-- The presence of a bay with its handle or tag in three bytes, absent when EMPTY (R134, log 14). -/
def presenceFields (p : Presence) : List Field :=
  match p with
  | .empty => [.known (enc8 0), .absent 3]
  | .known h => [.known (enc8 1 ++ enc24 h.val)]
  | .foreign tag => [.known (enc8 2 ++ enc24 tag.toNat)]

/-- The payload of READ BAY, in the order of Table 6-3 (R134). The two bytes of an absent reported assignment are free
values (log 3). -/
def bayFields (s : State) (a : Fin 288) (b : Bay) : List Field :=
  presenceFields b.presence ++ opt16 b.voltage ++ opt8 b.level ++
  [.known (encFlag b.rackFault ++ encFlag b.docked ++ encFlag b.ready ++ encFlag b.full ++ encFlag b.fault ++
    enc8 b.settle.code)] ++
  opt16 (b.settleEnds.map s.timeLeft) ++ [.known (enc8 b.mode.code ++ encAssign b.assign)] ++
  optField 1 (b.reportedMode.map fun m => enc8 m.code) ++ optField 2 (b.reportedAssign.map encAssign) ++
  [.known (encFlag b.pending ++ encFlag b.served)] ++
  opt32 ((turnOn s (rackOf a) (bayNumber a)).map fun t => s.timeLeft t.ends)

/-- READ BAY at RPL (R134). -/
def readBay (args : List Byte) (s : State) : Answer :=
  match toId 288 (wordAt args 0) with
  | none => refuse .badArgument s
  | some a => readAnswer (bayFields s a (s.bay a)) s

/-- READ_BAY (R134). -/
def execReadBay (s : State) : Host.Outcome State Fault Refusal := .next (serve 0x2A readBay s)

/-! ### LOAD LEVEL CURVE -/

/-- LOAD LEVEL CURVE at RPL (R128). -/
def loadLevelCurve (args : List Byte) (s : State) : Answer :=
  if curveValid (parseCurve args) then answer .done (s.withRpl { s.rpl with curve := parseCurve args })
  else refuse .badArgument s

/-- LOAD_LEVEL_CURVE (R128). -/
def execLoadLevelCurve (s : State) : Host.Outcome State Fault Refusal := .next (serve 0x2B loadLevelCurve s)

end Sys2Proof.Machine
end

