-- ==== Sys2Proof/Machine/Timers.lean ====
section
/-! DEFINITION. Commands of the hub's own clock: the mix point and its parts for one record, the hub time, and the expiry of
each timer (R10 to R16, R30, R48, R54, R76 to R83, R107, R116, R118, R125, R127, R142, R146, R147, R185). -/

namespace Sys2Proof.Machine

open Sys2Proof

/-! ### The mix point -/

/-- One piece of work after the PROGRAM frames of a mix point: a tour's window (R54) or a tour's timers (R83). -/
inductive TourWork where
  | window (slot : Fin 16)
  | timers (slot : Fin 16)
  deriving DecidableEq, Repr

/-- The windows and the timers put into one order, each in ascending slot; where both have work left, `pick` of the place
decides (R83, log 5). `fuel` is the number of pieces. -/
def mergeWork (pick : Nat → Bool) : Nat → List TourWork → List TourWork → List TourWork
  | 0, _, _ => []
  | _ + 1, [], ts => ts
  | _ + 1, ws, [] => ws
  | fuel + 1, w :: ws, t :: ts =>
    if pick fuel then w :: mergeWork pick fuel ws (t :: ts) else t :: mergeWork pick fuel (w :: ws) ts

/-- The order of the tour work of a mix point (R54, R83, log 5). -/
def workOrder (choice : Nat) : List TourWork :=
  mergeWork (Config.windowNext choice) 32 ((indices 16).map .window) ((indices 16).map .timers)

/-- One piece of tour work of a mix point (R54, R76, R77, R78, R82, R83). -/
def doWork (x : TourWork) (s : State) : State :=
  match x with
  | .window slot => tickWindow slot s
  | .timers slot => tickTour slot s

/-- SIU's work at a mix point, source by source in ascending id (R10 to R16, log 17). -/
def takeSources (s : State) : State := forEach (indices 48) mixSource s

/-- What follows SIU's work at a mix point: programs, PROGRAM frames and tours. `before` is the state SIU found. -/
def runMix (before s : State) : State :=
  let feed := mixFeed before s
  let t := emitPrograms (framesOnAir feed s) (mixPrograms feed s)
  rackSender (forEach (workOrder t.choices) doWork t.useChoice)

/-- The mix point is reached, and the next one stands one frame period later (01, section 1.3). -/
def reachMix (s : State) : State :=
  let t := s.reach s.clock.nextMix
  t.withClock { t.clock with nextMix := s.clock.nextMix + Config.framePeriodMs }

/-- A mix point, whole (R30). -/
def mixPoint (s : State) : State :=
  let t := reachMix s
  runMix t (takeSources t)

/-- MIX_POINT (R30). -/
def execMixPoint (s : State) : Host.Outcome State Fault Refusal := .next (mixPoint s)

/-! ### Parts of a mix point for one record (log 8) -/

/-- The mix point's work on a LIVE source that this miss makes STALE (R12). -/
def sourceStale (i : Fin 48) (s : State) : State :=
  match s.source i with
  | none => s
  | some r => if staleDue r.live then mixSource i s else s

/-- SOURCE_STALE (R12). -/
def execSourceStale (i : Fin 48) (s : State) : Host.Outcome State Fault Refusal := .next (sourceStale i s)

/-- The hang of a quiet source reaches 0 at a voice update with the level that the record holds (R16). DESIGN CHOICE
(log 8): that level is the one of the last mix point, and a frame waiting in the slot, which the next mix point would take,
is not looked at. -/
def clearDue (c : SourceConfig) (l : SourceLive) : Bool :=
  l.voice && decide (l.level < c.onThreshold) && decide (l.level < c.offThreshold) && decide (l.hangLeft ≤ 1)

/-- The voice update that clears a source's flag, with the recorded level (R16; DESIGN CHOICE, log 8). -/
def voiceFlagClear (i : Fin 48) (s : State) : State :=
  match s.source i with
  | none => s
  | some r =>
    if clearDue r.config r.live then s.putSource i (some { r with live := voiceUpdate r.config r.live }) else s

/-- VOICE_FLAG_CLEAR (R16). -/
def execVoiceFlagClear (i : Fin 48) (s : State) : Host.Outcome State Fault Refusal := .next (voiceFlagClear i s)

/-- WINDOW_END (R54): the countdown that ends a tour's window. -/
def execWindowEnd (slot : Fin 16) (s : State) : Host.Outcome State Fault Refusal :=
  .next (if windowDue (s.tour slot).live then tickWindow slot s else s)

/-- GUIDE_QUIET (R77): the count that ends stage 0. -/
def execGuideQuiet (slot : Fin 16) (s : State) : Host.Outcome State Fault Refusal :=
  .next (if silenceDue s slot 0 then countSilence slot s else s)

/-- FALLBACK_WRITE (R78): the count that ends stage 1. -/
def execFallbackWrite (slot : Fin 16) (s : State) : Host.Outcome State Fault Refusal :=
  .next (if silenceDue s slot 1 then countSilence slot s else s)

/-- CLOSE_HOLD_EXPIRY (R82): the close that the hold brings. -/
def execCloseHoldExpiry (slot : Fin 16) (s : State) : Host.Outcome State Fault Refusal :=
  .next (if holdDue s slot then rackSender (closeTour slot s) else s)

/-- CLOSE_WAIT_EXPIRY (R83): the close that the maximum wait brings. -/
def execCloseWaitExpiry (slot : Fin 16) (s : State) : Host.Outcome State Fault Refusal :=
  .next (if waitDue s slot then rackSender (closeTour slot s) else s)

/-! ### Hub time -/

/-- One second of elapsed time: the hub time rises by 1 up to its greatest value, and at each rise the due deadlines are
judged (R185, R107). -/
def hubTimeTick (s : State) : State :=
  let t := s.reach s.clock.nextSecond
  let u := t.withClock { t.clock with nextSecond := s.clock.nextSecond + 1000 }
  if u.mge.hubTime < Config.max32 then
    judgeDeadlines (u.withMge { u.mge with hubTime := u.mge.hubTime + 1 })
  else u

/-- HUB_TIME_TICK (R185). -/
def execHubTimeTick (s : State) : Host.Outcome State Fault Refusal := .next (hubTimeTick s)

/-- OVERDUE (R107). -/
def execOverdue (h : Fin 384) (s : State) : Host.Outcome State Fault Refusal := .next (overdueOne h s)

/-! ### Rack timers -/

/-- A rack's spacing timer expires and the next POLL is built (R116). -/
def spacingExpiry (rack : Fin 12) (s : State) : State :=
  match (s.rack rack).live.spacingEnds with
  | none => s
  | some ends =>
    let t := (s.reach ends).putRackLive rack { (s.rack rack).live with spacingEnds := none }
    let r := t.rack rack
    if r.config.enabled && r.live.outstanding.isNone && r.live.waiting.isNone then sendPoll rack t else t

/-- SPACING_TIMER_EXPIRY (R116). -/
def execSpacingTimerExpiry (rack : Fin 12) (s : State) : Host.Outcome State Fault Refusal :=
  .next (spacingExpiry rack s)

/-- The live fields of a rack once its outstanding poll of a bay has timed out (R118). -/
def timedOutLive (b : Fin 24) (l : RackLive) : RackLive :=
  { l with
    outstanding := none, timedOut := some b, missRun := min (l.missRun + 1) 255
    counters := { l.counters with timeouts := satAdd l.counters.timeouts 1 } }

/-- The 20 ms timer of a rack's outstanding poll expires (R118). -/
def pollTimeout (rack : Fin 12) (s : State) : State :=
  match (s.rack rack).live.outstanding with
  | none => s
  | some o =>
    let l := timedOutLive o.bay (s.rack rack).live
    let t := (s.reach o.ends).putRackLive rack l
    startSpacing rack
      (if l.phase = .online ∧ Config.missesToOffline ≤ l.missRun then rackOffline rack t else t)

/-- POLL_TIMEOUT (R118): the turns that a rack going OFFLINE ends make bays pending, so the rack sender acts. -/
def execPollTimeout (rack : Fin 12) (s : State) : Host.Outcome State Fault Refusal :=
  .next (rackSender (pollTimeout rack s))

/-- The end of a bay's settle passes; the settle becomes `next` (R125, R127). -/
def settleExpiry (a : Fin 288) (running next : Settle) (s : State) : State :=
  let b := s.bay a
  match b.settleEnds with
  | none => s
  | some ends =>
    if b.settle = running then
      (s.reach ends).putBay a { b with settle := next, settleEnds := none }
    else s

/-- DOCK_SETTLE_EXPIRY (R125): the settle becomes DOCK ENDED. -/
def execDockSettleExpiry (a : Fin 288) (s : State) : Host.Outcome State Fault Refusal :=
  .next (settleExpiry a .dock .dockEnded s)

/-- TURN_SETTLE_EXPIRY (R127): the settle becomes NONE. -/
def execTurnSettleExpiry (a : Fin 288) (s : State) : Host.Outcome State Fault Refusal :=
  .next (settleExpiry a .turn .none s)

/-! ### Charge timers -/

/-- A rack's cadence expires, and the period is loaded again (R142, R146). -/
def cadenceExpiry (rack : Fin 12) (s : State) : State :=
  match (s.sched rack).cadenceEnds with
  | none => s
  | some ends => rackSender (restartCadence rack (cadenceAct rack (s.reach ends)))

/-- CADENCE_EXPIRY (R146). -/
def execCadenceExpiry (rack : Fin 12) (s : State) : Host.Outcome State Fault Refusal :=
  .next (cadenceExpiry rack s)

/-- The time left of an active turn reaches 0 and the turn ends (R147, R148). -/
def turnExpiry (rack : Fin 12) (b : Fin 24) (s : State) : State :=
  match turnOn s rack b with
  | none => s
  | some t => rackSender (endTurn rack b (s.reach t.ends))

/-- TURN_EXPIRY (R147). -/
def execTurnExpiry (rack : Fin 12) (b : Fin 24) (s : State) : Host.Outcome State Fault Refusal :=
  .next (turnExpiry rack b s)

end Sys2Proof.Machine
end

