-- ==== Sys2Proof/Machine/TourRequests.lean ====
section
/-! DEFINITION. Requests of the Tour Controller (R63 to R71, R81, R84). -/

namespace Sys2Proof.Machine

open Sys2Proof

/-- The live record after a plan is loaded: a FREE slot becomes PLANNED with counts and stop index 0; a PLANNED slot
keeps its last run, with the stop index at most the new route's last stop (R64). -/
def plannedLive (p : Plan) (l : TourLive) : TourLive :=
  if l.phase = .free then { TourLive.reset with phase := .planned, run := l.run }
  else { l with stop := min l.stop (lastStop p) }

/-- LOAD TOUR PLAN at TCL (R63, R64). -/
def loadTourPlan (args : List Byte) (s : State) : Answer :=
  match parsePlan args with
  | none => refuse .badArgument s
  | some (slot, given) =>
    let t := s.tour slot
    if isRunning t then refuse .wrongState s
    else if !planConsistent given then refuse .badPlan s
    else
      let p := clampPlan given
      answer (appliedStatus (decide (p ≠ given)))
        (s.putTour slot
          { plan := some p
            timing := if t.live.phase = .free then some .reset else t.timing
            live := plannedLive p t.live })

/-- LOAD_TOUR_PLAN (R63). -/
def execLoadTourPlan (s : State) : Host.Outcome State Fault Refusal := .next (serve 0x18 loadTourPlan s)

/-- LOAD TOUR TIMING at TCL (R65). -/
def loadTourTiming (args : List Byte) (s : State) : Answer :=
  match toId 16 (byteAt args 0) with
  | none => refuse .badArgument s
  | some slot =>
    let t := s.tour slot
    if t.live.phase = .free then refuse .wrongState s
    else
      let given := parseTiming args
      let c := clampTiming given
      answer (appliedStatus (decide (c ≠ given))) (s.putTour slot { t with timing := some (roundWindow c) })

/-- LOAD_TOUR_TIMING (R65). -/
def execLoadTourTiming (s : State) : Host.Outcome State Fault Refusal := .next (serve 0x19 loadTourTiming s)

/-- CLEAR TOUR at TCL (R66). -/
def clearTour (args : List Byte) (s : State) : Answer :=
  match toId 16 (byteAt args 0) with
  | none => refuse .badArgument s
  | some slot =>
    if (s.tour slot).live.phase = .planned then
      answer .done (s.putTour slot
        { plan := none, timing := none, live := { TourLive.reset with run := (s.tour slot).live.run } })
    else refuse .wrongState s

/-- CLEAR_TOUR (R66). -/
def execClearTour (s : State) : Host.Outcome State Fault Refusal := .next (serve 0x1A clearTour s)

/-! ### READ TOUR -/

/-- The fields of a plan, in the order of Table 4-1 (R67, log 14). -/
def planFields (p : Plan) : List Field :=
  [.known (enc8 p.guide.val)] ++
  (p.entries.items.map fun e => match e with
    | none => [.known (enc8 0), .absent 5]
    | some x => [.known (enc8 1 ++ enc8 x.language ++ enc8 x.program.val ++ enc8 x.party)] ++
        optId x.interpreter).flatten ++
  [.known (enc8 p.route.length)] ++
  (p.route.map fun st => .known (enc8 st.zone.val) :: (st.fallback.items.map optId).flatten).flatten ++
  [.known (enc8 p.requiredLevel)]

/-- The fields of a timing (Table 4-2). -/
def timingFields (t : Timing) : List Field :=
  [.known (enc16 t.q1 ++ enc16 t.q2 ++ enc8 t.closeHold ++ enc16 t.maxWait ++ enc16 t.window)]

/-- The fields of a live record (Table 4-3). DEDUCED: the current zone and window remaining are sent as optional fields, with
a presence byte (logs 14, 24, 28). -/
def liveFields (l : TourLive) : List Field :=
  [.known (enc8 l.phase.code ++ enc16 l.run.toNat ++ enc8 l.stop)] ++ (l.channels.items.map optId).flatten ++
  optId l.zone ++ optId l.prevZone ++ opt16 l.window ++ optId l.target ++
  [.known (enc8 l.stage ++ enc32 l.timer ++ enc8 l.fallback.code)] ++ opt16 l.hold ++ opt32 l.wait ++
  [.known ((l.asked.items.map enc8).flatten ++ enc8 l.reserved ++ enc8 l.issued ++ enc8 l.returned ++
    enc8 l.short ++ enc8 l.unfilled)]

/-- READ TOUR at TCL (R67). -/
def readTour (args : List Byte) (s : State) : Answer :=
  match toId 16 (byteAt args 0) with
  | none => refuse .badArgument s
  | some slot =>
    let t := s.tour slot
    match t.live.phase, t.plan with
    | .free, _ => readAnswer [.known (enc8 t.live.phase.code ++ enc16 t.live.run.toNat)] s
    | _, some p => readAnswer (planFields p ++ timingFields (timingOf t) ++ liveFields t.live) s
    | _, none => readAnswer (timingFields (timingOf t) ++ liveFields t.live) s

/-- READ_TOUR (R67). -/
def execReadTour (s : State) : Host.Outcome State Fault Refusal := .next (serve 0x1B readTour s)

/-! ### TOUR START and RESERVE MORE -/

/-- The answer of a reservation in a reply: reserved, short, unfilled. -/
def answerBytes (a : ReserveAnswer) : List Byte := enc8 a.reserved ++ enc8 a.short ++ enc8 a.unfilled

/-- The answer of entry `e` among the answers of a start; three zeros for an entry the plan does not have (log 14). -/
def answerOf (rs : List (Fin 4 × ReserveAnswer)) (e : Fin 4) : ReserveAnswer :=
  ((rs.find? fun x => decide (x.1 = e)).map Prod.snd).getD ⟨0, 0, 0⟩

/-- The payload of a TOUR START reply (R69). -/
def startFields (l : TourLive) (rs : List (Fin 4 × ReserveAnswer)) : List Field :=
  [.known (enc16 l.run.toNat)] ++ (l.channels.items.map optId).flatten ++
  [.known ((indices 4).map fun e => answerBytes (answerOf rs e)).flatten]

/-- The checks of TOUR START from check 2 on, with the plan and the first stop's zone when they pass (R68, R49). -/
def startChecks (s : State) (slot : Fin 16) : Except Status (Plan × Fin 12) :=
  if (s.tour slot).live.phase ≠ .planned then .error .wrongState
  else if s.mge.mode ≠ .opened then .error .hallClosed
  else match (s.tour slot).plan with
    | none => .error .badPlan
    | some p => match p.route with
      | [] => .error .badPlan
      | st :: _ =>
        if !planReady s slot p then .error .badPlan
        else if (freeChannels s).length < (planEntries p).length then .error .noChannel
        else if freeSlots s st.zone < (planEntries p).length then .error .zoneFull
        else .ok (p, st.zone)

/-- TOUR START at TCL (R68, R69). -/
def tourStart (args : List Byte) (s : State) : Answer :=
  match toId 16 (byteAt args 0) with
  | none => refuse .badArgument s
  | some slot => match startChecks s slot with
    | .error status => refuse status s
    | .ok (p, z) =>
      let r := startTour slot p z s
      readAnswer (startFields (r.2.tour slot).live r.1) r.2

/-- TOUR_START (R68). -/
def execTourStart (s : State) : Host.Outcome State Fault Refusal := .next (serveRacks 0x1C tourStart s)

/-- The count of a RESERVE MORE brought within the entry's and the tour's limits (R71). -/
def clampCount (l : TourLive) (e : Fin 4) (n : Nat) : Nat :=
  min n (min (Config.entryLimit - l.asked.get e) (Config.tourLimit - l.asked.items.sum))

/-- RESERVE MORE at TCL (R71). -/
def reserveMore (args : List Byte) (s : State) : Answer :=
  match toId 16 (byteAt args 0), toId 4 (byteAt args 1) with
  | some slot, some e =>
    let l := (s.tour slot).live
    if l.phase ≠ .live then refuse .wrongState s
    else if ((s.tour slot).plan.bind fun p => p.entries.get e).isNone then refuse .notFound s
    else
      let n := byteAt args 2
      let k := clampCount l e n
      let r := reserveFor slot e k (s.putLive slot { l with asked := l.asked.set e (l.asked.get e + k) })
      { status := appliedStatus (decide (k < n)), data := answerBytes r.1, state := r.2 }
  | _, _ => refuse .badArgument s

/-- RESERVE_MORE (R71). -/
def execReserveMore (s : State) : Host.Outcome State Fault Refusal := .next (serveRacks 0x1D reserveMore s)

/-! ### TOUR END and TOUR ABORT -/

/-- TOUR END of a LIVE tour (R81). -/
def endTour (slot : Fin 16) (s : State) : State :=
  let t := releaseRun slot (s.tour slot).live.run s
  let timing := timingOf (t.tour slot)
  let hold := if guideVoice t slot then none else some (timing.closeHold * Config.periodsPerSecond)
  let u := t.putLive slot { (t.tour slot).live with
    phase := .closing, wait := some (timing.maxWait * Config.periodsPerSecond), hold := hold }
  if hold = some 0 then closeTour slot u else u

/-- The counts a TOUR END or TOUR ABORT reply carries (R81, R84). -/
def countBytes (l : TourLive) : List Byte := enc8 l.issued ++ enc8 l.returned

/-- The payload of a TOUR END reply (R81). -/
def endReply (slot : Fin 16) (s : State) : Answer :=
  { status := .done, data := enc8 (s.tour slot).live.phase.code ++ countBytes (s.tour slot).live, state := s }

/-- TOUR END at TCL (R81). -/
def tourEnd (args : List Byte) (s : State) : Answer :=
  match toId 16 (byteAt args 0) with
  | none => refuse .badArgument s
  | some slot =>
    match (s.tour slot).live.phase with
    | .closing => endReply slot s
    | .live => endReply slot (endTour slot s)
    | .free => refuse .wrongState s
    | .planned => refuse .wrongState s

/-- TOUR_END (R81). -/
def execTourEnd (s : State) : Host.Outcome State Fault Refusal := .next (serveRacks 0x1E tourEnd s)

/-- TOUR ABORT at TCL (R84). -/
def tourAbort (args : List Byte) (s : State) : Answer :=
  match toId 16 (byteAt args 0) with
  | none => refuse .badArgument s
  | some slot =>
    if isRunning (s.tour slot) then
      let t := closeTour slot s
      { status := .done, data := countBytes (t.tour slot).live, state := t }
    else refuse .wrongState s

/-- TOUR_ABORT (R84). -/
def execTourAbort (s : State) : Host.Outcome State Fault Refusal := .next (serveRacks 0x1F tourAbort s)

end Sys2Proof.Machine
end

