-- ==== Sys2Proof/Machine/ZoneRequests.lean ====
section
/-! DEFINITION. Requests of the Zone Allocator (R45 to R47, R60). -/

namespace Sys2Proof.Machine

open Sys2Proof

/-- A program is given whose owner is present or whose binding names another channel (R45 check 4). -/
def boundElsewhere (s : State) (ch : Fin 24) (p : Fin 32) : Bool :=
  (s.program p).owner.isSome || match (s.program p).binding with
    | some c => decide (c ≠ ch)
    | none => false

/-- Some zone of the given set would carry more than 8 channels (R45 check 5). -/
def zoneFull (s : State) (ch : Fin 24) (zs : ZoneSet) : Bool :=
  (indices 12).any fun z => zs.getLsbD z.val &&
    decide (Config.zoneCapacity < (s.zone z).carried + (1 - inSet z (s.channel ch).zones))

/-- The change of R46, before the released slots are served. -/
def changeChannel (ch : Fin 24) (given : Option (Fin 32)) (zs : ZoneSet) (s : State) : State :=
  match given, (s.channel ch).program with
  | none, _ => if (s.channel ch).phase = .free then s else freeChannel ch s
  | some p, some q => if p = q then setZones ch zs s else bindChannel ch .standing p zs (unbindProgram q s)
  | some p, none => bindChannel ch .standing p zs s

/-- LOAD CHANNEL at ZAL (R45, R46). -/
def loadChannel (args : List Byte) (s : State) : Answer :=
  match parseChannel args with
  | none => refuse .badArgument s
  | some (ch, given, zs) =>
    let kept := match given with
      | some _ => zs
      | none => 0#12
    let released := (s.channel ch).zones &&& ~~~kept
    let applied := answer .done (serveZones released (changeChannel ch given zs s))
    if (s.channel ch).phase = .tour then refuse .wrongState s
    else match given with
      | none => applied
      | some p =>
        if !programLoaded (s.program p) then refuse .notFound s
        else if boundElsewhere s ch p then refuse .wrongState s
        else if zoneFull s ch zs then refuse .zoneFull s
        else applied

/-- LOAD_CHANNEL (R45). -/
def execLoadChannel (s : State) : Host.Outcome State Fault Refusal := .next (serve 0x10 loadChannel s)

/-- A channel is on air while its program is on air (R43). -/
def channelOnAir (s : State) (c : Channel) : Bool :=
  decide (c.phase ≠ .free) && decide (s.mge.mode = .opened)

/-- The payload of READ CHANNEL (R47). The two bytes of an absent owner, a slot and an entry under one presence flag, are
free values (log 3). -/
def channelFields (s : State) (c : Channel) : List Field :=
  let owner := match c.phase, c.program with
    | .tour, some p => (s.program p).owner
    | _, _ => none
  [.known (enc8 c.phase.code)] ++ optId c.program ++
  [.known (enc16 c.zones.toNat ++ enc16 c.seq.toNat ++ encFlag (channelOnAir s c))] ++
  optField 2 (owner.map fun o => enc8 o.1.val ++ enc8 o.2.val)

/-- READ CHANNEL at ZAL (R47). -/
def readChannel (args : List Byte) (s : State) : Answer :=
  match toId 24 (byteAt args 0) with
  | none => refuse .badArgument s
  | some ch => readAnswer (channelFields s (s.channel ch)) s

/-- READ_CHANNEL (R47). -/
def execReadChannel (s : State) : Host.Outcome State Fault Refusal := .next (serve 0x11 readChannel s)

/-- The channels whose zone set contains a zone, bit c for channel c (R60). -/
def channelSet (s : State) (z : Fin 12) : Nat :=
  ((indices 24).map fun c => if (s.channel c).zones.getLsbD z.val then 2 ^ c.val else 0).sum

/-- The payload of READ ZONE (R60). -/
def zoneFields (s : State) (z : Fin 12) : List Field :=
  let r := s.zone z
  [.known (enc8 r.carried ++ enc8 (freeSlots s z) ++ enc24 (channelSet s z) ++ enc8 r.queue.length ++
    (r.queue.map fun w => enc8 w.slot.val ++ enc16 (s.tour w.slot).live.run.toNat ++ enc8 w.need).flatten)]

/-- READ ZONE at ZAL (R60). -/
def readZone (args : List Byte) (s : State) : Answer :=
  match toId 12 (byteAt args 0) with
  | none => refuse .badArgument s
  | some z => readAnswer (zoneFields s z) s

/-- READ_ZONE (R60). -/
def execReadZone (s : State) : Host.Outcome State Fault Refusal := .next (serve 0x12 readZone s)

end Sys2Proof.Machine
end

