-- ==== Sys2Proof/Machine/Dispatch.lean ====
section
/-! DEFINITION. The meaning of every command, one arm per row of spec/opcode_table.json. -/

namespace Sys2Proof.Machine

open Sys2Proof

/-- The effect of a command on everything but the queue of commands. -/
def exec (i : Instr) (s : State) : Host.Outcome State Fault Refusal :=
  match i with
  | .powerOn straps => Sys2Proof.Machine.execPowerOn straps s
  | .pinReset straps => Sys2Proof.Machine.execPinReset straps s
  | .linkUp => Sys2Proof.Machine.execLinkUp s
  | .linkDown => Sys2Proof.Machine.execLinkDown s
  | .frameRejected frame => Sys2Proof.Machine.execFrameRejected frame s
  | .audioUp frame => Sys2Proof.Machine.execAudioUp frame s
  | .bayStatus frame => Sys2Proof.Machine.execBayStatus frame s
  | .dockNotice frame => Sys2Proof.Machine.execDockNotice frame s
  | .mgmtRequest frame => Sys2Proof.Machine.execMgmtRequest frame s
  | .badRequest => Sys2Proof.Machine.execBadRequest s
  | .replyAccepted => Sys2Proof.Machine.execReplyAccepted s
  | .loadSource => Sys2Proof.Machine.execLoadSource s
  | .readSource => Sys2Proof.Machine.execReadSource s
  | .loadProgram => Sys2Proof.Machine.execLoadProgram s
  | .stageGain => Sys2Proof.Machine.execStageGain s
  | .applyGains => Sys2Proof.Machine.execApplyGains s
  | .readProgram => Sys2Proof.Machine.execReadProgram s
  | .loadChannel => Sys2Proof.Machine.execLoadChannel s
  | .readChannel => Sys2Proof.Machine.execReadChannel s
  | .readZone => Sys2Proof.Machine.execReadZone s
  | .loadTourPlan => Sys2Proof.Machine.execLoadTourPlan s
  | .loadTourTiming => Sys2Proof.Machine.execLoadTourTiming s
  | .clearTour => Sys2Proof.Machine.execClearTour s
  | .readTour => Sys2Proof.Machine.execReadTour s
  | .tourStart => Sys2Proof.Machine.execTourStart s
  | .reserveMore => Sys2Proof.Machine.execReserveMore s
  | .tourEnd => Sys2Proof.Machine.execTourEnd s
  | .tourAbort => Sys2Proof.Machine.execTourAbort s
  | .enrol => Sys2Proof.Machine.execEnrol s
  | .retire => Sys2Proof.Machine.execRetire s
  | .readReceiver => Sys2Proof.Machine.execReadReceiver s
  | .loadRackConfig => Sys2Proof.Machine.execLoadRackConfig s
  | .readRack => Sys2Proof.Machine.execReadRack s
  | .readBay => Sys2Proof.Machine.execReadBay s
  | .loadLevelCurve => Sys2Proof.Machine.execLoadLevelCurve s
  | .loadThermalTable => Sys2Proof.Machine.execLoadThermalTable s
  | .readThermalTable => Sys2Proof.Machine.execReadThermalTable s
  | .readEvents => Sys2Proof.Machine.execReadEvents s
  | .flushEvents => Sys2Proof.Machine.execFlushEvents s
  | .enableSet => Sys2Proof.Machine.execEnableSet s
  | .enableClear => Sys2Proof.Machine.execEnableClear s
  | .setHallMode => Sys2Proof.Machine.execSetHallMode s
  | .restart => Sys2Proof.Machine.execRestart s
  | .setTime => Sys2Proof.Machine.execSetTime s
  | .readIdentity => Sys2Proof.Machine.execReadIdentity s
  | .readCounters => Sys2Proof.Machine.execReadCounters s
  | .setHallSettings => Sys2Proof.Machine.execSetHallSettings s
  | .mixPoint => Sys2Proof.Machine.execMixPoint s
  | .sourceStale source => Sys2Proof.Machine.execSourceStale source s
  | .voiceFlagClear source => Sys2Proof.Machine.execVoiceFlagClear source s
  | .windowEnd slot => Sys2Proof.Machine.execWindowEnd slot s
  | .guideQuiet slot => Sys2Proof.Machine.execGuideQuiet slot s
  | .fallbackWrite slot => Sys2Proof.Machine.execFallbackWrite slot s
  | .closeHoldExpiry slot => Sys2Proof.Machine.execCloseHoldExpiry slot s
  | .closeWaitExpiry slot => Sys2Proof.Machine.execCloseWaitExpiry slot s
  | .hubTimeTick => Sys2Proof.Machine.execHubTimeTick s
  | .overdue handle => Sys2Proof.Machine.execOverdue handle s
  | .spacingTimerExpiry rack => Sys2Proof.Machine.execSpacingTimerExpiry rack s
  | .pollPlaced => Sys2Proof.Machine.execPollPlaced s
  | .pollTimeout rack => Sys2Proof.Machine.execPollTimeout rack s
  | .dockSettleExpiry bay => Sys2Proof.Machine.execDockSettleExpiry bay s
  | .turnSettleExpiry bay => Sys2Proof.Machine.execTurnSettleExpiry bay s
  | .bayCommandPlaced => Sys2Proof.Machine.execBayCommandPlaced s
  | .framePlaced => Sys2Proof.Machine.execFramePlaced s
  | .cadenceExpiry rack => Sys2Proof.Machine.execCadenceExpiry rack s
  | .turnExpiry rack bay => Sys2Proof.Machine.execTurnExpiry rack bay s

end Sys2Proof.Machine
end

