-- ==== Sys2Proof/Safety.lean ====
section
/-! DEFINITION. What claims speak of: the parts of the hub a command may change, the request in service, and the rules that
hold between commands. -/

namespace Sys2Proof.Machine

open Sys2Proof

/-! ### Parts of the state -/

/-- The parts into which claims divide the state. -/
inductive Part where
  /-- elapsed time and its next moments -/
  | clock
  /-- the Source Table -/
  | sources
  /-- the Program Table and the apply request -/
  | programs
  /-- the Channel Table and the Zone Table -/
  | zones
  /-- the Tour Table -/
  | tours
  /-- the Receiver Table -/
  | receivers
  /-- the counters of R110 -/
  | fleetCounters
  /-- the loaded fields of the racks -/
  | rackConfigs
  /-- the live fields of the racks -/
  | rackLives
  /-- the Bay Table -/
  | bays
  /-- the Level Curve -/
  | curve
  /-- the counter of unrouted rack frames -/
  | unroutedRack
  /-- the rack sender -/
  | sender
  /-- the scheduler part of the racks -/
  | sched
  /-- the Thermal Band Table -/
  | bandTable
  /-- the Event Enable Table -/
  | enables
  /-- the event queue, its overflow flag and its drop counter -/
  | events
  /-- the desk address -/
  | desk
  /-- the station address -/
  | station
  /-- the link state -/
  | link
  /-- the egress arbiter, the transmit pair and the link counters -/
  | egress
  /-- the request queue, the request in service and MGE's counters -/
  | requests
  /-- the hall mode -/
  | mode
  /-- the hub time -/
  | hubTime
  /-- the hall settings -/
  | settings
  /-- the count of free values used -/
  | choices
  /-- the queue of commands -/
  | pending
  deriving DecidableEq, Repr

/-- A part is the same in two states. -/
def Part.same (p : Part) (s t : State) : Prop :=
  match p with
  | .clock => t.clock = s.clock
  | .sources => t.siu = s.siu
  | .programs => t.mxr = s.mxr
  | .zones => t.zal = s.zal
  | .tours => t.tcl = s.tcl
  | .receivers => t.flt.receivers = s.flt.receivers
  | .fleetCounters => t.flt.unknownDocks = s.flt.unknownDocks ∧ t.flt.unplannedTakes = s.flt.unplannedTakes ∧
      t.flt.lateReturns = s.flt.lateReturns
  | .rackConfigs => ∀ r, (t.rack r).config = (s.rack r).config
  | .rackLives => ∀ r, (t.rack r).live = (s.rack r).live
  | .bays => t.rpl.bays = s.rpl.bays
  | .curve => t.rpl.curve = s.rpl.curve
  | .unroutedRack => t.rpl.unroutedRack = s.rpl.unroutedRack
  | .sender => t.rpl.senderHolds = s.rpl.senderHolds ∧ t.rpl.lastRack = s.rpl.lastRack ∧ t.rpl.lastBay = s.rpl.lastBay
  | .sched => t.chs.sched = s.chs.sched
  | .bandTable => t.chs.table = s.chs.table
  | .enables => t.evq.enables = s.evq.enables
  | .events => t.evq.queue = s.evq.queue ∧ t.evq.overflow = s.evq.overflow ∧ t.evq.drops = s.evq.drops
  | .desk => t.evq.desk = s.evq.desk
  | .station => t.hli.station = s.hli.station
  | .link => t.hli.linkUp = s.hli.linkUp
  | .egress => t.hli.placing = s.hli.placing ∧ t.hli.class1 = s.hli.class1 ∧ t.hli.class2 = s.hli.class2 ∧
      t.hli.class3 = s.hli.class3 ∧ t.hli.counters = s.hli.counters ∧ t.hli.lineOut = s.hli.lineOut
  | .requests => t.mge.requests = s.mge.requests ∧ t.mge.service = s.mge.service ∧ t.mge.received = s.mge.received ∧
      t.mge.busyReplies = s.mge.busyReplies ∧ t.mge.badRequests = s.mge.badRequests
  | .mode => t.mge.mode = s.mge.mode
  | .hubTime => t.mge.hubTime = s.mge.hubTime
  | .settings => t.mge.settings = s.mge.settings
  | .choices => t.choices = s.choices
  | .pending => t.pending = s.pending

/-- Every part but those listed is the same in both states. -/
def KeepsAllBut (changed : List Part) (s t : State) : Prop := ∀ p : Part, p ∉ changed → p.same s t

/-! ### What each command may change -/

/-- The parts that serving a request changes besides what its owner's action changes (R168, R181). -/
def replyParts : List Part := [.requests, .egress]

/-- The parts that raising an event may change: the queue, and the arbiter by an ATTENTION (R176). -/
def eventParts : List Part := [.events, .egress]

/-- The parts that the rack sender may change (R132). -/
def senderParts : List Part := [.bays, .sender, .egress]

/-- The parts that the close actions of a tour may change (R85, R50, R107). -/
def closeParts : List Part := [.receivers, .bays, .tours, .programs, .zones, .events, .egress]

/-- The parts that an audio frame may change: its source, and the tour it guides (R6 to R8, R17, R18, R72). -/
def audioParts : List Part := [.sources, .tours, .programs, .zones, .events, .egress]

/-- The parts that a dock notice may change (R112, R122 to R124). -/
def noticeParts : List Part :=
  [.unroutedRack, .rackLives, .bays, .sched, .receivers, .tours, .fleetCounters, .sender, .events, .egress]

/-- The parts that a bay status may change: as a notice, with the free value of an odd fault code (R120, log 4). -/
def statusParts : List Part := .choices :: noticeParts

/-- The parts that taking a management request may change (R176, R180). -/
def requestParts : List Part := .desk :: replyParts

/-- The parts that each command may change, by the rules of its row; every other part is the same after it. -/
def mayChange : Instr → List Part
  | .powerOn _ | .pinReset _ =>
    [.clock, .sources, .programs, .zones, .tours, .receivers, .fleetCounters, .rackConfigs, .rackLives, .bays, .curve,
      .unroutedRack, .sender, .sched, .bandTable, .enables, .events, .desk, .station, .link, .egress, .requests, .mode,
      .hubTime, .settings]
  | .linkUp => [.link, .egress]
  | .linkDown => .link :: .rackLives :: senderParts
  | .frameRejected _ => audioParts ++ statusParts ++ requestParts
  | .audioUp _ => audioParts
  | .bayStatus _ => statusParts
  | .dockNotice _ => noticeParts
  | .mgmtRequest _ => requestParts
  | .badRequest | .replyAccepted | .readIdentity | .readCounters => replyParts
  | .readSource | .readProgram | .readChannel | .readZone | .readTour | .readReceiver | .readRack | .readBay
  | .readThermalTable => .choices :: replyParts
  | .loadSource => .sources :: replyParts
  | .loadProgram | .stageGain | .applyGains => .programs :: replyParts
  | .loadChannel => [.zones, .tours, .programs, .events] ++ replyParts
  | .loadTourPlan | .loadTourTiming | .clearTour => .tours :: replyParts
  | .tourStart => [.zones, .tours, .programs, .receivers, .events, .choices] ++ senderParts ++ replyParts
  | .reserveMore => [.tours, .receivers] ++ senderParts ++ replyParts
  | .tourEnd | .tourAbort => closeParts ++ senderParts ++ replyParts
  | .enrol => .receivers :: senderParts ++ replyParts
  | .retire => [.receivers, .sched] ++ senderParts ++ replyParts
  | .loadRackConfig => [.rackConfigs, .rackLives, .sched, .events] ++ senderParts ++ replyParts
  | .loadLevelCurve => .curve :: replyParts
  | .loadThermalTable => [.bandTable, .sched, .events] ++ senderParts ++ replyParts
  | .readEvents | .flushEvents => .events :: replyParts
  | .enableSet | .enableClear => .enables :: replyParts
  | .setHallMode => [.mode, .sched] ++ closeParts ++ senderParts ++ replyParts
  | .restart =>
    [.mode, .sched, .sources, .fleetCounters, .rackLives, .unroutedRack] ++ closeParts ++ senderParts ++ replyParts
  | .setTime => [.clock, .hubTime, .receivers, .events] ++ replyParts
  | .setHallSettings => .settings :: replyParts
  | .mixPoint => [.clock, .sources, .choices] ++ closeParts ++ senderParts
  | .sourceStale _ => .sources :: eventParts
  | .voiceFlagClear _ => [.sources]
  | .windowEnd _ => [.zones, .tours] ++ eventParts
  | .guideQuiet _ => .tours :: eventParts
  | .fallbackWrite _ => [.tours, .programs] ++ eventParts
  | .closeHoldExpiry _ | .closeWaitExpiry _ => closeParts ++ senderParts
  | .hubTimeTick => [.clock, .hubTime, .receivers] ++ eventParts
  | .overdue _ => .receivers :: eventParts
  | .spacingTimerExpiry _ => [.clock, .rackLives, .egress]
  | .pollPlaced => [.rackLives, .egress]
  | .pollTimeout _ => [.clock, .rackLives, .sched, .events] ++ senderParts
  | .dockSettleExpiry _ | .turnSettleExpiry _ => [.clock, .bays]
  | .bayCommandPlaced => senderParts
  | .framePlaced => [.egress]
  | .cadenceExpiry _ => [.clock, .sched, .receivers, .events] ++ senderParts
  | .turnExpiry _ _ => [.clock, .sched, .receivers] ++ senderParts

/-! ### The request in service and arriving frames -/

/-- The request in service is this well-formed request of this code (R181). -/
def Serving (s : State) (code : Nat) (req : Request) : Prop :=
  s.mge.service = .taken req ∧ requestCode req = code ∧ wellFormedRequest req = true

/-- A frame arrives over a link that is UP and passes the checks of R161, with this kind, source and payload. -/
def Arrives (s : State) (frame : List Byte) (kind : IngressKind) (source : Station) (payload : List Byte) : Prop :=
  s.hli.linkUp = true ∧ judgeFrame s.hli.station frame = .accepted kind source payload

/-- A rack frame from this station belongs to this rack: the one enabled rack with the station (R112). -/
def FrameOfRack (s : State) (station : Station) (rack : Fin 12) : Prop :=
  ((s.rack rack).config.enabled = true ∧ (s.rack rack).config.station = station) ∧
  ∀ r, (s.rack r).config.enabled = true → (s.rack r).config.station = station → r = rack

/-- The tag a bay status shows: none for an empty bay; the fields are all well-formed (Table 8-6, R112, R163). -/
def StatusShows (payload : List Byte) (shown : Option RxTag) : Prop :=
  payload.length = 12 ∧ byteAt payload 8 ≤ 2 ∧
  (byteAt payload 9 = 255 ∨ (byteAt payload 9 < 24 ∧ byteAt payload 10 ≤ 1)) ∧
  ((byteAt payload 1 = 0 ∧ shown = none) ∨
    (byteAt payload 1 = 1 ∧ tripleAt payload 2 ≠ 0 ∧ shown = some (BitVec.ofNat 24 (tripleAt payload 2))))

/-- The bay holds the receiver with this tag: KNOWN with the handle of a record of that tag, or FOREIGN with it (R121). -/
def BayHolds (s : State) (a : Fin 288) (tag : RxTag) : Prop :=
  (∃ h r, (s.bay a).presence = .known h ∧ s.receiver h = some r ∧ r.tag = tag) ∨ (s.bay a).presence = .foreign tag

/-! ### Events and closes -/

/-- Between two states these events were raised, in this order, and the Event Queue judged each: the enabled ones stand
at the tail of the queue as far as its 64 places reach, and those beyond them are dropped and counted (R171, R172,
R175). -/
def EventsTaken (es : List EventRecord) (s t : State) : Prop :=
  let judged := es.filter fun e => s.evq.enables.getLsbD e.kind.code
  let room := Config.eventCapacity - s.evq.queue.length
  t.evq.queue = s.evq.queue ++ judged.take room ∧
  t.evq.overflow = (s.evq.overflow || decide (room < judged.length)) ∧
  t.evq.drops = if judged.length ≤ room then s.evq.drops
    else min (s.evq.drops + (judged.length - room)) Config.max32

/-- The live record of a slot as the close actions leave it: PLANNED, with the run, the stop index and the counts kept
and every other field absent or zero (R85 step 6); the current zone is absent, the model's reading (log 28). -/
def LiveClosed (old new : TourLive) : Prop :=
  new.phase = .planned ∧ new.run = old.run ∧ new.stop = old.stop ∧ (∀ e, new.channels.get e = none) ∧
  new.zone = none ∧ new.prevZone = none ∧ new.window = none ∧ new.target = none ∧ new.stage = 0 ∧ new.timer = 0 ∧
  new.fallback = .off ∧ new.hold = none ∧ new.wait = none ∧ new.asked = old.asked ∧ new.issued = old.issued ∧
  new.returned = old.returned ∧ new.short = old.short ∧ new.unfilled = old.unfilled

/-- What the close actions make of a present record, by whether it is RESERVED or ISSUED in the run (R105, R106, R107).
A DUE record whose deadline the hub time has reached is OVERDUE. -/
def ReceiverClosed (slot : Fin 16) (run : BitVec 16) (deadline hubTime : Nat) (r r' : Receiver) : Prop :=
  let mine := r.tour.map (fun x => (x.slot, x.run)) = some (slot, run)
  let late (d : Nat) : RxState := if d ≤ hubTime then .overdue else .due
  if mine ∧ r.phase = .reserved then
    r' = { r with phase := .docked, tour := none, short := false, required := none }
  else if mine ∧ r.phase = .issued then r' = { r with phase := late deadline, deadline := some deadline }
  else r' = { r with phase := if r.phase = .due then (r.deadline.map late).getD .due else r.phase }

/-- A tour has been closed between two states: its live record, every receiver, the programs of its entries and the
channels it held (R85). Zone sets are judged for channels that no other tour holds. -/
def TourClosed (slot : Fin 16) (s t : State) : Prop :=
  LiveClosed (s.tour slot).live (t.tour slot).live ∧
  (t.tour slot).plan = (s.tour slot).plan ∧ (t.tour slot).timing = (s.tour slot).timing ∧
  (∀ h, s.receiver h = none → t.receiver h = none) ∧
  (∀ h r, s.receiver h = some r → ∃ r', t.receiver h = some r' ∧
    ReceiverClosed slot (s.tour slot).live.run (dueDeadline s) s.mge.hubTime r r') ∧
  (∀ p e x, (s.tour slot).plan = some p → p.entries.get e = some x →
    (t.program x.program).owner = none ∧ (t.program x.program).fallback = none) ∧
  (∀ e ch, (s.tour slot).live.channels.get e = some ch →
    (t.channel ch).phase = .free ∧ (t.channel ch).program = none ∧ (t.channel ch).seq = (s.channel ch).seq ∧
    ((∀ k, k ≠ slot → ∀ e', (s.tour k).live.channels.get e' ≠ some ch) → (t.channel ch).zones = 0#12))

/-! ### What holds between commands -/

/-- The number of channels whose zone set contains a zone. -/
def zoneLoad (s : State) (z : Fin 12) : Nat :=
  ((indices 24).filter fun c => (s.channel c).zones.getLsbD z.val).length

/-- Every carried count is the number of channels whose zone set contains the zone (R44). -/
def ZonesCounted (s : State) : Prop := ∀ z, (s.zone z).carried = zoneLoad s z

/-- A tour as the Zone Allocator sees it: its channels are TOUR channels of its own, carried in its current zone and, while
a window is open, in the previous one; it waits for a zone only with no window open, for a zone other than its own. While
it is LIVE or CLOSING it has a current zone, and otherwise it holds nothing (R43, R49, R51). -/
def TourPlaced (s : State) (slot : Fin 16) : Prop :=
  let l := (s.tour slot).live
  (∀ e ch, l.channels.get e = some ch → (s.channel ch).phase = .tour ∧ l.zone.isSome = true ∧
    (∀ z : Fin 12, (s.channel ch).zones.getLsbD z.val = decide (l.zone = some z ∨ l.prevZone = some z)) ∧
    ∀ k e', (s.tour k).live.channels.get e' = some ch → k = slot ∧ e' = e) ∧
  (l.target.isSome = true → l.prevZone = none ∧ l.target ≠ l.zone) ∧
  (l.prevZone.isSome = true → l.prevZone ≠ l.zone) ∧
  (isRunning (s.tour slot) = true → l.zone.isSome = true) ∧
  (isRunning (s.tour slot) = false → (∀ e, l.channels.get e = none) ∧ l.target = none ∧ l.prevZone = none)

/-- No zone carries more than 8 channels, every carried count is right, every tour is placed, and the tours of a wait queue
are those that wait for its zone, each with room for its channels asked, and a FREE channel has no program and no zone
(R43, R44, R51, R53). -/
def ZonesPlaced (s : State) : Prop :=
  ZonesCounted s ∧ (∀ z, (s.zone z).carried ≤ Config.zoneCapacity) ∧ (∀ slot, TourPlaced s slot) ∧
  (∀ ch, (s.channel ch).phase = .free → (s.channel ch).program = none ∧ (s.channel ch).zones = 0#12) ∧
  ∀ z w, w ∈ (s.zone z).queue → (s.tour w.slot).live.target = some z ∧ (s.tour w.slot).live.zone.isSome = true ∧
    tourNeed (s.tour w.slot).live ≤ w.need

/-- The event queue, the request queue and class 3 of the arbiter stay within their capacities, and each class holds the
frames of its own kinds (R171, R180, R168, Table 8-4). -/
def QueuesBounded (s : State) : Prop :=
  s.evq.queue.length ≤ Config.eventCapacity ∧ s.mge.requests.length ≤ Config.requestCapacity ∧
  class3Held s.hli ≤ Config.class3Capacity ∧
  (∀ f ∈ s.hli.class1, ∃ ch, f.origin = .program ch) ∧
  (∀ f ∈ s.hli.class2, f.origin = .bayCommand ∨ ∃ r b v, f.origin = .poll r b v) ∧
  (∀ f ∈ s.hli.class3, f.origin = .reply ∨ f.origin = .attention)

/-- The arbiter places a frame whenever it holds one and the link is UP, and holds none while it is DOWN
(R164, R165). -/
def ArbiterSettled (s : State) : Prop :=
  (s.hli.placing = none → heldFrames s.hli = []) ∧ (s.hli.linkUp = false → s.hli.placing = none)

/-- A bay that is EMPTY is bare (R121), and a settle end stands exactly while a DOCK or TURN settle runs (R125). -/
def BaysSettled (s : State) : Prop :=
  ∀ a, ((s.bay a).presence = .empty → (s.bay a).level = none ∧ (s.bay a).voltage = none ∧
      (s.bay a).ready = false ∧ (s.bay a).full = false ∧ (s.bay a).fault = false ∧ (s.bay a).settle = .none) ∧
    ((s.bay a).settleEnds.isSome = true ↔ (s.bay a).settle = .dock ∨ (s.bay a).settle = .turn)

/-- The fields of a receiver record that its state decides: a bay exactly in DOCKED and RESERVED, the tour fields from the
reservation until the next dock, the deadline in DUE and OVERDUE, and a short flag or a required level in no state but
RESERVED (R88, R89). -/
def ReceiverSettled (r : Receiver) : Prop :=
  (r.bay.isSome = true ↔ r.phase = .docked ∨ r.phase = .reserved) ∧
  (r.tour.isSome = true ↔ r.phase = .reserved ∨ r.phase = .issued ∨ r.phase = .due ∨ r.phase = .overdue) ∧
  (r.deadline.isSome = true ↔ r.phase = .due ∨ r.phase = .overdue) ∧
  (r.phase ≠ .reserved → r.short = false ∧ r.required = none)

/-- The Receiver Table and the Bay Table are paired: no two records share a tag; a bay that a record names is KNOWN with its
handle, and a KNOWN bay is the one that its record names, so that no two records share a bay; every record is as its state
has it; a RESERVED record names a LIVE tour, an ISSUED one a LIVE or CLOSING tour, with the tour's run number and the
channel of its entry (R88, R89, R121). -/
def FleetPaired (s : State) : Prop :=
  (∀ h h' r r', s.receiver h = some r → s.receiver h' = some r' → r.tag = r'.tag → h = h') ∧
  (∀ h r a, s.receiver h = some r → r.bay = some a → (s.bay a).presence = .known h) ∧
  (∀ a h, (s.bay a).presence = .known h → ∃ r, s.receiver h = some r ∧ r.bay = some a) ∧
  ∀ h r, s.receiver h = some r → ReceiverSettled r ∧ ∀ ref, r.tour = some ref →
    let l := (s.tour ref.slot).live
    (r.phase = .reserved → l.phase = .live ∧ l.run = ref.run ∧ l.channels.get ref.entry = some ref.channel) ∧
    (r.phase = .issued → (l.phase = .live ∨ l.phase = .closing) ∧ l.run = ref.run ∧
      l.channels.get ref.entry = some ref.channel)

/-- C is the lesser of band cap and hall-mode capacity, no rack has more active turns than C (R141), and the postponed
and pulled-in counts stay within the limits of the band (R146). -/
def ChargeBounded (s : State) : Prop :=
  ∀ r, (s.sched r).capacity = capacityOf s r ∧ (s.sched r).active.length ≤ (s.sched r).capacity ∧
    ∀ e, bandEntry s r = some e → (s.sched r).postponed ≤ e.pMax ∧ (s.sched r).pulledIn ≤ e.iMax

end Sys2Proof.Machine
end

