-- ==== Sys2Proof/Certificates/Slice0/Obligations.lean ====
section
/-! DEFINITION. The statements for the provers, chapter by chapter of the manual. -/

open Sys2Proof Sys2Proof.Machine

/-! ### The queue of commands, resets and the whole machine -/

/-- A step runs the command at the front of the queue with the queue's rest; on an empty queue the block idles
(DESIGN CHOICE, log 1). -/
def Obligations.StepTakesFrontCommand : Prop :=
  (∀ (c : Instr) (rest : List Instr) (s : State), step (s.withPending (c :: rest)) = exec c (s.withPending rest)) ∧
  ∀ s : State, s.pending = [] → step s = .next s

/-- Power-on and pin reset act alike: the straps give the station address, the link is DOWN until the first lock, and
every table, queue, counter and setting has the value the manual gives it at reset (R4, R41, R61, R87, R111, R136, R158,
R159, R164, R170, R179, R188). The hub time is 0 and first rises one second after the reset; that elapsed time is counted
from the reset and the first mix point stands at 4 ms is the model's (log 1), and so is that a slot's current zone is absent
and not 0 (log 28). The model's own fields are kept (log 18), but for the transmit pair's, which is absent (log 20). -/
def Obligations.ResetsLeaveResetValues : Prop :=
  ∀ (straps : BitVec 4) (s : State), ∃ t,
    exec (.powerOn straps) s = .next t ∧ exec (.pinReset straps) s = .next t ∧
    t.clock = ⟨0, 4, 1000⟩ ∧ t.choices = s.choices ∧ t.pending = s.pending ∧ t.hli.lineOut = none ∧
    t.hli.station.toNat = 0x0F00 + straps.toNat ∧ t.hli.linkUp = false ∧ heldFrames t.hli = [] ∧
    t.hli.counters = ⟨0, 0, 0, 0, 0, 0, 0, 0, 0, 0, 0, 0⟩ ∧
    (∀ i, t.source i = none) ∧
    (∀ p, (t.program p).installed = none ∧ (t.program p).pendingRec = none ∧
      (∀ k, (t.program p).staged.get k = none) ∧ (t.program p).fallback = none ∧ (t.program p).owner = none ∧
      (t.program p).binding = none ∧ (t.program p).duck = 32768 ∧ (t.program p).clipped = 0) ∧
    t.mxr.applyRequest = false ∧
    (∀ c, t.channel c = ⟨.free, none, 0#12, 0#16⟩) ∧ (∀ z, t.zone z = ⟨0, []⟩) ∧
    (∀ k, (t.tour k).plan = none ∧ (t.tour k).timing = none ∧ (t.tour k).live.phase = .free ∧
      (t.tour k).live.run = 0#16 ∧ (t.tour k).live.stop = 0 ∧ (∀ e, (t.tour k).live.channels.get e = none) ∧
      (t.tour k).live.zone = none ∧ (t.tour k).live.prevZone = none ∧ (t.tour k).live.window = none ∧
      (t.tour k).live.target = none ∧ (t.tour k).live.stage = 0 ∧ (t.tour k).live.timer = 0 ∧
      (t.tour k).live.fallback = .off ∧ (t.tour k).live.hold = none ∧ (t.tour k).live.wait = none ∧
      (∀ e, (t.tour k).live.asked.get e = 0) ∧
      (t.tour k).live.reserved = 0 ∧ (t.tour k).live.issued = 0 ∧ (t.tour k).live.returned = 0 ∧
      (t.tour k).live.short = 0 ∧ (t.tour k).live.unfilled = 0) ∧
    (∀ h, t.receiver h = none) ∧ t.flt.unknownDocks = 0 ∧ t.flt.unplannedTakes = 0 ∧ t.flt.lateReturns = 0 ∧
    (∀ r, (t.rack r).config = ⟨false, 0#16, 0, 23, 50, 3, 6, 60, 300⟩ ∧
      (t.rack r).live = ⟨.disabled, 0, none, none, none, none, 0, none, ⟨0, 0, 0, 0, 0⟩⟩) ∧
    (∀ a, t.bay a =
      ⟨.empty, none, none, false, false, false, false, false, .none, none, .off, none, none, none, false, false⟩) ∧
    t.rpl.curve.items =
      [⟨3000, 0⟩, ⟨3450, 5⟩, ⟨3600, 20⟩, ⟨3700, 40⟩, ⟨3800, 60⟩, ⟨3950, 80⟩, ⟨4100, 95⟩, ⟨4200, 100⟩] ∧
    t.rpl.unroutedRack = 0 ∧ t.rpl.senderHolds = false ∧ t.rpl.lastRack = 11 ∧ (∀ r, t.rpl.lastBay.get r = 23) ∧
    (∀ r, t.sched r = ⟨none, 0, [], 0, 0, 0#16, none, ⟨0, 0, 0⟩⟩) ∧
    t.chs.table.bounds.items = [5, 15, 25, 32, 38, 43, 50] ∧
    t.chs.table.entries.items =
      [⟨0, 1, 0, 0, false⟩, ⟨2, 4, 2, 0, true⟩, ⟨4, 2, 4, 2, true⟩, ⟨6, 1, 8, 4, true⟩, ⟨4, 1, 6, 2, true⟩,
        ⟨2, 2, 2, 0, true⟩, ⟨0, 1, 0, 0, true⟩, ⟨0, 1, 0, 0, false⟩] ∧
    t.evq.enables = BitVec.allOnes 31 ∧ t.evq.queue = [] ∧ t.evq.overflow = false ∧ t.evq.drops = 0 ∧
    t.evq.desk = none ∧
    t.mge = ⟨[], .idle, .closed, 0, ⟨80, 98, 15, false⟩, 0, 0, 0⟩

/-- What the invariants of this file say holds right after reset. -/
def Obligations.ResetMeetsInvariants : Prop :=
  ∀ straps : BitVec 4, ZonesPlaced (State.atReset straps) ∧ QueuesBounded (State.atReset straps) ∧
    ArbiterSettled (State.atReset straps) ∧ BaysSettled (State.atReset straps) ∧ FleetPaired (State.atReset straps) ∧
    ChargeBounded (State.atReset straps)

/-- Every command changes only the parts of the hub that the rules of its row name, whatever the state and the operands,
and leaves every other table, queue, counter and setting as it was. -/
def Obligations.CommandsChangeOnlyTheirParts : Prop :=
  ∀ (c : Instr) (s t : State), c.wellFormed = true → exec c s = .next t → KeepsAllBut (mayChange c) s t

/-- Every zone's carried count stays the number of channels whose zone set contains it, whatever command is taken
(R44). -/
def Obligations.ZonesStayCounted : Prop :=
  ∀ s t : State, ZonesCounted s → step s = .next t → ZonesCounted t

/-- No zone ever carries more than 8 channels: every tour stays in one of the handover states of R51, with a current zone
while it runs, the wait queues hold the tours that wait for their zone, and every count stays right and at most 8, whatever
command is taken (R44, R49, R51). -/
def Obligations.ZonesNeverOverfull : Prop :=
  ∀ s t : State, ZonesPlaced s → step s = .next t → ZonesPlaced t

/-- The event queue never holds more than 64 records, the request queue no more than 4 requests and class 3 no more than
8 frames, whatever command is taken (R171, R180, R168). That the frame being placed counts among those of class 3 is
log 12. -/
def Obligations.QueuesStayBounded : Prop :=
  ∀ s t : State, QueuesBounded s → step s = .next t → QueuesBounded t

/-- The arbiter never leaves the link free while it holds a frame, and holds none while the link is DOWN, whatever command
is taken (R164, R165). -/
def Obligations.ArbiterStaysSettled : Prop :=
  ∀ s t : State, ArbiterSettled s → step s = .next t → ArbiterSettled t

/-- An EMPTY bay stays bare and a settle end stands exactly while a settle runs (R121, R125), and the Receiver Table and the
Bay Table stay paired: a record has a bay exactly when it is DOCKED or RESERVED, that bay is KNOWN with its handle, no two
records share a tag or a bay, and every RESERVED or ISSUED record names a tour that runs, with its run number and the
channel of its entry (R88, R89). Both hold whatever command is taken. -/
def Obligations.BaysStaySettled : Prop :=
  (∀ s t : State, BaysSettled s → step s = .next t → BaysSettled t) ∧
  ∀ s t : State, FleetPaired s → step s = .next t → FleetPaired t

/-- No rack ever has more active turns than its effective capacity, which stays the lesser of the band's cap and the
hall-mode capacity, and the postponed and pulled-in counts stay within the band's limits, whatever command is taken
(R141, R146). -/
def Obligations.ChargeStaysBounded : Prop :=
  ∀ s t : State, ChargeBounded s → step s = .next t → ChargeBounded t

/-! ### The hall link -/

/-- LINK_UP: the link is UP, and the arbiter places the first of the frames it holds, all of which it keeps
(R164, R165). -/
def Obligations.LinkUpPlacesOldestFrame : Prop :=
  ∀ s : State, ∃ t, exec .linkUp s = .next t ∧ t.hli.linkUp = true ∧ heldFrames t.hli = heldFrames s.hli ∧
    t.hli.placing = (heldFrames s.hli).head? ∧ t.hli.counters = s.hli.counters ∧ t.hli.lineOut = s.hli.lineOut ∧
    KeepsAllBut [.link, .egress] s t

/-- LINK_DOWN: a link that is DOWN does not change and no frame arrives over it. Otherwise link-down rises by 1, every
frame the arbiter holds adds 1 to egress discards, and the POLL of a rack among them counts as placed: it is outstanding
with 20 ms to run. The BAY COMMANDs that the rack sender then builds are discarded too (R164). -/
def Obligations.LinkDownDiscardsHeldFrames : Prop :=
  ∀ s : State,
    (s.hli.linkUp = false → exec .linkDown s = .next s ∧ ∀ frame : List Byte,
      exec (.frameRejected frame) s = .next s ∧ exec (.audioUp frame) s = .next s ∧
      exec (.bayStatus frame) s = .next s ∧ exec (.dockNotice frame) s = .next s ∧
      exec (.mgmtRequest frame) s = .next s) ∧
    (s.hli.linkUp = true → ∃ t, exec .linkDown s = .next t ∧ t.hli.linkUp = false ∧ heldFrames t.hli = [] ∧
      t.hli.counters.linkDowns = min (s.hli.counters.linkDowns + 1) 4294967295 ∧
      min (s.hli.counters.discards + (heldFrames s.hli).length) 4294967295 ≤ t.hli.counters.discards ∧
      (s.hli.counters.discards ≤ 4294967295 →
        (∀ r b, (s.rack r).live.phase = .online → (s.bay (bayAddress r b)).pending = false) →
        t.hli.counters.discards = min (s.hli.counters.discards + (heldFrames s.hli).length) 4294967295) ∧
      (∀ r b, (∃ f ∈ heldFrames s.hli, f.origin = .poll r b true) →
        (t.rack r).live.waiting = none ∧
        ∃ b', (∃ f ∈ heldFrames s.hli, f.origin = .poll r b' true) ∧
          (t.rack r).live.outstanding = some ⟨b', s.clock.now + 20⟩) ∧
      (∀ r, (∀ b, ∀ f ∈ heldFrames s.hli, f.origin ≠ .poll r b true) → (t.rack r).live = (s.rack r).live) ∧
      KeepsAllBut [.link, .egress, .rackLives, .bays, .sender] s t)

/-- HLI judges an arriving frame by the checks of R161, in order; the first that fails drops the frame with one counter
raised and nothing else changed, and a frame that passes them all is counted and dispatched by its kind. FRAME_REJECTED,
AUDIO_UP, BAY_STATUS, DOCK_NOTICE and MGMT_REQUEST are all judged so, whatever the row's name (log 9). A rack frame of the
wrong length, from a station of no enabled rack, or with a malformed field raises the counter of that case and changes
nothing else (R112, R161, R162, R163). -/
def Obligations.ArrivingFrameChecked : Prop :=
  (∀ (s : State) (frame : List Byte), s.hli.linkUp = true →
     let len := wordAt frame 6
     let c := s.hli.counters
     let up (n : Nat) := min (n + 1) 4294967295
     let dropped (x : LinkCounters) : Host.Outcome State Fault Refusal := .next (s.withHli { s.hli with counters := x })
     if frame.length < 12 then
       exec (.frameRejected frame) s = dropped { c with lengthErrors := up c.lengthErrors }
     else if frame.length ≠ 12 + len ∨ 1400 < len then
       exec (.frameRejected frame) s = dropped { c with lengthErrors := up c.lengthErrors }
     else if frame.drop (8 + len) ≠ crcBytes (crc (frame.take (8 + len))) then
       exec (.frameRejected frame) s = dropped { c with crcErrors := up c.crcErrors }
     else if wordAt frame 0 ≠ s.hli.station.toNat ∧ wordAt frame 0 ≠ 0x0FF0 then
       exec (.frameRejected frame) s = dropped { c with notAddressed := up c.notAddressed }
     else if byteAt frame 5 / 16 ≠ 1 then
       exec (.frameRejected frame) s = dropped { c with badVersion := up c.badVersion }
     else if byteAt frame 4 ∉ [0x01, 0x11, 0x12, 0x20] then
       exec (.frameRejected frame) s = dropped { c with unknownKinds := up c.unknownKinds }
     else ∃ kind : IngressKind,
       byteAt frame 4 = (match kind with
         | .audioUp => 0x01 | .bayStatus => 0x11 | .dockNotice => 0x12 | .mgmtRequest => 0x20) ∧
       exec (.frameRejected frame) s = .next (dispatchFrame kind (BitVec.ofNat 16 (wordAt frame 2))
         ((frame.drop 8).take len) (s.withHli { s.hli with counters := { c with received := up c.received } }))) ∧
  (∀ (s : State) (frame : List Byte),
    exec (.audioUp frame) s = exec (.frameRejected frame) s ∧ exec (.bayStatus frame) s = exec (.frameRejected frame) s ∧
    exec (.dockNotice frame) s = exec (.frameRejected frame) s ∧
    exec (.mgmtRequest frame) s = exec (.frameRejected frame) s) ∧
  ∀ (s : State) (frame : List Byte) (station : Station) (payload : List Byte),
    let up (n : Nat) := min (n + 1) 4294967295
    let c := { s.hli.counters with received := up s.hli.counters.received }
    let taken := s.withHli { s.hli with counters := c }
    let unrouted := ∀ r, (s.rack r).config.enabled = true → (s.rack r).config.station ≠ station
    let judged (i : Instr) (length : Nat) (bad : Prop) :=
      (payload.length ≠ length → exec i s =
        .next (s.withHli { s.hli with counters := { c with rackLengthErrors := up c.rackLengthErrors } })) ∧
      (payload.length = length → unrouted → exec i s =
        .next (taken.withRpl { s.rpl with unroutedRack := up s.rpl.unroutedRack })) ∧
      ∀ rack, payload.length = length → FrameOfRack s station rack → bad →
        let l := (s.rack rack).live
        exec i s = .next (taken.putRackLive rack
          { l with counters := { l.counters with malformed := up l.counters.malformed } })
    (Arrives s frame .bayStatus station payload → judged (.bayStatus frame) 12
      (24 ≤ byteAt payload 0 ∨ 1 < byteAt payload 1 ∨ (byteAt payload 1 = 1 ∧ tripleAt payload 2 = 0) ∨
        2 < byteAt payload 8 ∨ (24 ≤ byteAt payload 9 ∧ byteAt payload 9 ≠ 255) ∨
        (byteAt payload 9 ≠ 255 ∧ 1 < byteAt payload 10))) ∧
    (Arrives s frame .dockNotice station payload → judged (.dockNotice frame) 4 (24 ≤ byteAt payload 0))

/-- The envelope that HLI builds is the one it accepts: a frame of an ingress kind addressed to a station or to the group
address is accepted there with the kind, the source and the payload it was built from (Table 8-1, R160, R161, R169). -/
def Obligations.EnvelopeRoundTrip : Prop :=
  ∀ (station dest source : Station) (kind : IngressKind) (payload : List Byte),
    payload.length ≤ 1400 → (dest = station ∨ dest = 0x0FF0#16) →
    judgeFrame station (frameBytes dest source
      (match kind with
        | .audioUp => 0x01#8 | .bayStatus => 0x11#8 | .dockNotice => 0x12#8 | .mgmtRequest => 0x20#8)
      payload) = .accepted kind source payload

/-- A frame that counts as placed leaves the arbiter, which at once places the next; it is counted, and its bytes are what
the transmit pair carried last. FRAME_PLACED is this for a PROGRAM, MGMT REPLY or ATTENTION frame; POLL_PLACED is this
for a POLL, which then is outstanding with 20 ms to run unless its rack was disabled or re-keyed (R165, R116). -/
def Obligations.PlacedFrameLeavesArbiter : Prop :=
  ∀ (s : State) (f : EgressFrame), s.hli.placing = some f → s.hli.linkUp = true →
    let c := s.hli.counters
    ((∃ ch, f.origin = .program ch) ∨ f.origin = .reply ∨ f.origin = .attention →
      ∃ t, exec .framePlaced s = .next t ∧ heldFrames t.hli = (heldFrames s.hli).tail ∧
        t.hli.placing = (heldFrames s.hli).tail.head? ∧
        t.hli.counters = { c with transmitted := min (c.transmitted + 1) 4294967295 } ∧
        t.hli.lineOut = some (wireBytes s.hli.station f) ∧ KeepsAllBut [.egress] s t) ∧
    (∀ r b valid, f.origin = .poll r b valid →
      ∃ t, exec .pollPlaced s = .next t ∧ heldFrames t.hli = (heldFrames s.hli).tail ∧
        t.hli.placing = (heldFrames s.hli).tail.head? ∧
        t.hli.counters = { c with transmitted := min (c.transmitted + 1) 4294967295 } ∧
        t.hli.lineOut = some (wireBytes s.hli.station f) ∧
        (t.rack r).live = (if valid then
          { (s.rack r).live with waiting := none, outstanding := some ⟨b, s.clock.now + 20⟩ } else (s.rack r).live) ∧
        (∀ r', r' ≠ r → (t.rack r').live = (s.rack r').live) ∧ KeepsAllBut [.egress, .rackLives] s t)

/-- BAY_COMMAND_PLACED: the frame leaves the arbiter, and the rack sender builds the next BAY COMMAND for the pending bay
of an ONLINE rack that comes first in its turn: racks in ascending number from the one after the last served, and in the
rack bays from the one after the last served there. With no such bay it holds none (R132). -/
def Obligations.BayCommandPlacedBuildsNext : Prop :=
  ∀ (s : State) (f : EgressFrame), s.hli.placing = some f → f.origin = .bayCommand → s.hli.linkUp = true →
    ((∀ r b, (s.rack r).live.phase = .online → (s.bay (bayAddress r b)).pending = false) →
      ∃ t, exec .bayCommandPlaced s = .next t ∧ t.rpl.senderHolds = false ∧
        heldFrames t.hli = (heldFrames s.hli).tail ∧ t.rpl.bays = s.rpl.bays ∧ t.rpl.lastRack = s.rpl.lastRack ∧
        t.rpl.lastBay = s.rpl.lastBay ∧ KeepsAllBut [.egress, .sender] s t) ∧
    (∀ (r : Fin 12) (b : Fin 24), (s.rack r).live.phase = .online → (s.bay (bayAddress r b)).pending = true →
      (∀ (r' : Fin 12) (b' : Fin 24), (s.rack r').live.phase = .online → (s.bay (bayAddress r' b')).pending = true →
        (r.val + 11 - s.rpl.lastRack.val) % 12 ≤ (r'.val + 11 - s.rpl.lastRack.val) % 12 ∧
        (r' = r → (b.val + 23 - (s.rpl.lastBay.get r).val) % 24 ≤ (b'.val + 23 - (s.rpl.lastBay.get r).val) % 24)) →
      ∃ t, exec .bayCommandPlaced s = .next t ∧ t.rpl.senderHolds = true ∧ t.rpl.lastRack = r ∧
        t.rpl.lastBay = s.rpl.lastBay.set r b ∧
        (∀ a, t.bay a = if a = bayAddress r b then { s.bay a with pending := false } else s.bay a) ∧
        (∀ g, g ∈ heldFrames t.hli ↔ g ∈ (heldFrames s.hli).tail ∨
          g = { dest := (s.rack r).config.station, origin := .bayCommand
                payload := [BitVec.ofNat 8 b.val,
                  (match (s.bay (bayAddress r b)).mode with | .off => 0#8 | .trickle => 1#8 | .fast => 2#8)] ++
                  (match (s.bay (bayAddress r b)).assign with
                    | none => [0xFF#8, 0#8]
                    | some x => [BitVec.ofNat 8 x.channel.val, if x.lamp then 1#8 else 0#8]) }) ∧
        KeepsAllBut [.bays, .sender, .egress] s t)

/-! ### Source intake -/

/-- AUDIO_UP: an unrouted frame and a malformed one are counted and change nothing else; a LIVE source's duplicate and late
frames are counted; every other frame is accepted into the slot with its sequence, samples, overrun and gap as R7 and R8
state, and makes an ABSENT source LIVE (R6 to R8). The mark counter of a GUIDE source is `MarkAdvanceTaken`. -/
def Obligations.AudioFrameJudged : Prop :=
  ∀ (s : State) (frame : List Byte) (station : Station) (payload : List Byte),
    Arrives s frame .audioUp station payload →
    let up (n : Nat) := min (n + 1) 4294967295
    let c := s.hli.counters
    let u := s.withHli { s.hli with counters := { c with received := up c.received } }
    let owns (r : Source) := r.config.station = station ∧ r.config.stream.val = byteAt payload 0
    (payload = [] ∨ (∀ i r, s.source i = some r → ¬ owns r) →
      exec (.audioUp frame) s = .next (s.withHli { s.hli with
        counters := { c with received := up c.received, unroutedAudio := up c.unroutedAudio } })) ∧
    (payload ≠ [] → ∀ i r, s.source i = some r → owns r → (∀ j r', s.source j = some r' → owns r' → j = i) →
      let l := r.live
      let seq := BitVec.ofNat 16 (wordAt payload 2)
      let k := l.counters
      let counted (x : SourceCounters) : Host.Outcome State Fault Refusal :=
        .next (u.putSource i (some { r with live := { l with counters := x } }))
      (payload.length ≠ 132 → exec (.audioUp frame) s = counted { k with malformed := up k.malformed }) ∧
      (payload.length = 132 → ∀ a, l.phase = .live → l.lastSeq = some a →
        ((seq - a).toNat = 0 → exec (.audioUp frame) s = counted { k with duplicate := up k.duplicate }) ∧
        (32768 ≤ (seq - a).toNat → exec (.audioUp frame) s = counted { k with late := up k.late })) ∧
      (payload.length = 132 →
        (l.phase = .live → ∃ a, l.lastSeq = some a ∧ 0 < (seq - a).toNat ∧ (seq - a).toNat < 32768) →
        ∃ t r' f, exec (.audioUp frame) s = .next t ∧ t.source i = some r' ∧ r'.config = r.config ∧
          r'.live = { l with
            lastSeq := some seq, slot := some f, phase := if l.phase = .absent then .live else l.phase
            lastMark := r'.live.lastMark
            counters := { k with
              accepted := up k.accepted
              overrun := if l.slot.isSome then up k.overrun else k.overrun
              gap := if l.phase = .live ∧ l.lastSeq.map (fun a => decide (1 < (seq - a).toNat)) = some true
                then up k.gap else k.gap
              ignoredMark := r'.live.counters.ignoredMark } } ∧
          (∀ n : Fin 64, (f.get n).toNat = wordAt payload (4 + 2 * n.val)) ∧
          (∀ j, j ≠ i → t.source j = s.source j) ∧
          (r.config.kind ≠ .guide → r'.live.lastMark = l.lastMark ∧
            r'.live.counters.ignoredMark = k.ignoredMark ∧ KeepsAllBut [.sources, .egress] s t) ∧
          (r.config.kind = .guide → r'.live.lastMark = some (BitVec.ofNat 4 (byteAt payload 1)))))

/-- The mark counter of an accepted GUIDE frame: a baseline or an unchanged counter passes nothing on; an advance that no
LIVE tour takes is added to the ignored-mark counter; the one LIVE tour that the source guides moves its stop index by the
advance, up to the last stop, and raises MARK and, for a jump or an open handover, MARK_OVERRUN, or only END_OF_ROUTE at
the last stop (R17, R18, R72). The zone of the new stop is then acted on: an open window is cut and a tour that waits for
another zone taken out of its queue, each with HANDOVER_DONE or none and the service of the zone it leaves; a zone other than
the current one is entered if its queue is empty or headed by the tour and it has room, with the window of the timing, and
otherwise waited for with HANDOVER_WAIT (R52, R53, R55 to R57, R73 to R75). In silence stage 2 the fallback slots are then
written from the new stop (R79). Window remaining is absent once a window is cut (log 24); the detail of FALLBACK_ON and
of FALLBACK_NONE is the stop and the set of entries written, empty for the latter (R78, log 25). -/
def Obligations.MarkAdvanceTaken : Prop :=
  ∀ (s : State) (frame : List Byte) (station : Station) (payload : List Byte) (i : Fin 48) (r : Source),
    Arrives s frame .audioUp station payload → payload.length = 132 → s.source i = some r →
    r.config.station = station → r.config.stream.val = byteAt payload 0 →
    (∀ j r', s.source j = some r' → r'.config.station = station → r'.config.stream = r.config.stream → j = i) →
    r.config.kind = .guide →
    (r.live.phase = .live → ∃ a, r.live.lastSeq = some a ∧
      0 < (BitVec.ofNat 16 (wordAt payload 2) - a).toNat ∧ (BitVec.ofNat 16 (wordAt payload 2) - a).toNat < 32768) →
    let mark := BitVec.ofNat 4 (byteAt payload 1)
    let guided (k : Fin 16) := (s.tour k).live.phase = .live ∧ ∃ p, (s.tour k).plan = some p ∧ p.guide = i
    let baseline := r.live.lastMark = none ∨ r.live.phase = .stale ∨ r.live.lastMark = some mark
    (baseline → ∃ t, exec (.audioUp frame) s = .next t ∧ KeepsAllBut [.sources, .egress] s t ∧
      (t.source i).map (fun x => x.live.counters.ignoredMark) = some r.live.counters.ignoredMark) ∧
    (¬ baseline → (∀ k, ¬ guided k) → ∃ t m, exec (.audioUp frame) s = .next t ∧ r.live.lastMark = some m ∧
      KeepsAllBut [.sources, .egress] s t ∧ (t.source i).map (fun x => x.live.counters.ignoredMark) =
        some (min (r.live.counters.ignoredMark + (mark - m).toNat) 4294967295)) ∧
    (¬ baseline → ∀ k p, guided k → (∀ k', guided k' → k' = k) → (s.tour k).plan = some p →
      ∃ t m more, exec (.audioUp frame) s = .next t ∧ r.live.lastMark = some m ∧
        (t.source i).map (fun x => x.live.counters.ignoredMark) = some r.live.counters.ignoredMark ∧
        (let l := (s.tour k).live
         let d := (mark - m).toNat
         let last := p.route.length - 1
         let stop := min (l.stop + d) last
         let found := if l.prevZone.isSome then 1 else if l.target.isSome then 2 else 0
         let record (kind : EventKind) (detail : Nat) : EventRecord :=
           ⟨kind, s.mge.hubTime, k.val, some l.run, detail⟩
         (∀ k', (t.tour k').live.stop = if k' = k ∧ l.stop < last then stop else (s.tour k').live.stop) ∧
         (last ≤ l.stop → EventsTaken [record .endOfRoute d] s t ∧ KeepsAllBut [.sources, .events, .egress] s t) ∧
         (l.stop < last → EventsTaken ([record .mark (d * 256 + stop)] ++
           (if 1 < d ∨ found ≠ 0 then [record .markOverrun (d * 256 + found)] else []) ++ more) s t) ∧
         (l.stop < last → ZonesPlaced s → ∀ cur st, l.zone = some cur → p.route[stop]? = some st →
           let z := st.zone
           let need := ((indices 4).filter fun e => (l.channels.get e).isSome).length
           let w := (timingOf (s.tour k)).window / 4
           let carried (y : Fin 12) := (s.zone y).carried - (if l.prevZone = some y then need else 0)
           let queue (y : Fin 12) := if l.target = some y ∧ z ≠ y
             then (s.zone y).queue.filter fun x => decide (x.slot ≠ k) else (s.zone y).queue
           let head (y : Fin 12) (x : Waiter) := (queue y).head? = some x
           let served (y : Fin 12) := l.prevZone = some y ∨
             (l.target = some y ∧ z ≠ y ∧ ((s.zone y).queue.head?).map Waiter.slot = some k)
           let enters := z ≠ cur ∧ (queue z = [] ∨ ((queue z).head?).map Waiter.slot = some k) ∧ carried z + need ≤ 8
           let joins := z ≠ cur ∧ ¬ enters ∧ l.target ≠ some z
           let opens := enters ∧ w ≠ 0
           let jumps := enters ∧ w = 0
           (∀ y x, served y → head y x → carried y + x.need ≤ 8 →
             (t.tour x.slot).live.zone = some y ∧ (t.tour x.slot).live.target = none) ∧
           ((∀ y x, served y → head y x → 8 < carried y + x.need) →
             (∀ x, jumps → head cur x → 8 < carried cur - need + x.need) →
             (let set (e : Fin 4) := (p.entries.get e).isSome && (st.fallback.get e).isSome
              let bits := ((indices 4).map fun e => if set e then 2 ^ e.val else 0).sum
              more = (match l.prevZone with | some y => [record .handoverDone y.val] | none => []) ++
                (if joins then [record .handoverWait z.val] else []) ++
                (if jumps then [record .handoverDone cur.val] else []) ++
                (if l.stage = 2 then
                  [record (if bits = 0 then .fallbackNone else .fallbackOn) (stop * 256 + bits)] else []) ∧
              t.tour k = { s.tour k with live := { l with
                stop := stop
                zone := if enters then some z else some cur
                prevZone := if opens then some cur else none
                window := if opens then some w else if jumps ∨ l.prevZone.isSome then none else l.window
                target := if z = cur ∨ enters then none else some z
                fallback := if l.stage = 2 then (if bits = 0 then .none else .on) else l.fallback } }) ∧
             (∀ k', k' ≠ k → t.tour k' = s.tour k') ∧
             (∀ c, t.channel c = if ∃ e, l.channels.get e = some c then { s.channel c with
               zones := (if enters then 1#12 <<< z.val else 0#12) ||| (if jumps then 0#12 else 1#12 <<< cur.val) }
               else s.channel c) ∧
             (∀ y, t.zone y =
               { carried := carried y + (if enters ∧ y = z then need else 0) - (if jumps ∧ y = cur then need else 0)
                 queue := if enters ∧ y = z then (queue y).filter fun x => decide (x.slot ≠ k)
                   else if joins ∧ y = z then queue y ++ [⟨k, need⟩] else queue y })) ∧
           (l.stage ≠ 2 → t.mxr = s.mxr) ∧
           (l.stage = 2 → (∀ e f x y, p.entries.get e = some x → p.entries.get f = some y →
               x.program = y.program → e = f) →
             (∀ e x, p.entries.get e = some x →
               t.program x.program = { s.program x.program with fallback := st.fallback.get e }) ∧
             ∀ q, (∀ e x, p.entries.get e = some x → x.program ≠ q) → t.program q = s.program q))) ∧
        KeepsAllBut [.sources, .tours, .programs, .zones, .events, .egress] s t)

/-! ### Racks, bays and receivers -/

/-- BAY_STATUS: the poll state of the rack. A reading that names the bay of the outstanding poll answers it: nothing is
outstanding, the miss run is 0, the spacing timer starts, and an OFFLINE rack is ONLINE with RACK_ONLINE raised first. A
reading that names the timed-out bay is a late answer. Any other reading changes no poll state. In each case the
temperature is the reading's, clamped (R117, R120). -/
def Obligations.StatusAnswersPoll : Prop :=
  ∀ (s : State) (frame : List Byte) (station : Station) (payload : List Byte) (rack : Fin 12) (b : Fin 24)
    (shown : Option RxTag), Arrives s frame .bayStatus station payload → FrameOfRack s station rack →
    StatusShows payload shown → byteAt payload 0 = b.val →
    let l := (s.rack rack).live
    let up (n : Nat) := min (n + 1) 4294967295
    let warm : Option Int := some (max (-40) (min 125 (signedAt payload 11)))
    ∃ t more, exec (.bayStatus frame) s = .next t ∧
      (l.outstanding.map Outstanding.bay = some b →
        (t.rack rack).live = { l with
          phase := if l.phase = .offline then .online else l.phase, outstanding := none, timedOut := none
          missRun := 0, spacingEnds := some (s.clock.now + (s.rack rack).config.spacing), temperature := warm
          counters := { l.counters with answers := up l.counters.answers } } ∧
        (l.phase = .offline → EventsTaken (⟨.rackOnline, s.mge.hubTime, rack.val, none, l.missRun⟩ :: more) s t)) ∧
      (l.outstanding.map Outstanding.bay ≠ some b → l.timedOut = some b →
        (t.rack rack).live = { l with
          timedOut := none, temperature := warm
          counters := { l.counters with lateAnswers := up l.counters.lateAnswers } }) ∧
      (l.outstanding.map Outstanding.bay ≠ some b → l.timedOut ≠ some b →
        (t.rack rack).live = { l with temperature := warm }) ∧
      (∀ r, r ≠ rack → (t.rack r).live = (s.rack r).live) ∧
      KeepsAllBut [.rackLives, .choices, .sched, .bays, .receivers, .tours, .fleetCounters, .sender, .events, .egress]
        s t

/-- BAY_STATUS of a bay that holds the receiver shown. Events of the poll and of the band come first, and the reported state
is stored. Outside any settle the bay takes voltage, level and signals from the reading, raises the edges of FAULT, FULL and
READY in that order, and hands level and FAULT to a KNOWN receiver; a bay with an active turn loses it, with current OFF and
a TURN settle, if the reading makes it FULL or its receiver faulty, and otherwise keeps turn and mode. In DOCK ENDED the
first reading is taken without an edge and ends the settle. In DOCK and in TURN the electrical part is held and changes
nothing. A bay without a turn that uses a reading has its mode judged. A fault byte other than 0 and 1 is a free value
(log 4) (R120, R126, R127, R129, R130, R133, R147, R148, R153, R154, R100, R101). -/
def Obligations.StatusReadingUsed : Prop :=
  ∀ (s : State) (frame : List Byte) (station : Station) (payload : List Byte) (rack : Fin 12) (b : Fin 24)
    (tag : RxTag), Arrives s frame .bayStatus station payload → FrameOfRack s station rack →
    StatusShows payload (some tag) → byteAt payload 0 = b.val →
    let a := bayAddress rack b
    let old := s.bay a
    BayHolds s a tag →
    let v := wordAt payload 5
    let p := levelOf s.rpl.curve v
    let idle := ∀ x ∈ (s.sched rack).active, x.bay ≠ b
    let sameBand := (s.sched rack).band =
      some (bandFor s.chs.table (max (-40) (min 125 (signedAt payload 11))) (s.sched rack).band)
    ∃ t fault before, exec (.bayStatus frame) s = .next t ∧
      (byteAt payload 7 = 0 → fault = false) ∧ (byteAt payload 7 = 1 → fault = true) ∧
      (∀ e ∈ before, e.kind = .rackOnline ∨ e.kind = .bandChange) ∧
      (let new := t.bay a
       let ends := new.full = true ∨ (new.fault = true ∧ ∃ h, old.presence = .known h)
       let measured := new.voltage = some v ∧ new.level = some p ∧ new.rackFault = fault ∧
         new.ready = decide (s.mge.settings.ready ≤ p) ∧ new.full = decide (s.mge.settings.full ≤ p) ∧
         new.fault = (fault || decide (v < 2500) || decide (4400 < v)) ∧
         ∀ h r, old.presence = .known h → s.receiver h = some r → ∃ n, t.receiver h = some { r with
           level := some p, fault := new.fault, turnCount := n
           short := r.short && !(decide (r.phase = .reserved) && decide (r.required.getD 0 ≤ p)) } ∧
           (idle ∨ ¬ ends → n = r.turnCount)
       let judged := new.mode ≠ .fast ∧ (new.mode = .trickle ↔ new.fault = false ∧ new.full = false ∧
         ∃ e, bandEntry t rack = some e ∧ e.trickle = true)
       let elsewhere := ∀ h, old.presence ≠ .known h → t.receiver h = s.receiver h
       let edge (was now : Bool) (rise fall : EventKind) : List EventRecord :=
         if was = now then [] else [⟨if now then rise else fall, s.mge.hubTime, a.val, none, p⟩]
       let edges := edge old.fault new.fault .faultRise .faultFall ++
         edge old.full new.full .fullRise .fullFall ++ edge old.ready new.ready .readyRise .readyFall
       new.presence = old.presence ∧ new.docked = old.docked ∧ new.assign = old.assign ∧
       (new.reportedMode.map ChargeMode.code) = some (byteAt payload 8) ∧
       (byteAt payload 9 = 255 → new.reportedAssign = some none) ∧
       (byteAt payload 9 ≠ 255 → ∃ x, new.reportedAssign = some (some x) ∧ x.channel.val = byteAt payload 9 ∧
         x.lamp = decide (byteAt payload 10 = 1)) ∧
       (old.settle = .none → idle → measured ∧ judged ∧ elsewhere ∧ new.settle = .none ∧
         EventsTaken (before ++ edges) s t) ∧
       (old.settle = .none → ¬ idle → sameBand → measured ∧ EventsTaken (before ++ edges) s t ∧
         (ends → new.settle = .turn ∧ new.settleEnds = some (s.clock.now + 2000) ∧ new.mode = .off ∧
           ∀ x ∈ (t.sched rack).active, x.bay ≠ b) ∧
         (¬ ends → new.settle = .none ∧ new.mode = old.mode ∧ (t.sched rack).active = (s.sched rack).active ∧
           elsewhere)) ∧
       (old.settle = .dockEnded → idle → measured ∧ judged ∧ elsewhere ∧ new.settle = .none ∧
         new.settleEnds = none ∧ EventsTaken before s t) ∧
       (old.settle = .dock ∨ old.settle = .turn → new.voltage = old.voltage ∧ new.level = old.level ∧
         new.rackFault = old.rackFault ∧ new.ready = old.ready ∧ new.full = old.full ∧ new.fault = old.fault ∧
         new.settle = old.settle ∧ (idle → new.settleEnds = old.settleEnds) ∧ t.flt = s.flt ∧
         EventsTaken before s t)) ∧
      (∀ a', a' ≠ a → (t.bay a').presence = (s.bay a').presence ∧ (t.bay a').voltage = (s.bay a').voltage ∧
        (t.bay a').level = (s.bay a').level ∧ (t.bay a').ready = (s.bay a').ready ∧
        (t.bay a').full = (s.bay a').full ∧ (t.bay a').fault = (s.bay a').fault ∧
        (t.bay a').assign = (s.bay a').assign) ∧
      KeepsAllBut [.rackLives, .choices, .sched, .bays, .receivers, .sender, .events, .egress] s t

/-- The level of a cell voltage by a Level Curve of strictly ascending voltages: flat below the first point and above the
last, and between two points the straight line, rounded half up (R129). -/
def Obligations.LevelInterpolates : Prop :=
  ∀ (curve : Tab CurvePoint 8), (∀ i j : Fin 8, i < j → (curve.get i).mv < (curve.get j).mv) → ∀ v : Nat,
    (v ≤ (curve.get 0).mv → levelOf curve v = (curve.get 0).percent) ∧
    ((curve.get 7).mv ≤ v → levelOf curve v = (curve.get 7).percent) ∧
    ∀ i : Fin 7, (curve.get i.castSucc).mv ≤ v → v < (curve.get i.succ).mv →
      levelOf curve v = (curve.get i.castSucc).percent +
        (2 * (v - (curve.get i.castSucc).mv) * ((curve.get i.succ).percent - (curve.get i.castSucc).percent) +
          ((curve.get i.succ).mv - (curve.get i.castSucc).mv)) /
        (2 * ((curve.get i.succ).mv - (curve.get i.castSucc).mv))

/-- DOCK_NOTICE of a tag that no record holds, into an EMPTY bay. With auto-enrol OFF or no handle absent the bay is
FOREIGN with the tag, in its dock settle, and UNKNOWN_RECEIVER then the DOCKED rise are raised. With auto-enrol ON the lowest
absent handle takes the tag in a new DOCKED record, the bay is KNOWN with it, and the DOCKED rise alone is raised
(R92, R94, R97, R122, R123). -/
def Obligations.UnknownTagDocksForeign : Prop :=
  ∀ (s : State) (frame : List Byte) (station : Station) (payload : List Byte) (rack : Fin 12) (b : Fin 24)
    (tag : RxTag), Arrives s frame .dockNotice station payload → payload.length = 4 → FrameOfRack s station rack →
    byteAt payload 0 = b.val → tripleAt payload 1 = tag.toNat → tag ≠ 0#24 →
    let a := bayAddress rack b
    (s.bay a).presence = .empty → (∀ h r, s.receiver h = some r → r.tag ≠ tag) →
    let docked (t : State) (presence : Presence) :=
      let x := t.bay a
      x.presence = presence ∧ x.docked = true ∧ x.settle = .dock ∧ x.settleEnds = some (s.clock.now + 1500) ∧
      x.level = none ∧ x.voltage = none ∧ x.ready = false ∧ x.full = false ∧ x.fault = false ∧
      x.rackFault = false ∧ x.assign = none ∧
      ∀ a', a' ≠ a → t.bay a' = { s.bay a' with pending := (t.bay a').pending }
    ((s.mge.settings.autoEnrol = false ∨ ∀ h, (s.receiver h).isSome = true) →
      ∃ t, exec (.dockNotice frame) s = .next t ∧ docked t (.foreign tag) ∧
        t.flt.unknownDocks = min (s.flt.unknownDocks + 1) 4294967295 ∧
        t.flt.unplannedTakes = s.flt.unplannedTakes ∧ t.flt.lateReturns = s.flt.lateReturns ∧
        EventsTaken [⟨.unknownReceiver, s.mge.hubTime, a.val, none, tag.toNat % 65536⟩,
          ⟨.dockedRise, s.mge.hubTime, a.val, none, 0xFFFF⟩] s t ∧
        KeepsAllBut [.bays, .fleetCounters, .sender, .events, .egress] s t) ∧
    ∀ h, s.mge.settings.autoEnrol = true → s.receiver h = none → (∀ h' < h, (s.receiver h').isSome = true) →
      ∃ t, exec (.dockNotice frame) s = .next t ∧ docked t (.known h) ∧
        t.receiver h = some ⟨tag, .docked, some a, none, false, false, none, none, none, none, 0⟩ ∧
        (∀ h', h' ≠ h → t.receiver h' = s.receiver h') ∧
        EventsTaken [⟨.dockedRise, s.mge.hubTime, a.val, none, h.val⟩] s t ∧
        KeepsAllBut [.bays, .receivers, .sender, .events, .egress] s t

/-- DOCK_NOTICE of a known tag whose record names no bay, into an EMPTY bay: the record is DOCKED there with its tour
fields, deadline, issue time, short flag and required level cleared and no level; an ISSUED receiver returns to its run's
counts; RETURNED is raised for a STRAY, ISSUED, DUE or OVERDUE record, late for the last two (R95, R123, R70, R110).
A known tag whose record names another bay moves: that bay is emptied as at an undock, with its signals falling and its
active turn ended, and the record takes the new bay with its state, its tour and its counts kept and no event of its own; a
RESERVED one takes its channel and lamp with it (R94, R96, R124). -/
def Obligations.KnownReceiverReturns : Prop :=
  (∀ (s : State) (frame : List Byte) (station : Station) (payload : List Byte) (rack : Fin 12) (b : Fin 24)
    (h : Fin 384) (r : Receiver), Arrives s frame .dockNotice station payload → payload.length = 4 →
    FrameOfRack s station rack → byteAt payload 0 = b.val → tripleAt payload 1 = r.tag.toNat → r.tag ≠ 0#24 →
    let a := bayAddress rack b
    (s.bay a).presence = .empty → s.receiver h = some r → r.bay = none →
    (∀ h' r', s.receiver h' = some r' → r'.tag = r.tag → h' = h) →
    let late := r.phase = .due ∨ r.phase = .overdue
    ∃ t, exec (.dockNotice frame) s = .next t ∧
      t.receiver h = some { r with
        phase := .docked, bay := some a, level := none, tour := none, issueTime := none, deadline := none
        short := false, required := none } ∧
      (∀ h', h' ≠ h → t.receiver h' = s.receiver h') ∧
      (let x := t.bay a
       x.presence = .known h ∧ x.docked = true ∧ x.settle = .dock ∧ x.settleEnds = some (s.clock.now + 1500) ∧
       x.level = none ∧ x.voltage = none ∧ x.ready = false ∧ x.full = false ∧ x.fault = false ∧ x.assign = none) ∧
      (∀ a', a' ≠ a → t.bay a' = { s.bay a' with pending := (t.bay a').pending }) ∧
      (∀ k, (t.tour k) = if r.phase = .issued ∧ r.tour.map TourRef.slot = some k then
        { s.tour k with live := { (s.tour k).live with
            issued := (s.tour k).live.issued - 1, returned := (s.tour k).live.returned + 1 } } else s.tour k) ∧
      t.flt.lateReturns = (if late then min (s.flt.lateReturns + 1) 4294967295 else s.flt.lateReturns) ∧
      t.flt.unknownDocks = s.flt.unknownDocks ∧ t.flt.unplannedTakes = s.flt.unplannedTakes ∧
      EventsTaken ((if late ∨ r.phase = .stray ∨ r.phase = .issued then
          [⟨.returned, s.mge.hubTime, h.val, none, a.val + if late then 32768 else 0⟩] else []) ++
        [⟨.dockedRise, s.mge.hubTime, a.val, none, h.val⟩]) s t ∧
      KeepsAllBut [.bays, .receivers, .tours, .fleetCounters, .sender, .events, .egress] s t) ∧
  ∀ (s : State) (frame : List Byte) (station : Station) (payload : List Byte) (rack : Fin 12) (b : Fin 24)
    (h : Fin 384) (r : Receiver) (left : Fin 288), FleetPaired s → Arrives s frame .dockNotice station payload →
    payload.length = 4 → FrameOfRack s station rack → byteAt payload 0 = b.val →
    tripleAt payload 1 = r.tag.toNat → r.tag ≠ 0#24 →
    let a := bayAddress rack b
    let old := s.bay left
    (s.bay a).presence = .empty → s.receiver h = some r → r.bay = some left →
    ∃ t, exec (.dockNotice frame) s = .next t ∧ t.receiver h = some { r with bay := some a, level := none } ∧
      (let x := t.bay a
       x.presence = .known h ∧ x.docked = true ∧ x.settle = .dock ∧ x.settleEnds = some (s.clock.now + 1500) ∧
       x.level = none ∧ x.voltage = none ∧ x.ready = false ∧ x.full = false ∧ x.fault = false ∧
       x.assign = if r.phase = .reserved then r.tour.map fun ref => ⟨ref.channel, true⟩ else none) ∧
      (let x := t.bay left
       x.presence = .empty ∧ x.level = none ∧ x.voltage = none ∧ x.docked = false ∧ x.ready = false ∧
       x.full = false ∧ x.fault = false ∧ x.settle = .none ∧ x.settleEnds = none ∧ x.assign = none ∧ x.mode = .off) ∧
      (∀ x ∈ (t.sched (rackOf left)).active, x.bay ≠ bayNumber left) ∧
      (∀ a', a' ≠ a → a' ≠ left → (t.bay a').presence = (s.bay a').presence ∧ (t.bay a').level = (s.bay a').level ∧
        (t.bay a').assign = (s.bay a').assign) ∧
      ((∀ x ∈ (s.sched (rackOf left)).active, x.bay ≠ bayNumber left) →
        (∀ h', h' ≠ h → t.receiver h' = s.receiver h') ∧ t.chs = s.chs) ∧
      (let fall (was : Bool) (kind : EventKind) (detail : Nat) : List EventRecord :=
         if was then [⟨kind, s.mge.hubTime, left.val, none, detail⟩] else []
       let level := old.level.getD 0xFFFF
       EventsTaken (fall old.fault .faultFall level ++ fall old.full .fullFall level ++
         fall old.ready .readyFall level ++ fall old.docked .dockedFall h.val ++
         [⟨.dockedRise, s.mge.hubTime, a.val, none, h.val⟩]) s t) ∧
      KeepsAllBut [.bays, .receivers, .sched, .sender, .events, .egress] s t

/-- DOCK_NOTICE of an empty bay that was KNOWN: a RESERVED receiver is ISSUED, and its run's counts follow; a DOCKED one
is STRAY and counted. The bay is EMPTY and bare, its active turn ends, and the signals that were set fall in the order
FAULT, FULL, READY, DOCKED (R98, R99, R124, R70). A notice of another receiver in that bay first takes this undock, with its
events, and then the dock: for a tag that no record holds, with auto-enrol OFF or no handle absent, the bay is FOREIGN in
its dock settle, and UNKNOWN_RECEIVER and the DOCKED rise follow (R94, R97, R122). -/
def Obligations.UndockIssuesOrStrays : Prop :=
  ∀ (s : State) (frame : List Byte) (station : Station) (payload : List Byte) (rack : Fin 12) (b : Fin 24)
    (h : Fin 384) (r : Receiver), Arrives s frame .dockNotice station payload → payload.length = 4 →
    FrameOfRack s station rack → byteAt payload 0 = b.val →
    let a := bayAddress rack b
    let old := s.bay a
    let n := tripleAt payload 1
    old.presence = .known h → s.receiver h = some r →
    (r.phase = .docked ∨ (r.phase = .reserved ∧ r.tour.isSome = true)) →
    (n = 0 ∨ ((∀ h' r', s.receiver h' = some r' → r'.tag.toNat ≠ n) ∧
      (s.mge.settings.autoEnrol = false ∨ ∀ h', (s.receiver h').isSome = true))) →
    ∃ t r', exec (.dockNotice frame) s = .next t ∧ t.receiver h = some r' ∧ r'.bay = none ∧
      r'.issueTime = some s.mge.hubTime ∧ r'.tag = r.tag ∧ r'.level = r.level ∧ r'.fault = r.fault ∧
      r'.tour = r.tour ∧ r'.deadline = r.deadline ∧
      (r.phase = .docked → r'.phase = .stray ∧ r'.short = r.short ∧ r'.required = r.required ∧
        t.flt.unplannedTakes = min (s.flt.unplannedTakes + 1) 4294967295) ∧
      (r.phase = .reserved → r'.phase = .issued ∧ r'.short = false ∧ r'.required = none ∧
        t.flt.unplannedTakes = s.flt.unplannedTakes) ∧
      (∀ k, (t.tour k) = if r.phase = .reserved ∧ r.tour.map TourRef.slot = some k then
        { s.tour k with live := { (s.tour k).live with
            reserved := (s.tour k).live.reserved - 1, issued := (s.tour k).live.issued + 1 } } else s.tour k) ∧
      (let x := t.bay a
       x.level = none ∧ x.voltage = none ∧ x.ready = false ∧ x.full = false ∧ x.fault = false ∧ x.assign = none ∧
       (n = 0 → x.presence = .empty ∧ x.docked = false ∧ x.settle = .none ∧ x.settleEnds = none ∧ x.mode = .off) ∧
       (n ≠ 0 → x.presence = .foreign (BitVec.ofNat 24 n) ∧ x.docked = true ∧ x.settle = .dock ∧
         x.settleEnds = some (s.clock.now + 1500))) ∧
      t.flt.unknownDocks = (if n = 0 then s.flt.unknownDocks else min (s.flt.unknownDocks + 1) 4294967295) ∧
      (∀ x ∈ (t.sched rack).active, x.bay ≠ b) ∧
      (let taken : EventRecord := match r.phase, r.tour with
         | .reserved, some ref => ⟨if r.short then .issuedShort else .issued, s.mge.hubTime, h.val, none,
             ref.slot.val * 256 + ref.entry.val⟩
         | _, _ => ⟨.unplannedTake, s.mge.hubTime, h.val, none, a.val⟩
       let fall (was : Bool) (kind : EventKind) (detail : Nat) : List EventRecord :=
         if was then [⟨kind, s.mge.hubTime, a.val, none, detail⟩] else []
       let level := old.level.getD 0xFFFF
       EventsTaken (taken :: (fall old.fault .faultFall level ++ fall old.full .fullFall level ++
         fall old.ready .readyFall level ++ fall old.docked .dockedFall h.val ++
         if n = 0 then [] else [⟨.unknownReceiver, s.mge.hubTime, a.val, none, n % 65536⟩,
           ⟨.dockedRise, s.mge.hubTime, a.val, none, 0xFFFF⟩])) s t) ∧
      KeepsAllBut [.bays, .receivers, .tours, .fleetCounters, .sched, .sender, .events, .egress] s t

/-! ### Requests and replies -/

/-- MGMT_REQUEST: its source becomes the desk address and it is counted. With fewer than 4 requests waiting it joins the
queue, and the oldest comes into service if none is; with 4 waiting it is answered BUSY at once, and the arbiter accepts
that reply while class 3 holds fewer than 7 frames, the frame being placed among them (log 12) (R176, R180, R181,
R168). -/
def Obligations.RequestTakenOrBusy : Prop :=
  ∀ (s : State) (frame : List Byte) (source : Station) (payload : List Byte),
    Arrives s frame .mgmtRequest source payload →
    let up (n : Nat) := min (n + 1) 4294967295
    let m := s.mge
    let waiting := m.requests ++ [⟨source, payload⟩]
    let c := { s.hli.counters with received := up s.hli.counters.received }
    ∃ t, exec (.mgmtRequest frame) s = .next t ∧ t.evq.desk = some source ∧ t.mge.received = up m.received ∧
      t.mge.badRequests = m.badRequests ∧
      (m.requests.length < 4 → t.mge.busyReplies = m.busyReplies ∧
        (m.service = .idle → some t.mge.service = waiting.head?.map Service.taken ∧ t.mge.requests = waiting.tail) ∧
        (m.service ≠ .idle → t.mge.service = m.service ∧ t.mge.requests = waiting) ∧
        t.hli = { s.hli with counters := c }) ∧
      (4 ≤ m.requests.length → t.mge.busyReplies = up m.busyReplies ∧ t.mge.service = m.service ∧
        t.mge.requests = m.requests ∧
        (class3Held s.hli < 7 → heldFrames t.hli = heldFrames s.hli ++
          [{ dest := source, origin := .reply
             payload := [payload.getD 0 0#8, payload.getD 1 0#8, payload.getD 2 0#8, 2#8] }] ∧
          t.hli.counters = c) ∧
        (7 ≤ class3Held s.hli → heldFrames t.hli = heldFrames s.hli ∧
          t.hli.counters = { c with discards := up c.discards })) ∧
      KeepsAllBut [.desk, .requests, .egress] s t

/-- BAD_REQUEST: a request in service with fewer than 3 bytes, a code Table 8-8 does not list, or an argument length other
than the one Table 8-8 gives for the code is counted and answered BAD_REQUEST (R181). On any other request in service
the command has no effect (log 7). -/
def Obligations.BadRequestAnswered : Prop :=
  ∀ (s : State) (req : Request), s.mge.service = .taken req →
    let code := byteAt req.payload 2
    let args := req.payload.drop 3
    let good := 3 ≤ req.payload.length ∧
      ((code, args.length) ∈ [(0x01, 13), (0x02, 1), (0x08, 33), (0x09, 4), (0x0A, 0), (0x0B, 1), (0x10, 4), (0x11, 1),
        (0x12, 1), (0x19, 11), (0x1A, 1), (0x1B, 1), (0x1C, 1), (0x1D, 3), (0x1E, 1), (0x1F, 1), (0x20, 3), (0x21, 2),
        (0x22, 4), (0x28, 15), (0x29, 1), (0x2A, 2), (0x2B, 24), (0x30, 47), (0x31, 0), (0x38, 0), (0x39, 0), (0x3A, 4),
        (0x3B, 4), (0x40, 1), (0x41, 0), (0x42, 4), (0x43, 0), (0x44, 0), (0x45, 5)] ∨
      (code = 0x18 ∧ 24 < args.length ∧ args.length = 25 + 5 * byteAt args 24))
    (good → exec .badRequest s = .next s) ∧
    (¬ good → exec .badRequest s = .next (offerReply (replyTo req .badRequest [])
      (s.withMge { s.mge with badRequests := min (s.mge.badRequests + 1) 4294967295 })))

/-- A served reply is handed to the arbiter while class 3 holds fewer than 8 frames, the frame being placed among them (log
12): the request leaves service and the oldest waiting one is taken. Otherwise it is held, and REPLY_ACCEPTED offers it
again, behind the frames class 3 has taken by then; that no other command offers it is the model's choice (log 29). The
reply carries the request's tag and code, the status and the data, to the request's source (R168, R169, R181, Table 8-7). -/
def Obligations.ServedReplyOfferedOrHeld : Prop :=
  (∀ (req : Request) (status : Status) (data : List Byte), replyTo req status data =
    { dest := req.source
      payload := [req.payload.getD 0 0#8, req.payload.getD 1 0#8, req.payload.getD 2 0#8,
        BitVec.ofNat 8 (statusCode status)] ++ data }) ∧
  (∀ (r : Reply) (s : State),
    let t := offerReply r s
    let f : EgressFrame := { dest := r.dest, origin := .reply, payload := r.payload }
    (class3Held s.hli < 8 →
      t.mge = { s.mge with
        service := (match s.mge.requests with | [] => .idle | q :: _ => .taken q), requests := s.mge.requests.tail } ∧
      (s.hli.linkUp = true → heldFrames t.hli = heldFrames s.hli ++ [f] ∧ t.hli.counters = s.hli.counters ∧
        t.hli.placing = (heldFrames s.hli ++ [f]).head?) ∧
      (s.hli.linkUp = false → t.hli = { s.hli with counters := { s.hli.counters with
        discards := min (s.hli.counters.discards + 1) 4294967295 } })) ∧
    (8 ≤ class3Held s.hli → t = s.withMge { s.mge with service := .held r }) ∧
    KeepsAllBut [.requests, .egress] s t) ∧
  ∀ (r : Reply) (s : State), s.mge.service = .held r → exec .replyAccepted s = .next (offerReply r s)

/-- Every read answers DONE with the record's fields, written out here in the order of its table, and changes nothing: READ
SOURCE, READ PROGRAM, READ CHANNEL, READ ZONE, READ TOUR, READ RECEIVER by handle and by tag, READ RACK, READ BAY, READ
THERMAL TABLE, READ IDENTITY and READ COUNTERS. An optional field is preceded by a presence byte, an absent field that is
one identifier of one byte is FFh, and the bytes of every other absent field are free values (log 3), which the count of
choices numbers. The order of the fields, the codes and the counts before lists are the model's reading where the manual
gives only the fields (log 14), and so is that a tour's current zone is sent as an optional identifier (log 28). An id out
of range, a tag of 0, an unknown selector and an absent record are refused. -/
def Obligations.ReadsChangeNothing : Prop :=
  (∀ (n pos : Nat), layoutFrom n pos [] = []) ∧
  (∀ (n pos : Nat) (bytes : List Byte) (rest : List Field),
    layoutFrom n pos (.known bytes :: rest) = bytes ++ layoutFrom n (pos + bytes.length) rest) ∧
  (∀ (n pos k : Nat) (rest : List Field), layoutFrom n pos (.absent k :: rest) =
    ((List.range k).map fun j => Config.absentByte n (pos + j)) ++ layoutFrom n (pos + k) rest) ∧
  ∀ (s : State) (req : Request),
    let a := requestArgs req
    let refused (status : Status) : Host.Outcome State Fault Refusal := .next (offerReply (replyTo req status []) s)
    let told (fields : List Field) : Host.Outcome State Fault Refusal :=
      .next (offerReply (replyTo req .done (layoutFrom s.choices 0 fields)) (s.withChoices (s.choices + 1)))
    let one (n : Nat) : List Byte := [BitVec.ofNat 8 n]
    let two (n : Nat) : List Byte := [BitVec.ofNat 8 (n / 256), BitVec.ofNat 8 n]
    let three (n : Nat) : List Byte := BitVec.ofNat 8 (n / 65536) :: two n
    let four (n : Nat) : List Byte := two (n / 65536) ++ two n
    let signed (x : Int) : List Byte := [BitVec.ofInt 8 x]
    let flag (b : Bool) : List Byte := if b then [1#8] else [0#8]
    let optional (width : Nat) (x : Option (List Byte)) : List Field :=
      match x with | some bytes => [.known ([1#8] ++ bytes)] | none => [.known [0#8], .absent width]
    let named (x : Option Nat) : List Field :=
      match x with | some n => [.known ([1#8] ++ one n)] | none => [.known ([0#8] ++ [0xFF#8])]
    let left (ends : Nat) : Nat := ends - s.clock.now
    (Serving s 0x02 req →
      (48 ≤ byteAt a 0 → exec .readSource s = refused .badArgument) ∧
      ∀ id : Fin 48, byteAt a 0 = id.val →
        (s.source id = none → exec .readSource s = refused .notFound) ∧
        ∀ r, s.source id = some r →
          let c := r.config
          let l := r.live
          let k := l.counters
          exec .readSource s = told (
            [.known (two c.station.toNat ++ one c.stream.val ++
              one (match c.kind with | .guide => 0 | .interpreter => 1 | .track => 2) ++ two c.onThreshold ++
              two c.offThreshold ++ one c.hang ++ two c.defaultGain)] ++
            [.known (one (match l.phase with | .absent => 0 | .live => 1 | .stale => 2))] ++
            optional 2 (l.lastSeq.map fun x => two x.toNat) ++
            [.known (flag l.slot.isSome ++ two l.missRun ++ one l.concealStep ++ two l.level ++ flag l.voice ++
              one l.hangLeft)] ++
            optional 1 (l.lastMark.map fun x => one x.toNat) ++
            [.known (four k.accepted ++ four k.duplicate ++ four k.late ++ four k.gap ++ four k.overrun ++
              four k.concealed ++ four k.malformed ++ four k.ignoredMark)])) ∧
    (Serving s 0x0B req →
      (32 ≤ byteAt a 0 → exec .readProgram s = refused .badArgument) ∧
      ∀ id : Fin 32, byteAt a 0 = id.val →
        let p := s.program id
        let record (x : Option ProgramFields) : List Field :=
          match x with
          | none => [.known [0#8], .absent 31]
          | some r => [.known [1#8]] ++ (r.members.items.map fun m => optional 4 (m.map fun y =>
              one y.source.val ++ two y.gain ++ one (match y.cls with | .voice => 0 | .bed => 1))).flatten ++
            [.known (two r.duckDepth ++ two r.attack ++ two r.release)]
        (p.installed = none ∧ p.pendingRec = none → exec .readProgram s = refused .notFound) ∧
        (¬(p.installed = none ∧ p.pendingRec = none) → exec .readProgram s = told (
          record p.installed ++ record p.pendingRec ++
          (p.staged.items.map fun g => optional 2 (g.map two)).flatten ++ [.known (flag s.mxr.applyRequest)] ++
          named (p.fallback.map Fin.val) ++ [.known (two p.duck)] ++
          optional 2 (p.owner.map fun o => one o.1.val ++ one o.2.val) ++ named (p.binding.map Fin.val) ++
          [.known (flag (p.binding.isSome && decide (s.mge.mode = .opened)) ++ four p.clipped)]))) ∧
    (Serving s 0x11 req →
      (24 ≤ byteAt a 0 → exec .readChannel s = refused .badArgument) ∧
      ∀ ch : Fin 24, byteAt a 0 = ch.val →
        let c := s.channel ch
        let owner := if c.phase = .tour then c.program.bind fun p => (s.program p).owner else none
        exec .readChannel s = told (
          [.known (one (match c.phase with | .free => 0 | .standing => 1 | .tour => 2))] ++
          named (c.program.map Fin.val) ++
          [.known (two c.zones.toNat ++ two c.seq.toNat ++
            flag (decide (c.phase ≠ .free) && decide (s.mge.mode = .opened)))] ++
          optional 2 (owner.map fun o => one o.1.val ++ one o.2.val))) ∧
    (Serving s 0x12 req →
      (12 ≤ byteAt a 0 → exec .readZone s = refused .badArgument) ∧
      ∀ z : Fin 12, byteAt a 0 = z.val →
        let channels := ((indices 24).map fun c => if (s.channel c).zones.getLsbD z.val then 2 ^ c.val else 0).sum
        exec .readZone s = told
          [.known (one (s.zone z).carried ++ one (8 - (s.zone z).carried) ++ three channels ++
            one (s.zone z).queue.length ++
            ((s.zone z).queue.map fun w =>
              one w.slot.val ++ two (s.tour w.slot).live.run.toNat ++ one w.need).flatten)]) ∧
    (Serving s 0x1B req →
      (16 ≤ byteAt a 0 → exec .readTour s = refused .badArgument) ∧
      ∀ k : Fin 16, byteAt a 0 = k.val →
        let l := (s.tour k).live
        (l.phase = .free → exec .readTour s = told [.known (one 0 ++ two l.run.toNat)]) ∧
        ∀ p, l.phase ≠ .free → (s.tour k).plan = some p →
          let time := (s.tour k).timing.getD ⟨30, 30, 3, 60, 1000⟩
          exec .readTour s = told (
            ([.known (one p.guide.val)] ++
            (p.entries.items.map fun e => match e with
              | none => [.known [0#8], .absent 5]
              | some x => [.known ([1#8] ++ one x.language ++ one x.program.val ++ one x.party)] ++
                named (x.interpreter.map Fin.val)).flatten ++
            [.known (one p.route.length)] ++
            (p.route.map fun st => .known (one st.zone.val) ::
              (st.fallback.items.map fun f => named (f.map Fin.val)).flatten).flatten ++
            [.known (one p.requiredLevel)]) ++
            [.known (two time.q1 ++ two time.q2 ++ one time.closeHold ++ two time.maxWait ++ two time.window)] ++
            ([.known (one (match l.phase with | .free => 0 | .planned => 1 | .live => 2 | .closing => 3) ++
              two l.run.toNat ++ one l.stop)] ++ (l.channels.items.map fun c => named (c.map Fin.val)).flatten ++
            named (l.zone.map Fin.val) ++ named (l.prevZone.map Fin.val) ++ optional 2 (l.window.map two) ++
            named (l.target.map Fin.val) ++
            [.known (one l.stage ++ four l.timer ++ one (match l.fallback with | .off => 0 | .on => 1 | .none => 2))] ++
            optional 2 (l.hold.map two) ++ optional 4 (l.wait.map four) ++
            [.known ((l.asked.items.map one).flatten ++ one l.reserved ++ one l.issued ++ one l.returned ++
              one l.short ++ one l.unfilled)]))) ∧
    (Serving s 0x22 req →
      let n := tripleAt a 1
      (1 < byteAt a 0 ∨ (byteAt a 0 = 0 ∧ 384 ≤ n) ∨ (byteAt a 0 = 1 ∧ n = 0) →
        exec .readReceiver s = refused .badArgument) ∧
      ((∃ h : Fin 384, byteAt a 0 = 0 ∧ n = h.val ∧ s.receiver h = none) ∨
        (byteAt a 0 = 1 ∧ n ≠ 0 ∧ ∀ h r, s.receiver h = some r → r.tag.toNat ≠ n) →
        exec .readReceiver s = refused .notFound) ∧
      ∀ (h : Fin 384) (r : Receiver), s.receiver h = some r →
        (byteAt a 0 = 0 ∧ n = h.val ∨
          byteAt a 0 = 1 ∧ n = r.tag.toNat ∧ r.tag ≠ 0#24 ∧
            ∀ h' r', s.receiver h' = some r' → r'.tag = r.tag → h' = h) →
        exec .readReceiver s = told (
          [.known (two h.val ++ three r.tag.toNat ++ one (match r.phase with
            | .unseen => 0 | .docked => 1 | .reserved => 2 | .issued => 3 | .stray => 4 | .due => 5 | .overdue => 6))] ++
          optional 2 (r.bay.map fun b => two b.val) ++ optional 1 (r.level.map one) ++
          named (r.tour.map fun x => x.slot.val) ++ optional 2 (r.tour.map fun x => two x.run.toNat) ++
          named (r.tour.map fun x => x.entry.val) ++ named (r.tour.map fun x => x.channel.val) ++
          optional 1 (r.required.map one) ++ optional 4 (r.deadline.map four) ++ optional 4 (r.issueTime.map four) ++
          [.known (flag r.fault ++ flag r.short ++ two r.turnCount)])) ∧
    (Serving s 0x29 req →
      (12 ≤ byteAt a 0 → exec .readRack s = refused .badArgument) ∧
      ∀ r : Fin 12, byteAt a 0 = r.val →
        let c := (s.rack r).config
        let l := (s.rack r).live
        let k := l.counters
        let q := s.sched r
        exec .readRack s = told (
          [.known (flag c.enabled ++ two c.station.toNat ++ one c.scanLow.val ++ one c.scanHigh.val ++ two c.spacing ++
            one c.openCap ++ one c.closedCap ++ two c.baseInterval ++ two c.turnLength)] ++
          ([.known (one (match l.phase with | .disabled => 0 | .offline => 1 | .online => 2) ++ one l.pointer.val)] ++
          optional 2 (l.outstanding.map fun o => one o.bay.val ++ one (left o.ends)) ++
          named (l.waiting.map Fin.val) ++ named (l.timedOut.map Fin.val) ++
          optional 2 (l.spacingEnds.map fun e => two (left e)) ++ [.known (one l.missRun)] ++
          optional 1 (l.temperature.map signed) ++
          [.known (four k.polls ++ four k.answers ++ four k.timeouts ++ four k.lateAnswers ++ four k.malformed)]) ++
          (optional 1 (q.band.map fun b => one b.val) ++
          [.known (one q.capacity ++ one q.active.length ++
            (q.active.map fun x => one x.bay.val ++ four (left x.ends)).flatten ++
            one q.postponed ++ one q.pulledIn ++ two q.round.toNat)] ++
          optional 4 (q.cadenceEnds.map fun e => four (left e)) ++
          [.known (four q.counters.started ++ four q.counters.starved ++ four q.counters.dropped)]))) ∧
    (Serving s 0x2A req →
      (288 ≤ wordAt a 0 → exec .readBay s = refused .badArgument) ∧
      ∀ (r : Fin 12) (n : Fin 24), wordAt a 0 = r.val * 24 + n.val →
        let b := s.bay (bayAddress r n)
        let assigned (x : Option Assignment) : List Byte :=
          match x with | some y => one y.channel.val ++ flag y.lamp | none => one 255 ++ one 0
        let mode (m : ChargeMode) : List Byte := one (match m with | .off => 0 | .trickle => 1 | .fast => 2)
        exec .readBay s = told (
          (match b.presence with
            | .empty => [.known [0#8], .absent 3]
            | .known h => [.known ([1#8] ++ three h.val)]
            | .foreign tag => [.known ([2#8] ++ three tag.toNat)]) ++
          optional 2 (b.voltage.map two) ++ optional 1 (b.level.map one) ++
          [.known (flag b.rackFault ++ flag b.docked ++ flag b.ready ++ flag b.full ++ flag b.fault ++
            one (match b.settle with | .none => 0 | .dock => 1 | .dockEnded => 2 | .turn => 3))] ++
          optional 2 (b.settleEnds.map fun e => two (left e)) ++ [.known (mode b.mode ++ assigned b.assign)] ++
          optional 1 (b.reportedMode.map mode) ++ optional 2 (b.reportedAssign.map assigned) ++
          [.known (flag b.pending ++ flag b.served)] ++
          optional 4 (((s.sched r).active.find? fun x => decide (x.bay = n)).map fun x => four (left x.ends)))) ∧
    (Serving s 0x31 req → exec .readThermalTable s = told
      [.known ((s.chs.table.bounds.items.map signed).flatten ++ (s.chs.table.entries.items.map fun e =>
        one e.cap ++ one e.multiplier ++ one e.pMax ++ one e.iMax ++ one (if e.trickle then 0 else 1)).flatten)]) ∧
    (Serving s 0x43 req → exec .readIdentity s = .next (offerReply (replyTo req .done
      [0x72#8, 0x24#8, 1#8, BitVec.ofNat 8 (s.hli.station.toNat / 256), BitVec.ofNat 8 s.hli.station.toNat, 1#8,
        match s.mge.mode with | .closed => 0#8 | .opened => 1#8]) s)) ∧
    (Serving s 0x44 req →
      let total (ns : List Nat) : Nat := min ns.sum 4294967295
      let sources (f : SourceCounters → Nat) : Nat :=
        total ((indices 48).map fun i => ((s.source i).map fun r => f r.live.counters).getD 0)
      let racks (f : RackCounters → Nat) : Nat := total ((indices 12).map fun r => f (s.rack r).live.counters)
      let scheds (f : SchedCounters → Nat) : Nat := total ((indices 12).map fun r => f (s.sched r).counters)
      let c := s.hli.counters
      exec .readCounters s = .next (offerReply (replyTo req .done (
        [sources fun k => k.accepted, sources fun k => k.duplicate, sources fun k => k.late, sources fun k => k.gap,
          sources fun k => k.overrun, sources fun k => k.concealed, sources fun k => k.malformed,
          sources fun k => k.ignoredMark, total ((indices 32).map fun p => (s.program p).clipped),
          s.flt.unknownDocks, s.flt.unplannedTakes, s.flt.lateReturns,
          racks fun k => k.polls, racks fun k => k.answers, racks fun k => k.timeouts, racks fun k => k.lateAnswers,
          racks fun k => k.malformed, s.rpl.unroutedRack,
          scheds fun k => k.started, scheds fun k => k.starved, scheds fun k => k.dropped,
          c.received, c.lengthErrors, c.crcErrors, c.notAddressed, c.badVersion, c.unknownKinds, c.unroutedAudio,
          c.rackLengthErrors, c.transmitted, c.superseded, c.discards, c.linkDowns,
          s.evq.drops, s.mge.received, s.mge.busyReplies, s.mge.badRequests].map four).flatten) s))

/-! ### Requests of Source Intake, the Mixer and the Zone Allocator -/

/-- LOAD SOURCE: the checks of R2 in order, the clamps, and the record as R3 leaves it by what it held before. -/
def Obligations.LoadSourceApplies : Prop :=
  ∀ (s : State) (req : Request), Serving s 0x01 req →
    let a := requestArgs req
    let refused (status : Status) : Host.Outcome State Fault Refusal := .next (offerReply (replyTo req status []) s)
    (48 ≤ byteAt a 1 ∨ 4 ≤ byteAt a 4 ∨ 3 ≤ byteAt a 5 → exec .loadSource s = refused .badArgument) ∧
    ∀ id : Fin 48, byteAt a 1 = id.val → byteAt a 4 < 4 → byteAt a 5 < 3 →
      let station := BitVec.ofNat 16 (wordAt a 2)
      let on := if bitAt a 0 0 then 1200 else wordAt a 6
      let off := if bitAt a 0 1 then 800 else wordAt a 8
      let hang := if bitAt a 0 2 then 50 else byteAt a 10
      let keyed (r : Source) := r.config.station = station ∧ r.config.stream.val = byteAt a 4
      let taken := ∃ j r, j ≠ id ∧ s.source j = some r ∧ keyed r
      let changed := ∃ r, s.source id = some r ∧ ¬ (keyed r ∧ r.config.kind.code = byteAt a 5)
      let named := ∃ k p, ((s.tour k).live.phase = .live ∨ (s.tour k).live.phase = .closing) ∧
        (s.tour k).plan = some p ∧
        (p.guide = id ∨ ∃ e x, p.entries.get e = some x ∧ x.interpreter = some id)
      (taken → exec .loadSource s = refused .exists) ∧
      (¬ taken → changed → named → exec .loadSource s = refused .wrongState) ∧
      (¬ taken → ¬ (changed ∧ named) → ∃ u r',
        exec .loadSource s = .next (offerReply (replyTo req
          (if 32768 < on ∨ min on 32768 < off ∨ 250 < hang then .clamped else .done) []) u) ∧
        u.source id = some r' ∧ (∀ j, j ≠ id → u.source j = s.source j) ∧ KeepsAllBut [.sources] s u ∧
        keyed r' ∧ r'.config.kind.code = byteAt a 5 ∧ r'.config.onThreshold = min on 32768 ∧
        r'.config.offThreshold = min off (min on 32768) ∧ r'.config.hang = min hang 250 ∧
        r'.config.defaultGain = (if bitAt a 0 3 then 32768 else wordAt a 11) ∧
        (s.source id = none → r'.live = .initial) ∧
        ∀ r, s.source id = some r →
          (¬ keyed r → r'.live = .initial) ∧
          (keyed r → r'.live = if r.config.kind ≠ r'.config.kind ∧ (r.config.kind = .guide ∨ r'.config.kind = .guide)
            then { r.live with lastMark := none } else r.live))

/-- LOAD PROGRAM: the checks of R22 in order; otherwise the clamped fields are the program's pending record, and the
installed fields, the duck factor, the staged gains, the fallback slot, the owner, the binding and the clipped counter are
not changed (R22, R23). -/
def Obligations.LoadProgramPends : Prop :=
  ∀ (s : State) (req : Request), Serving s 0x08 req →
    let a := requestArgs req
    let refused (status : Status) : Host.Outcome State Fault Refusal := .next (offerReply (replyTo req status []) s)
    let at_ (k : Fin 5) := 2 + 5 * k.val
    let present (k : Fin 5) := byteAt a (at_ k) = 1
    let bad := 32 ≤ byteAt a 1 ∨ (∃ k, 1 < byteAt a (at_ k)) ∨
      (∃ k, present k ∧ (48 ≤ byteAt a (at_ k + 1) ∨ 1 < byteAt a (at_ k + 4))) ∨
      ∃ j k, j ≠ k ∧ present j ∧ present k ∧ byteAt a (at_ j + 1) = byteAt a (at_ k + 1)
    let depth := if bitAt a 0 0 then 8192 else wordAt a 27
    let attack := if bitAt a 0 1 then 8192 else wordAt a 29
    let release := if bitAt a 0 2 then 1024 else wordAt a 31
    (bad → exec .loadProgram s = refused .badArgument) ∧
    (¬ bad → ∀ id : Fin 32, byteAt a 1 = id.val →
      ((s.program id).owner.isSome = true → exec .loadProgram s = refused .wrongState) ∧
      ((s.program id).owner = none → ∃ u x, exec .loadProgram s = .next (offerReply (replyTo req
          (if 32768 < depth ∨ attack = 0 ∨ 32768 < attack ∨ release = 0 ∨ 32768 < release then .clamped else .done) [])
          u) ∧
        u.program id = { s.program id with pendingRec := some x } ∧
        (∀ j, j ≠ id → u.program j = s.program j) ∧ u.mxr.applyRequest = s.mxr.applyRequest ∧
        KeepsAllBut [.programs] s u ∧
        x.duckDepth = min depth 32768 ∧ x.attack = max 1 (min 32768 attack) ∧ x.release = max 1 (min 32768 release) ∧
        ∀ k, (¬ present k → x.members.get k = none) ∧
          (present k → ∃ m, x.members.get k = some m ∧ m.source.val = byteAt a (at_ k + 1) ∧
            m.gain = wordAt a (at_ k + 2) ∧ m.cls.code = byteAt a (at_ k + 4))))

/-- STAGE GAIN writes the staged gain of one member slot of a loaded program, and APPLY GAINS sets the apply request; the
mix is not acted on until the next mix point (R25, R26). -/
def Obligations.GainsStagedUntilApplied : Prop :=
  ∀ (s : State) (req : Request),
    let a := requestArgs req
    let refused (status : Status) : Host.Outcome State Fault Refusal := .next (offerReply (replyTo req status []) s)
    (Serving s 0x09 req →
      (32 ≤ byteAt a 0 ∨ 5 ≤ byteAt a 1 → exec .stageGain s = refused .badArgument) ∧
      ∀ (id : Fin 32) (k : Fin 5), byteAt a 0 = id.val → byteAt a 1 = k.val →
        ((s.program id).installed = none ∧ (s.program id).pendingRec = none →
          exec .stageGain s = refused .notFound) ∧
        (¬((s.program id).installed = none ∧ (s.program id).pendingRec = none) → ∃ u,
          exec .stageGain s = .next (offerReply (replyTo req .done []) u) ∧
          u.program id = { s.program id with staged := (u.program id).staged } ∧
          (∀ j, (u.program id).staged.get j = if j = k then some (wordAt a 2) else (s.program id).staged.get j) ∧
          (∀ j, j ≠ id → u.program j = s.program j) ∧ u.mxr.applyRequest = s.mxr.applyRequest ∧
          KeepsAllBut [.programs] s u)) ∧
    (Serving s 0x0A req →
      exec .applyGains s = .next (offerReply (replyTo req .done []) (s.withMxr { s.mxr with applyRequest := true })))

/-- LOAD CHANNEL: the checks of R45 in order; otherwise the channel is STANDING with the program and the zone set given, or
FREE with neither, and the bindings of the old and the new program follow. Where no tour waits, the carried counts change
by the zones added and removed and no other channel changes (R44 to R46, R29). -/
def Obligations.LoadChannelBinds : Prop :=
  ∀ (s : State) (req : Request), Serving s 0x10 req → ZonesPlaced s →
    let a := requestArgs req
    let refused (status : Status) : Host.Outcome State Fault Refusal := .next (offerReply (replyTo req status []) s)
    let n := byteAt a 1
    let zs := BitVec.ofNat 12 (wordAt a 2)
    let bad := 24 ≤ byteAt a 0 ∨ (32 ≤ n ∧ n ≠ 255) ∨ 4096 ≤ wordAt a 2
    (bad → exec .loadChannel s = refused .badArgument) ∧
    (¬ bad → ∀ ch : Fin 24, byteAt a 0 = ch.val →
      let c := s.channel ch
      let bit (x : ZoneSet) (z : Fin 12) : Nat := if x.getLsbD z.val then 1 else 0
      let settled (u : State) (x : ZoneSet) := (∀ z, (s.zone z).queue = []) →
        (∀ z, (u.zone z).carried + bit c.zones z = (s.zone z).carried + bit x z ∧ (u.zone z).queue = []) ∧
        (∀ j, j ≠ ch → u.channel j = s.channel j) ∧ u.tcl = s.tcl
      (c.phase = .tour → exec .loadChannel s = refused .wrongState) ∧
      (c.phase = .free → n = 255 → exec .loadChannel s = .next (offerReply (replyTo req .done []) s)) ∧
      (c.phase = .standing → n = 255 → ∃ u, exec .loadChannel s = .next (offerReply (replyTo req .done []) u) ∧
        u.channel ch = { c with phase := .free, program := none, zones := 0#12 } ∧
        (∀ p, u.program p = if c.program = some p then { s.program p with binding := none } else s.program p) ∧
        settled u 0#12 ∧ KeepsAllBut [.zones, .programs, .tours, .events, .egress] s u) ∧
      (c.phase ≠ .tour → ∀ p : Fin 32, n = p.val →
        let unloaded := (s.program p).installed = none ∧ (s.program p).pendingRec = none
        let elsewhere := (s.program p).owner.isSome = true ∨ ∃ b, (s.program p).binding = some b ∧ b ≠ ch
        let full := ∃ z : Fin 12, zs.getLsbD z.val = true ∧ 8 < (s.zone z).carried + (1 - bit c.zones z)
        (unloaded → exec .loadChannel s = refused .notFound) ∧
        (¬ unloaded → elsewhere → exec .loadChannel s = refused .wrongState) ∧
        (¬ unloaded → ¬ elsewhere → full → exec .loadChannel s = refused .zoneFull) ∧
        (¬ unloaded → ¬ elsewhere → ¬ full → ∃ u,
          exec .loadChannel s = .next (offerReply (replyTo req .done []) u) ∧
          u.channel ch = { c with
            phase := if c.program = some p then c.phase else .standing, program := some p, zones := zs } ∧
          (∀ q, u.program q =
            if c.program = some p then s.program q
            else if q = p then { s.program p with
              binding := some ch, duck := if s.mge.mode = .opened then 32768 else (s.program p).duck }
            else if c.program = some q then { s.program q with binding := none } else s.program q) ∧
          settled u zs ∧ KeepsAllBut [.zones, .programs, .tours, .events, .egress] s u)))

/-! ### Requests of the Tour Controller -/

/-- LOAD TOUR PLAN: the checks of R63 in order; otherwise the plan is the one given, with the required level at most 100,
each party at most 96 and at most what the entries before it leave of 192. A FREE slot becomes PLANNED with the Reset
timing and all counts 0; a PLANNED slot keeps its timing and its last run, the stop index at most the new last stop. The
run number is kept (R63, R64). That the slot's current zone is absent and not 0 is the model's reading (log 28). -/
def Obligations.TourPlanLoaded : Prop :=
  ∀ (s : State) (req : Request), Serving s 0x18 req →
    let a := requestArgs req
    let refused (status : Status) : Host.Outcome State Fault Refusal := .next (offerReply (replyTo req status []) s)
    let n := byteAt a 24
    let at_ (e : Fin 4) := 4 + 5 * e.val
    let present (e : Fin 4) := byteAt a (at_ e) = 1
    let source (byte : Nat) := byte < 48 ∨ byte = 255
    let level := if bitAt a 1 0 then 60 else byteAt a 3
    let bad := 16 ≤ byteAt a 0 ∨ 48 ≤ byteAt a 2 ∨ (∃ e, 1 < byteAt a (at_ e)) ∨
      (∃ e, present e ∧ (16 ≤ byteAt a (at_ e + 1) ∨ 32 ≤ byteAt a (at_ e + 2) ∨
        (e ≠ 0 ∧ ¬ source (byteAt a (at_ e + 4))))) ∨
      ∃ k < n, 12 ≤ byteAt a (25 + 5 * k) ∨ ∃ e : Fin 4, ¬ source (byteAt a (26 + 5 * k + e.val))
    let inconsistent := ¬ present 0 ∨ (∃ e, e ≠ 0 ∧ present e ∧ byteAt a (at_ e + 4) = 255) ∨
      (∃ e f, e ≠ f ∧ present e ∧ present f ∧ byteAt a (at_ e + 2) = byteAt a (at_ f + 2)) ∨ n = 0 ∨ 24 < n ∨
      ∃ k < n, ∃ e : Fin 4, ¬ present e ∧ byteAt a (26 + 5 * k + e.val) ≠ 255
    let given (e : Fin 4) := if byteAt a (at_ e) = 1 then min (byteAt a (at_ e + 3)) 96 else 0
    let clamped := 100 < level ∨ (∃ e, present e ∧ 96 < byteAt a (at_ e + 3)) ∨ 192 < ((indices 4).map given).sum
    (bad → exec .loadTourPlan s = refused .badArgument) ∧
    (¬ bad → ∀ slot : Fin 16, byteAt a 0 = slot.val →
      let old := s.tour slot
      let running := old.live.phase = .live ∨ old.live.phase = .closing
      (running → exec .loadTourPlan s = refused .wrongState) ∧
      (¬ running → inconsistent → exec .loadTourPlan s = refused .badPlan) ∧
      (¬ running → ¬ inconsistent → ∃ u p,
        (clamped → exec .loadTourPlan s = .next (offerReply (replyTo req .clamped []) u)) ∧
        (¬ clamped → exec .loadTourPlan s = .next (offerReply (replyTo req .done []) u)) ∧
        (u.tour slot).plan = some p ∧ p.guide.val = byteAt a 2 ∧ p.requiredLevel = min level 100 ∧
        (∀ e, ¬ present e → p.entries.get e = none) ∧
        (∀ e, present e → ∃ x, p.entries.get e = some x ∧ x.language = byteAt a (at_ e + 1) ∧
          x.program.val = byteAt a (at_ e + 2) ∧
          x.interpreter.map Fin.val = (if e = 0 then none else some (byteAt a (at_ e + 4))) ∧
          x.party = min (given e) (192 - (((indices 4).filter (· < e)).map fun f =>
            ((p.entries.get f).map Entry.party).getD 0).sum)) ∧
        p.route.length = n ∧
        (∀ k st, p.route[k]? = some st → st.zone.val = byteAt a (25 + 5 * k) ∧
          ∀ e : Fin 4, (st.fallback.get e).map Fin.val = (if byteAt a (26 + 5 * k + e.val) = 255 then none
            else some (byteAt a (26 + 5 * k + e.val)))) ∧
        (old.live.phase = .free → (u.tour slot).timing = some ⟨30, 30, 3, 60, 1000⟩ ∧
          (u.tour slot).live = { TourLive.reset with phase := .planned, run := old.live.run }) ∧
        (old.live.phase = .planned → (u.tour slot).timing = old.timing ∧
          (u.tour slot).live = { old.live with stop := min old.live.stop (n - 1) }) ∧
        (∀ k, k ≠ slot → u.tour k = s.tour k) ∧ KeepsAllBut [.tours] s u))

/-- LOAD TOUR TIMING replaces the timing of a slot that is not FREE, each value clamped and the window rounded up to a
multiple of 4 ms, and moves no running timer (R65). CLEAR TOUR makes a PLANNED slot FREE, with its plan and timing gone,
its counts and stop index 0 and its run number kept (R66). That its current zone is absent and not 0 is the model's reading
(log 28). -/
def Obligations.TimingLoadedAndSlotCleared : Prop :=
  ∀ (s : State) (req : Request),
    let a := requestArgs req
    let refused (status : Status) : Host.Outcome State Fault Refusal := .next (offerReply (replyTo req status []) s)
    (Serving s 0x19 req →
      let q1 := if bitAt a 1 0 then 30 else wordAt a 2
      let q2 := if bitAt a 1 1 then 30 else wordAt a 4
      let hold := if bitAt a 1 2 then 3 else byteAt a 6
      let wait := if bitAt a 1 3 then 60 else wordAt a 7
      let window := if bitAt a 1 4 then 1000 else wordAt a 9
      let outside (x : Nat) := x = 0 ∨ 600 < x
      (16 ≤ byteAt a 0 → exec .loadTourTiming s = refused .badArgument) ∧
      ∀ slot : Fin 16, byteAt a 0 = slot.val →
        ((s.tour slot).live.phase = .free → exec .loadTourTiming s = refused .wrongState) ∧
        ((s.tour slot).live.phase ≠ .free → ∃ w,
          let new : Timing := ⟨max 1 (min 600 q1), max 1 (min 600 q2), min hold 60, max 1 (min 600 wait), w⟩
          exec .loadTourTiming s = .next (offerReply
            (replyTo req
              (if outside q1 ∨ outside q2 ∨ 60 < hold ∨ outside wait ∨ 10000 < window then .clamped else .done) [])
            (s.putTour slot { s.tour slot with timing := some new })) ∧
          w % 4 = 0 ∧ min window 10000 ≤ w ∧ w < min window 10000 + 4)) ∧
    (Serving s 0x1A req →
      (16 ≤ byteAt a 0 → exec .clearTour s = refused .badArgument) ∧
      ∀ slot : Fin 16, byteAt a 0 = slot.val →
        ((s.tour slot).live.phase ≠ .planned → exec .clearTour s = refused .wrongState) ∧
        ((s.tour slot).live.phase = .planned → exec .clearTour s = .next (offerReply (replyTo req .done [])
          (s.putTour slot
            { plan := none, timing := none, live := { TourLive.reset with run := (s.tour slot).live.run } }))))

/-- TOUR START: the checks of R68 and R49 in order. Otherwise each present entry takes the next of the lowest-numbered FREE
channels, in entry order, in the zone of the first stop; its program is owned and bound with a duck factor of 32768; the
live record is set for a new run; receivers are reserved by one request of the party for each present entry, in entry order,
whose answers the reply carries (what a request does is `ReservationTakesHighestLevel`); and TOUR_STARTED is raised. The rack
sender then acts (log 10), the answers of absent entries are zeros (log 14), and an absent entry's asked count is 0 (log 15)
(R49, R68, R69, R70). -/
def Obligations.TourStartBindsAndReserves : Prop :=
  ∀ (s : State) (req : Request), Serving s 0x1C req → ZonesPlaced s →
    let a := requestArgs req
    let refused (status : Status) : Host.Outcome State Fault Refusal :=
      .next (offerReply (replyTo req status []) (rackSender s))
    (16 ≤ byteAt a 0 → exec .tourStart s = refused .badArgument) ∧
    ∀ slot : Fin 16, byteAt a 0 = slot.val →
      let old := (s.tour slot).live
      (old.phase ≠ .planned → exec .tourStart s = refused .wrongState) ∧
      (old.phase = .planned → s.mge.mode = .closed → exec .tourStart s = refused .hallClosed) ∧
      (old.phase = .planned → s.mge.mode = .opened → ∀ p st rest, (s.tour slot).plan = some p → p.route = st :: rest →
        (∀ e f x y, p.entries.get e = some x → p.entries.get f = some y → x.program = y.program → e = f) →
        let kind (i : Fin 48) := (s.source i).map fun r => r.config.kind
        let ready := (∀ e x, p.entries.get e = some x →
            (s.program x.program).owner = none ∧ (s.program x.program).binding = none ∧
            ∃ r k m, (s.program x.program).pendingRec.or (s.program x.program).installed = some r ∧
              r.members.get k = some m ∧ m.cls = .voice ∧
              (e = 0 → m.source = p.guide) ∧
              (e ≠ 0 → x.interpreter = some m.source ∧ kind m.source = some .interpreter)) ∧
          kind p.guide = some .guide ∧ (∀ t ∈ p.route, ∀ e i, t.fallback.get e = some i → kind i = some .track) ∧
          ∀ k q, k ≠ slot → ((s.tour k).live.phase = .live ∨ (s.tour k).live.phase = .closing) →
            (s.tour k).plan = some q → q.guide ≠ p.guide
        let free := (indices 24).filter fun c => decide ((s.channel c).phase = .free)
        let before (e : Fin 4) := ((indices 4).filter fun f => decide (f < e) && (p.entries.get f).isSome).length
        let k := ((indices 4).filter fun f => (p.entries.get f).isSome).length
        (¬ ready → exec .tourStart s = refused .badPlan) ∧
        (ready → free.length < k → exec .tourStart s = refused .noChannel) ∧
        (ready → k ≤ free.length → 8 < (s.zone st.zone).carried + k → exec .tourStart s = refused .zoneFull) ∧
        (ready → k ≤ free.length → (s.zone st.zone).carried + k ≤ 8 → ∃ u data, ∃ answers : Tab ReserveAnswer 4,
          exec .tourStart s = .next (offerReply (replyTo req .done data) u) ∧
          (let l := (u.tour slot).live
           let part (x : Option (Fin 24)) : List Byte := match x with
             | some c => [1#8, BitVec.ofNat 8 c.val]
             | none => [0#8, 0xFF#8]
           data = enc16 l.run.toNat ++ ((indices 4).map fun e => part (l.channels.get e)).flatten ++
             ((indices 4).map fun e => enc8 (answers.get e).reserved ++ enc8 (answers.get e).short ++
               enc8 (answers.get e).unfilled).flatten ∧
           (∀ e, p.entries.get e = none → answers.get e = ⟨0, 0, 0⟩ ∧ l.channels.get e = none ∧ l.asked.get e = 0) ∧
           (∀ e x, p.entries.get e = some x → l.asked.get e = x.party ∧
             (answers.get e).reserved + (answers.get e).unfilled = x.party ∧
             (answers.get e).short ≤ (answers.get e).reserved ∧
             ∃ c, free[before e]? = some c ∧ l.channels.get e = some c ∧
               u.channel c = ⟨.tour, some x.program, 1#12 <<< st.zone.val, (s.channel c).seq⟩ ∧
               u.program x.program = { s.program x.program with
                 owner := some (slot, e), binding := some c, duck := 32768 }) ∧
           (l.phase = .live ∧ l.run = old.run + 1#16 ∧ l.stop = 0 ∧ l.zone = some st.zone ∧ l.prevZone = none ∧
             l.window = none ∧ l.target = none ∧ l.stage = 0 ∧ l.timer = (timingOf (s.tour slot)).q1 * 250 ∧
             l.fallback = .off ∧ l.hold = none ∧ l.wait = none ∧ l.issued = 0 ∧ l.returned = 0 ∧
             l.reserved = (answers.items.map ReserveAnswer.reserved).sum ∧
             l.short = (answers.items.map ReserveAnswer.short).sum ∧
             l.unfilled = (answers.items.map ReserveAnswer.unfilled).sum) ∧
           EventsTaken [⟨.tourStarted, s.mge.hubTime, slot.val, some l.run, l.reserved * 256 + l.unfilled⟩] s u) ∧
          (u.tour slot).plan = some p ∧ (u.tour slot).timing = (s.tour slot).timing ∧
          (∀ j, j ≠ slot → u.tour j = s.tour j) ∧ (∀ c, c ∉ free.take k → u.channel c = s.channel c) ∧
          (∀ z, u.zone z = if z = st.zone then { s.zone z with carried := (s.zone z).carried + k } else s.zone z) ∧
          (∀ q, (∀ e x, p.entries.get e = some x → x.program ≠ q) → u.program q = s.program q) ∧
          (∀ h, u.receiver h = s.receiver h ∨ ∃ r r', s.receiver h = some r ∧ r.phase = .docked ∧
            u.receiver h = some r' ∧ r'.phase = .reserved ∧
            r'.tour.map (fun x => (x.slot, x.run)) = some (slot, old.run + 1#16)) ∧
          (∃ at_ : Fin 5 → State, KeepsAllBut [.zones, .tours, .programs] s (at_ 0) ∧
            (∀ e : Fin 4, (p.entries.get e = none → at_ e.succ = at_ e.castSucc) ∧
              ∀ x c, p.entries.get e = some x → (u.tour slot).live.channels.get e = some c →
                reserve { slot := slot, run := old.run + 1#16, entry := e, channel := c, required := p.requiredLevel
                          count := x.party } (at_ e.castSucc) = (answers.get e, at_ e.succ)) ∧
            (∀ h, u.receiver h = (at_ 4).receiver h) ∧
            (∀ b, u.bay b = { (at_ 4).bay b with pending := (u.bay b).pending }) ∧
            (u.tour slot).live = ((at_ 4).tour slot).live) ∧
          KeepsAllBut [.zones, .tours, .programs, .receivers, .events, .choices, .bays, .sender, .egress] s u))

/-- RESERVE MORE: the checks of R71 in order; otherwise the count is clamped to what the entry's 96 and the tour's 192 leave,
is added to the entry's asked count, and a reservation request of that count answers the reply's three numbers. The rack
sender then acts (log 10). What a reservation request does is `ReservationTakesHighestLevel` (R71). -/
def Obligations.ReserveMoreClamps : Prop :=
  ∀ (s : State) (req : Request), Serving s 0x1D req →
    let a := requestArgs req
    let refused (status : Status) : Host.Outcome State Fault Refusal :=
      .next (offerReply (replyTo req status []) (rackSender s))
    (16 ≤ byteAt a 0 ∨ 4 ≤ byteAt a 1 → exec .reserveMore s = refused .badArgument) ∧
    ∀ (slot : Fin 16) (e : Fin 4), byteAt a 0 = slot.val → byteAt a 1 = e.val →
      let l := (s.tour slot).live
      let n := byteAt a 2
      (l.phase ≠ .live → exec .reserveMore s = refused .wrongState) ∧
      ∀ p, l.phase = .live → (s.tour slot).plan = some p →
        (p.entries.get e = none → exec .reserveMore s = refused .notFound) ∧
        ∀ x ch, p.entries.get e = some x → l.channels.get e = some ch →
          let k := min n (min (96 - l.asked.get e) (192 - ((indices 4).map fun f => l.asked.get f).sum))
          let r := reserve
            { slot := slot, run := l.run, entry := e, channel := ch, required := p.requiredLevel, count := k }
            (s.putLive slot { l with asked := l.asked.set e (l.asked.get e + k) })
          exec .reserveMore s = .next (offerReply
            (replyTo req (if k < n then .clamped else .done)
              [BitVec.ofNat 8 r.1.reserved, BitVec.ofNat 8 r.1.short, BitVec.ofNat 8 r.1.unfilled])
            (rackSender r.2)) ∧
          (k = 0 → r.1 = ⟨0, 0, 0⟩ ∧ ∀ h, r.2.receiver h = s.receiver h)

/-- TOUR END: a CLOSING tour stays as it is. A LIVE tour's RESERVED receivers are released; then it is CLOSING with its wait
loaded, and its hold loaded if its guide is quiet, or, with the guide quiet and a close hold of 0, closed at once. TOUR
ABORT closes a LIVE or CLOSING tour. Each reply carries the counts. The current zone of a closed tour is absent, the model's
reading (log 28). The rack sender then acts (log 10) (R81, R84, R105). -/
def Obligations.TourEndAndAbort : Prop :=
  ∀ (s : State) (req : Request),
    let a := requestArgs req
    let refused (status : Status) : Host.Outcome State Fault Refusal :=
      .next (offerReply (replyTo req status []) (rackSender s))
    (Serving s 0x1E req → 16 ≤ byteAt a 0 → exec .tourEnd s = refused .badArgument) ∧
    (Serving s 0x1F req → 16 ≤ byteAt a 0 → exec .tourAbort s = refused .badArgument) ∧
    ∀ slot : Fin 16, byteAt a 0 = slot.val →
      let t := s.tour slot
      let counts : List Byte := [BitVec.ofNat 8 t.live.issued, BitVec.ofNat 8 t.live.returned]
      let closedTo (u : State) := TourClosed slot s u ∧
        (∃ more, EventsTaken (⟨.tourClosed, s.mge.hubTime, slot.val, some t.live.run,
          t.live.issued * 256 + t.live.returned⟩ :: more) s u) ∧
        KeepsAllBut [.receivers, .bays, .tours, .programs, .zones, .events, .egress, .sender] s u
      (Serving s 0x1E req →
        (t.live.phase = .free ∨ t.live.phase = .planned → exec .tourEnd s = refused .wrongState) ∧
        (t.live.phase = .closing →
          exec .tourEnd s = .next (offerReply (replyTo req .done (3#8 :: counts)) (rackSender s))) ∧
        (t.live.phase = .live →
          let quiet := guideVoice s slot = false
          let mine (r : Receiver) := r.phase = .reserved ∧
            r.tour.map (fun x => (x.slot, x.run)) = some (slot, t.live.run)
          let timing := timingOf t
          (quiet ∧ timing.closeHold = 0 → ∃ u,
            exec .tourEnd s = .next (offerReply (replyTo req .done (1#8 :: counts)) u) ∧ closedTo u) ∧
          (¬ (quiet ∧ timing.closeHold = 0) → ∃ u,
            exec .tourEnd s = .next (offerReply (replyTo req .done (3#8 :: counts)) u) ∧
            (u.tour slot).plan = t.plan ∧ (u.tour slot).timing = t.timing ∧
            (∃ freed : List (Fin 384), freed.Nodup ∧ (∀ h, h ∈ freed ↔ ∃ r, s.receiver h = some r ∧ mine r) ∧
              (u.tour slot).live = { t.live with
                phase := .closing, reserved := t.live.reserved - freed.length
                wait := some (timing.maxWait * 250)
                hold := if guideVoice s slot then none else some (timing.closeHold * 250) }) ∧
            (∀ k, k ≠ slot → u.tour k = s.tour k) ∧
            (∀ h, s.receiver h = none → u.receiver h = none) ∧
            (∀ h r, s.receiver h = some r →
              (mine r → u.receiver h =
                  some { r with phase := .docked, tour := none, short := false, required := none } ∧
                ∀ b, r.bay = some b → (u.bay b).assign = none) ∧
              (¬ mine r → u.receiver h = some r)) ∧
            KeepsAllBut [.receivers, .bays, .tours, .sender, .egress] s u))) ∧
      (Serving s 0x1F req →
        (t.live.phase = .free ∨ t.live.phase = .planned → exec .tourAbort s = refused .wrongState) ∧
        (t.live.phase = .live ∨ t.live.phase = .closing → ∃ u,
          exec .tourAbort s = .next (offerReply (replyTo req .done counts) u) ∧ closedTo u))

/-! ### Requests of the Fleet Table -/

/-- A reservation request takes receivers from the pool of R102, the highest level first and the lowest bay address among
equal levels, until the count is met or the pool is empty. Each taken record is RESERVED for the request, short when its
level is below the required one, and its bay is assigned the channel with the lamp on; no other record or bay changes
(R102, R103, R104, R70). -/
def Obligations.ReservationTakesHighestLevel : Prop :=
  ∀ (q : Reservation) (s : State),
    let answer := (reserve q s).1
    let t := (reserve q s).2
    let pooled (r : Receiver) (p : Nat) (a : Fin 288) := r.phase = .docked ∧ r.level = some p ∧ r.fault = false ∧
      r.bay = some a ∧ (s.rack (rackOf a)).live.phase = .online
    ∃ taken : List (Fin 384), taken.Nodup ∧
      (∀ h ∈ taken, ∃ r p a, s.receiver h = some r ∧ pooled r p a ∧
        t.receiver h = some { r with
          phase := .reserved, tour := some ⟨q.slot, q.run, q.entry, q.channel⟩, required := some q.required
          short := decide (p < q.required) } ∧
        (t.bay a).assign = some ⟨q.channel, true⟩) ∧
      (∀ h, h ∉ taken → t.receiver h = s.receiver h) ∧
      (∀ h ∈ taken, ∀ r p a, s.receiver h = some r → pooled r p a → ∀ h' r' p' a', h' ∉ taken →
        s.receiver h' = some r' → pooled r' p' a' → p' < p ∨ (p' = p ∧ a ≤ a')) ∧
      (taken.length < q.count → ∀ h r p a, s.receiver h = some r → pooled r p a → h ∈ taken) ∧
      taken.length + answer.unfilled = q.count ∧ answer.reserved = taken.length ∧
      answer.short = (taken.filter fun h =>
        ((s.receiver h).bind Receiver.level).any fun p => decide (p < q.required)).length ∧
      (∀ a, t.bay a = { s.bay a with
        assign := (t.bay a).assign
        pending := (s.bay a).pending || decide ((t.bay a).assign ≠ (s.bay a).assign) }) ∧
      (∀ a, (∀ h ∈ taken, (s.receiver h).bind Receiver.bay ≠ some a) → t.bay a = s.bay a) ∧
      (∀ k, t.tour k = if k = q.slot then
        { s.tour k with live := { (s.tour k).live with
            reserved := (s.tour k).live.reserved + answer.reserved
            short := (s.tour k).live.short + answer.short
            unfilled := (s.tour k).live.unfilled + answer.unfilled } } else s.tour k) ∧
      KeepsAllBut [.receivers, .bays, .tours] s t

/-- ENROL: the checks of R90 in order; otherwise the lowest absent handle holds a new record of the tag, UNSEEN, or DOCKED in
the FOREIGN bay with the lowest address that shows the tag, which becomes KNOWN and takes its mode by R153. The rack sender
then acts (log 10) (R90, R91). -/
def Obligations.EnrolCreatesRecord : Prop :=
  ∀ (s : State) (req : Request), Serving s 0x20 req →
    let a := requestArgs req
    let tag := BitVec.ofNat 24 (tripleAt a 0)
    let new : Receiver := ⟨tag, .unseen, none, none, false, false, none, none, none, none, 0⟩
    (tripleAt a 0 = 0 → exec .enrol s = .next (offerReply (replyTo req .badArgument []) (rackSender s))) ∧
    (tripleAt a 0 ≠ 0 →
      (∀ h r, s.receiver h = some r → r.tag = tag → (∀ h' r', s.receiver h' = some r' → r'.tag = tag → h' = h) →
        exec .enrol s = .next (offerReply (replyTo req .exists (enc16 h.val)) (rackSender s))) ∧
      ((∀ h r, s.receiver h = some r → r.tag ≠ tag) →
        ((∀ h, s.receiver h ≠ none) →
          exec .enrol s = .next (offerReply (replyTo req .tableFull []) (rackSender s))) ∧
        ∀ h, s.receiver h = none → (∀ h' < h, s.receiver h' ≠ none) →
          ((∀ b, (s.bay b).presence ≠ .foreign tag) →
            exec .enrol s = .next (offerReply (replyTo req .done (enc16 h.val))
              (rackSender (s.putReceiver h (some new))))) ∧
          ∀ b, (s.bay b).presence = .foreign tag → (∀ b' < b, (s.bay b').presence ≠ .foreign tag) → ∃ u,
            exec .enrol s = .next (offerReply (replyTo req .done (enc16 h.val)) u) ∧
            u.receiver h = some { new with
              phase := .docked, bay := some b, fault := (s.bay b).fault
              level := if (s.bay b).settle = .dock then none else (s.bay b).level } ∧
            (∀ h', h' ≠ h → u.receiver h' = s.receiver h') ∧
            u.bay b = { s.bay b with
              presence := .known h, mode := (u.bay b).mode, pending := (u.bay b).pending } ∧
            ((∀ x ∈ (s.sched (rackOf b)).active, x.bay ≠ bayNumber b) →
              ((u.bay b).mode = .trickle ↔ (s.bay b).fault = false ∧ (s.bay b).full = false ∧
                ∃ e, bandEntry s (rackOf b) = some e ∧ e.trickle = true) ∧
              (u.bay b).mode ≠ .fast) ∧
            (∀ b', b' ≠ b → u.bay b' = { s.bay b' with pending := (u.bay b').pending }) ∧
            KeepsAllBut [.receivers, .bays, .sender, .egress] s u))

/-- RETIRE: the checks of R93 in order; otherwise the record is absent, and the bay of a DOCKED one is FOREIGN with its tag
and its level, voltage and signals unchanged. With no active turn on that bay nothing else of any receiver changes. That
bay's mode is judged (log 26), and the rack sender then acts (log 10) (R93). -/
def Obligations.RetireRemovesRecord : Prop :=
  ∀ (s : State) (req : Request), Serving s 0x21 req →
    let a := requestArgs req
    let refused (status : Status) : Host.Outcome State Fault Refusal :=
      .next (offerReply (replyTo req status []) (rackSender s))
    (384 ≤ wordAt a 0 → exec .retire s = refused .badArgument) ∧
    ∀ h : Fin 384, wordAt a 0 = h.val →
      (s.receiver h = none → exec .retire s = refused .notFound) ∧
      ∀ r, s.receiver h = some r →
        (r.phase = .reserved ∨ r.phase = .issued → exec .retire s = refused .wrongState) ∧
        (r.phase ≠ .reserved → r.phase ≠ .issued → ∃ u,
          exec .retire s = .next (offerReply (replyTo req .done []) u) ∧ u.receiver h = none ∧
          (r.phase ≠ .docked → ∀ h', h' ≠ h → u.receiver h' = s.receiver h') ∧
          (r.phase ≠ .docked → KeepsAllBut [.receivers, .bays, .sender, .egress] s u ∧
            ∀ b, u.bay b = { s.bay b with pending := (u.bay b).pending }) ∧
          (∀ b, r.phase = .docked → r.bay = some b →
            (let x := u.bay b
             x.presence = .foreign r.tag ∧ x.level = (s.bay b).level ∧ x.voltage = (s.bay b).voltage ∧
             x.docked = (s.bay b).docked ∧ x.ready = (s.bay b).ready ∧ x.full = (s.bay b).full ∧
             x.fault = (s.bay b).fault ∧ x.assign = (s.bay b).assign) ∧
            (∀ x ∈ (u.sched (rackOf b)).active, x.bay ≠ bayNumber b) ∧
            (∀ b', b' ≠ b → (u.bay b').presence = (s.bay b').presence ∧ (u.bay b').level = (s.bay b').level ∧
              (u.bay b').assign = (s.bay b').assign) ∧
            ((∀ x ∈ (s.sched (rackOf b)).active, x.bay ≠ bayNumber b) →
              (∀ h', h' ≠ h → u.receiver h' = s.receiver h') ∧ u.chs = s.chs)) ∧
          KeepsAllBut [.receivers, .bays, .sched, .sender, .egress] s u)

/-! ### Requests of the Rack Poller and the Charge Scheduler -/

/-- LOAD RACK CONFIG: the checks of R113 in order; otherwise the clamped fields replace the loaded ones, C is the new one,
and the live fields follow the enabled field before and after as R114 states: a newly enabled or re-keyed rack is OFFLINE
with its first POLL sent, a disabled one has its poll and timers abandoned. The RACK_OFFLINE of a re-key carries the miss
run of before (log 16). The rack sender then acts (log 10) (R113, R114, R116, R141, R149). -/
def Obligations.RackConfigApplied : Prop :=
  ∀ (s : State) (req : Request), Serving s 0x28 req →
    let a := requestArgs req
    let refused (status : Status) : Host.Outcome State Fault Refusal :=
      .next (offerReply (replyTo req status []) (rackSender s))
    let low := if bitAt a 1 0 then 0 else byteAt a 5
    let high := if bitAt a 1 1 then 23 else byteAt a 6
    let spacing := if bitAt a 1 2 then 50 else wordAt a 7
    let openCap := if bitAt a 1 3 then 3 else byteAt a 9
    let closedCap := if bitAt a 1 4 then 6 else byteAt a 10
    let base := if bitAt a 1 5 then 60 else wordAt a 11
    let turn := if bitAt a 1 6 then 300 else wordAt a 13
    let station := BitVec.ofNat 16 (wordAt a 3)
    let on := byteAt a 2 = 1
    let bad := 12 ≤ byteAt a 0 ∨ 1 < byteAt a 2 ∨ 24 ≤ low ∨ 24 ≤ high
    let clamped := high < low ∨ spacing < 10 ∨ 1000 < spacing ∨ 6 < openCap ∨ 6 < closedCap ∨ base < 10 ∨
      600 < base ∨ turn < 30 ∨ 1800 < turn
    (bad → exec .loadRackConfig s = refused .badArgument) ∧
    (¬ bad → ∀ rack : Fin 12, byteAt a 0 = rack.val →
      let old := s.rack rack
      let taken := on ∧ ∃ r, r ≠ rack ∧ (s.rack r).config.enabled = true ∧ (s.rack r).config.station = station
      (taken → exec .loadRackConfig s = refused .exists) ∧
      (¬ taken → ∃ u,
        (clamped → exec .loadRackConfig s = .next (offerReply (replyTo req .clamped []) u)) ∧
        (¬ clamped → exec .loadRackConfig s = .next (offerReply (replyTo req .done []) u)) ∧
        (let c := (u.rack rack).config
         (c.enabled = true ↔ on) ∧ c.station = station ∧ c.scanLow.val = low ∧ c.scanHigh.val = max low high ∧
         c.spacing = max 10 (min 1000 spacing) ∧ c.openCap = min openCap 6 ∧ c.closedCap = min closedCap 6 ∧
         c.baseInterval = max 10 (min 600 base) ∧ c.turnLength = max 30 (min 1800 turn) ∧
         (u.sched rack).capacity = capacityOf u rack ∧
         (∀ r, r ≠ rack → u.rack r = s.rack r ∧ u.sched r = s.sched r) ∧
         (let l := (u.rack rack).live
          let polled (l' : RackLive) : RackLive :=
            { l' with
              phase := .offline, missRun := 0, timedOut := none
              pointer := if c.scanLow < c.scanHigh then c.scanLow + 1 else c.scanLow
              waiting := if s.hli.linkUp then some c.scanLow else none
              outstanding := if s.hli.linkUp then l'.outstanding else some ⟨c.scanLow, s.clock.now + 20⟩
              counters := { l'.counters with polls := min (l'.counters.polls + 1) 4294967295 } }
          let sent : EgressFrame :=
            { dest := station, origin := .poll rack c.scanLow true, payload := [BitVec.ofNat 8 low] }
          let silenced : RackLive := { old.live with outstanding := none, waiting := none, spacingEnds := none }
          (old.config.enabled = false → ¬ on → l = old.live) ∧
          (old.config.enabled = false → on → l = polled old.live ∧
            (s.hli.linkUp = true → sent ∈ heldFrames u.hli)) ∧
          (old.config.enabled = true → ¬ on → l = { silenced with phase := .disabled } ∧
            (QueuesBounded s → ∀ b, ∀ f ∈ heldFrames u.hli, f.origin ≠ .poll rack b true)) ∧
          (old.config.enabled = true → on → old.config.station ≠ station → l = polled silenced ∧
            (s.hli.linkUp = true → sent ∈ heldFrames u.hli)) ∧
          (old.config.enabled = true → on → old.config.station = station →
            l = { old.live with pointer :=
              if old.config.scanLow = c.scanLow ∧ old.config.scanHigh = c.scanHigh then old.live.pointer
              else c.scanLow }) ∧
          (let rekeyed := old.config.enabled = true ∧ on ∧ old.config.station ≠ station
           (rekeyed ∧ old.live.phase = .online →
             EventsTaken [⟨.rackOffline, s.mge.hubTime, rack.val, none, old.live.missRun⟩] s u) ∧
           (¬ (rekeyed ∧ old.live.phase = .online) → u.evq = s.evq) ∧
           (old.config.enabled = true → (¬ on ∨ rekeyed) → old.live.phase = .online →
             (u.sched rack).active = [])))) ∧
        KeepsAllBut [.rackConfigs, .rackLives, .sched, .bays, .events, .sender, .egress] s u))

/-- LOAD LEVEL CURVE refuses points that are not in order and otherwise replaces the curve whole (R128). SET HALL SETTINGS
replaces the four settings together, clamped, and its reply carries them as applied (R186). -/
def Obligations.LevelCurveAndSettingsLoaded : Prop :=
  ∀ (s : State) (req : Request),
    let a := requestArgs req
    (Serving s 0x2B req →
      let valid := (∀ k < 7, wordAt a (3 * k) < wordAt a (3 * k + 3) ∧ byteAt a (3 * k + 2) ≤ byteAt a (3 * k + 5)) ∧
        byteAt a 23 ≤ 100
      (¬ valid → exec .loadLevelCurve s = .next (offerReply (replyTo req .badArgument []) s)) ∧
      (valid → ∃ curve : Tab CurvePoint 8,
        exec .loadLevelCurve s =
          .next (offerReply (replyTo req .done []) (s.withRpl { s.rpl with curve := curve })) ∧
        ∀ k, curve.get k = ⟨wordAt a (3 * k.val), byteAt a (3 * k.val + 2)⟩)) ∧
    (Serving s 0x45 req →
      let ready := if bitAt a 0 0 then 80 else byteAt a 1
      let full := if bitAt a 0 1 then 98 else byteAt a 2
      let grace := if bitAt a 0 2 then 15 else byteAt a 3
      let auto := if bitAt a 0 3 then 0 else byteAt a 4
      (1 < auto → exec .setHallSettings s = .next (offerReply (replyTo req .badArgument []) s)) ∧
      (auto ≤ 1 →
        let x : Settings :=
          { ready := min ready 100, full := max (min full 100) (min ready 100), grace := max 1 (min 240 grace)
            autoEnrol := decide (auto = 1) }
        exec .setHallSettings s = .next (offerReply
          (replyTo req
            (if 100 < ready ∨ 100 < full ∨ full < min ready 100 ∨ grace = 0 ∨ 240 < grace then .clamped else .done)
            [BitVec.ofNat 8 x.ready, BitVec.ofNat 8 x.full, BitVec.ofNat 8 x.grace, BitVec.ofNat 8 auto])
          (s.withMge { s.mge with settings := x }))))

/-- LOAD THERMAL TABLE: refused for boundaries out of range or order and for an unknown trickle code; otherwise the clamped
table replaces the old one, and every rack with a band is treated: its band is the one whose range holds its temperature,
nothing is pulled in, postponements are capped and the excess dropped, C follows, and the latest turns beyond C end. The
trickle codes are the model's reading (log 14), and the rack sender then acts (log 10) (R138, R139, R150, R151). -/
def Obligations.ThermalTableLoaded : Prop :=
  ∀ (s : State) (req : Request), Serving s 0x30 req →
    let a := requestArgs req
    let bad := (∃ k < 7, signedAt a k < -40 ∨ 125 < signedAt a k) ∨ (∃ k < 6, signedAt a (k + 1) ≤ signedAt a k) ∨
      ∃ k < 8, 1 < byteAt a (11 + 5 * k)
    let clamped := ∃ k < 8, 6 < byteAt a (7 + 5 * k) ∨ byteAt a (8 + 5 * k) = 0 ∨ 8 < byteAt a (8 + 5 * k) ∨
      8 < byteAt a (9 + 5 * k) ∨ 8 < byteAt a (10 + 5 * k)
    (bad → exec .loadThermalTable s = .next (offerReply (replyTo req .badArgument []) (rackSender s))) ∧
    (¬ bad → ∃ u,
      (clamped → exec .loadThermalTable s = .next (offerReply (replyTo req .clamped []) u)) ∧
      (¬ clamped → exec .loadThermalTable s = .next (offerReply (replyTo req .done []) u)) ∧
      (∀ k, u.chs.table.bounds.get k = signedAt a k.val) ∧
      (∀ k, u.chs.table.entries.get k =
        { cap := min (byteAt a (7 + 5 * k.val)) 6, multiplier := max 1 (min 8 (byteAt a (8 + 5 * k.val)))
          pMax := min (byteAt a (9 + 5 * k.val)) 8, iMax := min (byteAt a (10 + 5 * k.val)) 8
          trickle := decide (byteAt a (11 + 5 * k.val) = 0) }) ∧
      (∀ r, (s.sched r).band = none → u.sched r = s.sched r) ∧
      (∀ r k temp, (s.sched r).band = some k → (s.rack r).live.temperature = some temp → ∃ k',
        (u.sched r).band = some k' ∧
        k'.val = ((indices 7).filter fun j => decide (u.chs.table.bounds.get j ≤ temp)).length ∧
        (let e := u.chs.table.entries.get k'
         (u.sched r).capacity = capacityOf u r ∧ (u.sched r).pulledIn = 0 ∧
         (u.sched r).postponed = min (s.sched r).postponed e.pMax ∧
         (u.sched r).counters = { (s.sched r).counters with
           dropped := min ((s.sched r).counters.dropped + ((s.sched r).postponed - e.pMax)) 4294967295 } ∧
         (((s.sched r).active.map Turn.bay).Nodup →
           (u.sched r).active = (s.sched r).active.take (u.sched r).capacity) ∧
         (u.sched r).round = (s.sched r).round)) ∧
      KeepsAllBut [.bandTable, .sched, .bays, .events, .sender, .egress] s u)

/-- The band of a temperature under ascending boundaries: fresh, the number of boundaries at or below it; from a present
band, up to that number if it is higher, down to the number of boundaries that lie less than 2 above it if that is lower,
and otherwise unchanged. A BAY STATUS leaves its rack in the band of its temperature (R139, R140, R120). -/
def Obligations.BandFollowsTemperature : Prop :=
  (∀ (t : BandTable) (temp : Int), (∀ i j : Fin 7, i < j → t.bounds.get i < t.bounds.get j) →
    let up := ((indices 7).filter fun j => decide (t.bounds.get j ≤ temp)).length
    let down := ((indices 7).filter fun j => decide (t.bounds.get j < temp + 2)).length
    (bandFor t temp none).val = up ∧
    ∀ k : Fin 8, (bandFor t temp (some k)).val = if k.val < up then up else if down < k.val then down else k.val) ∧
  ∀ (s : State) (frame : List Byte) (station : Station) (payload : List Byte) (rack : Fin 12) (b : Fin 24)
    (shown : Option RxTag), Arrives s frame .bayStatus station payload → FrameOfRack s station rack →
    StatusShows payload shown → byteAt payload 0 = b.val → ∃ t, exec (.bayStatus frame) s = .next t ∧
      (t.sched rack).band =
        some (bandFor s.chs.table (max (-40) (min 125 (signedAt payload 11))) (s.sched rack).band) ∧
      ∀ r, r ≠ rack → (t.sched r).band = (s.sched r).band

/-! ### Requests of the Event Queue and the Management Engine -/

/-- READ EVENTS removes the oldest records, up to 16, and returns them with the number left, the overflow flag and the drop
counter, which it does not change (R177). FLUSH EVENTS removes every record, clears the flag and zeroes the counter, and
returns the number removed (R178). A record is laid out by Table 8-9. An enabled event that finds 31 records in the queue
brings an ATTENTION to the desk, where one is known: over a link that is UP with fewer than 7 frames in class 3, the frame
being placed among them (log 12), it is held with the count, the overflow flag and the hub time, and otherwise it is
discarded. No other event touches the arbiter (R168, R175, R176). -/
def Obligations.EventsReadAndFlushed : Prop :=
  (∀ (kind : EventKind) (subject : Nat) (run : Option (BitVec 16)) (detail : Nat) (s : State),
    let t := raiseEvent kind subject run detail s
    let c := s.hli.counters
    let rises := s.evq.enables.getLsbD kind.code = true ∧ s.evq.queue.length = 31
    EventsTaken [⟨kind, s.mge.hubTime, subject, run, detail⟩] s t ∧ KeepsAllBut [.events, .egress] s t ∧
    (¬ rises ∨ s.evq.desk = none → t.hli = s.hli) ∧
    ∀ desk, rises → s.evq.desk = some desk →
      (s.hli.linkUp = true → class3Held s.hli < 7 → t.hli.counters = c ∧ heldFrames t.hli = heldFrames s.hli ++
        [{ dest := desk, origin := .attention
           payload := [32#8, if s.evq.overflow then 1#8 else 0#8] ++ enc32 s.mge.hubTime }]) ∧
      (s.hli.linkUp = false ∨ 7 ≤ class3Held s.hli →
        t.hli = { s.hli with counters := { c with discards := min (c.discards + 1) 4294967295 } })) ∧
  ∀ (s : State) (req : Request),
    let q := s.evq.queue
    let flag (b : Bool) : Byte := if b then 1#8 else 0#8
    let two (n : Nat) : List Byte := [BitVec.ofNat 8 (n / 256), BitVec.ofNat 8 n]
    let four (n : Nat) : List Byte := two (n / 65536) ++ two n
    let bytes (r : EventRecord) : List Byte :=
      [BitVec.ofNat 8 r.kind.code, flag r.run.isSome] ++ four r.time ++ two r.subject ++
      (match r.run with | some x => two x.toNat | none => [0#8, 0#8]) ++ two r.detail
    (Serving s 0x38 req → exec .readEvents s = .next (offerReply
      (replyTo req .done ([BitVec.ofNat 8 (min 16 q.length), BitVec.ofNat 8 (q.length - 16), flag s.evq.overflow] ++
        four s.evq.drops ++ ((q.take 16).map bytes).flatten))
      (s.withEvq { s.evq with queue := q.drop 16 }))) ∧
    (Serving s 0x39 req → exec .flushEvents s = .next (offerReply (replyTo req .done [BitVec.ofNat 8 q.length])
      (s.withEvq { s.evq with queue := [], overflow := false, drops := 0 })))

/-- ENABLE SET sets and ENABLE CLEAR clears every enable whose bit is 1 in the mask and leaves the others; bit 31 is not
read. The reply is DONE with the whole table, bit 31 as 0, and the queue, flag and counter are not changed. The table is all
set after power-on and pin reset and RESTART keeps it (R173). -/
def Obligations.EnableMasksApplied : Prop :=
  (∀ (s : State) (req : Request),
    let mask := quadAt (requestArgs req) 0
    (Serving s 0x3A req → ∃ table : BitVec 31,
      exec .enableSet s = .next (offerReply (replyTo req .done (enc32 table.toNat))
        (s.withEvq { s.evq with enables := table })) ∧
      ∀ i < 31, table.getLsbD i = if mask.testBit i then true else s.evq.enables.getLsbD i) ∧
    (Serving s 0x3B req → ∃ table : BitVec 31,
      exec .enableClear s = .next (offerReply (replyTo req .done (enc32 table.toNat))
        (s.withEvq { s.evq with enables := table })) ∧
      ∀ i < 31, table.getLsbD i = if mask.testBit i then false else s.evq.enables.getLsbD i)) ∧
  (∀ table : BitVec 31, quadAt (enc32 table.toNat) 0 = table.toNat) ∧
  ∀ (s t : State), (∀ straps i, i < 31 →
      (exec (.powerOn straps) s = .next t → t.evq.enables.getLsbD i = true) ∧
      (exec (.pinReset straps) s = .next t → t.evq.enables.getLsbD i = true)) ∧
    (exec .restart s = .next t → t.evq.enables = s.evq.enables)

/-- SET HALL MODE: an unknown code is refused and the present mode changes nothing. OPEN to CLOSED closes every LIVE or
CLOSING tour, leaves the others, and answers their number; CLOSED to OPEN puts every bound program on air with a duck factor
of 32768. The current zone of a closed tour is absent, the model's reading (log 28). Either change gives each rack the C of
the new mode and resynchronises each enabled one. The rack sender then acts (log 10) (R183, R86, R152, R155, R29). -/
def Obligations.HallModeChanges : Prop :=
  ∀ (s : State) (req : Request), Serving s 0x40 req →
    let code := byteAt (requestArgs req) 0
    let now : Nat := match s.mge.mode with | .closed => 0 | .opened => 1
    let resynced (u : State) := ∀ r, (u.sched r).capacity = capacityOf u r ∧
      (u.sched r).band = (s.sched r).band ∧ (u.sched r).active.length ≤ (s.sched r).active.length ∧
      (u.sched r).active.length ≤ (u.sched r).capacity ∧
      ((u.rack r).config.enabled = true → (u.sched r).postponed = 0 ∧ (u.sched r).pulledIn = 0 ∧
        (u.sched r).round = (s.sched r).round + 1#16 ∧ ∀ b, (u.bay (bayAddress r b)).served = false)
    (1 < code → exec .setHallMode s = .next (offerReply (replyTo req .badArgument []) (rackSender s))) ∧
    (code = now → exec .setHallMode s =
      .next (offerReply (replyTo req .done [BitVec.ofNat 8 code, 0#8]) (rackSender s))) ∧
    (code = 0 → s.mge.mode = .opened → ZonesPlaced s → ∃ u,
      let running (k : Fin 16) := (s.tour k).live.phase = .live ∨ (s.tour k).live.phase = .closing
      let n := ((indices 16).filter fun k =>
        decide ((s.tour k).live.phase = .live ∨ (s.tour k).live.phase = .closing)).length
      exec .setHallMode s = .next (offerReply (replyTo req .done [0#8, BitVec.ofNat 8 n]) u) ∧
      u.mge = { s.mge with mode := .closed } ∧
      (∀ k, running k → LiveClosed (s.tour k).live (u.tour k).live ∧ (u.tour k).plan = (s.tour k).plan ∧
        (u.tour k).timing = (s.tour k).timing ∧
        (∀ h r, s.receiver h = some r → r.tour.map TourRef.slot = some k → ∃ r', u.receiver h = some r' ∧
          ReceiverClosed k (s.tour k).live.run (dueDeadline s) s.mge.hubTime r r') ∧
        ∀ e c, (s.tour k).live.channels.get e = some c → u.channel c =
          { s.channel c with phase := .free, program := none, zones := 0#12 }) ∧
      (∀ k, ¬ running k → u.tour k = s.tour k) ∧ resynced u ∧
      KeepsAllBut [.mode, .receivers, .bays, .tours, .programs, .zones, .sched, .events, .sender, .egress] s u) ∧
    (code = 1 → s.mge.mode = .closed → ∃ u,
      exec .setHallMode s = .next (offerReply (replyTo req .done [1#8, 0#8]) u) ∧
      u.mge = { s.mge with mode := .opened } ∧
      (∀ p, u.program p = { s.program p with
        duck := if (s.program p).binding.isSome then 32768 else (s.program p).duck }) ∧
      resynced u ∧ KeepsAllBut [.mode, .programs, .bays, .sched, .sender, .egress] s u)

/-- RESTART: every LIVE or CLOSING tour is closed and the others stay; the hall is CLOSED; every loaded source is ABSENT with
initial live fields; every program has a duck factor of 32768; the event queue is empty, of OVERDUE events too (log 21);
class 1 is empty; every bay is pending; every counter of the blocks is 0; each enabled rack is resynchronised. Requests,
settings, hub time, enables and desk address are kept. The current zone of a closed tour is absent, the model's reading
(log 28). The rack sender then acts (log 10): while it holds a frame every bay
stays pending; over a link that is UP it takes one bay, of the ONLINE rack first in its turn; over one that is DOWN it takes
every bay of the ONLINE racks (R132, R184). -/
def Obligations.RestartResetsBlocks : Prop :=
  ∀ (s : State) (req : Request), Serving s 0x41 req → ZonesPlaced s → ∃ u,
    exec .restart s = .next (offerReply (replyTo req .done []) u) ∧
    u.mge = { s.mge with mode := .closed, received := 0, busyReplies := 0, badRequests := 0 } ∧
    u.evq = { s.evq with queue := [], overflow := false, drops := 0 } ∧ u.hli.class1 = [] ∧
    (∀ i, u.source i = (s.source i).map fun r => { r with live := ⟨.absent, none, none, none, 0, 0, 0, false, 0, none,
      ⟨0, 0, 0, 0, 0, 0, 0, 0⟩⟩ }) ∧
    (∀ p, u.program p = { s.program p with
      duck := 32768, clipped := 0, owner := (u.program p).owner, fallback := (u.program p).fallback
      binding := (u.program p).binding }) ∧
    (∀ k, (s.tour k).live.phase = .live ∨ (s.tour k).live.phase = .closing →
      LiveClosed (s.tour k).live (u.tour k).live ∧ (u.tour k).plan = (s.tour k).plan ∧
      (u.tour k).timing = (s.tour k).timing ∧
      (∀ p e x, (s.tour k).plan = some p → p.entries.get e = some x →
        (u.program x.program).owner = none ∧ (u.program x.program).fallback = none) ∧
      (∀ h r, s.receiver h = some r → r.tour.map TourRef.slot = some k → ∃ r', u.receiver h = some r' ∧
        ReceiverClosed k (s.tour k).live.run (dueDeadline s) s.mge.hubTime r r')) ∧
    (∀ k, (s.tour k).live.phase = .free ∨ (s.tour k).live.phase = .planned → u.tour k = s.tour k) ∧
    (∀ c, (s.channel c).phase = .standing → u.channel c = s.channel c) ∧
    (u.flt.unknownDocks = 0 ∧ u.flt.unplannedTakes = 0 ∧ u.flt.lateReturns = 0 ∧ u.rpl.unroutedRack = 0 ∧
      (s.hli.linkUp = true → u.hli.counters = ⟨0, 0, 0, 0, 0, 0, 0, 0, 0, 0, 0, 0⟩)) ∧
    (∀ r, (u.rack r).config = (s.rack r).config ∧
      (u.rack r).live = { (s.rack r).live with counters := ⟨0, 0, 0, 0, 0⟩ } ∧
      (u.sched r).counters = ⟨0, 0, 0⟩ ∧ (u.sched r).capacity = capacityOf u r ∧
      ((s.rack r).live.phase ≠ .online → ∀ b, (u.bay (bayAddress r b)).pending = true) ∧
      ((s.rack r).config.enabled = true → (u.sched r).postponed = 0 ∧ (u.sched r).pulledIn = 0 ∧
        (u.sched r).round = (s.sched r).round + 1#16)) ∧
    (s.rpl.senderHolds = true → ∀ a, (u.bay a).pending = true) ∧
    (s.rpl.senderHolds = false → s.hli.linkUp = false → ∀ r b, (s.rack r).live.phase = .online →
      (u.bay (bayAddress r b)).pending = false) ∧
    (∀ r, s.rpl.senderHolds = false → s.hli.linkUp = true → (s.rack r).live.phase = .online →
      (∀ r', (s.rack r').live.phase = .online →
        (r.val + 11 - s.rpl.lastRack.val) % 12 ≤ (r'.val + 11 - s.rpl.lastRack.val) % 12) →
      u.rpl.senderHolds = true ∧ u.rpl.lastRack = r ∧
      ∀ r' b, (u.bay (bayAddress r' b)).pending =
        !(decide (r' = r) && decide (b.val = ((s.rpl.lastBay.get r).val + 1) % 24))) ∧
    KeepsAllBut [.mode, .sched, .sources, .fleetCounters, .rackLives, .unroutedRack, .receivers, .bays, .tours,
      .programs, .zones, .events, .egress, .sender, .requests] s u

/-- SET TIME takes the new hub time at once, its next rise one full second later, and answers the old one; HUB_TIME_TICK
raises it by 1 up to 4294967295. Each makes OVERDUE, in ascending handle order and with one event each, every DUE record
whose deadline the new time has reached. OVERDUE does so for one record. Elapsed time is the model's (log 1)
(R185, R107). -/
def Obligations.HubTimeJudgesDeadlines : Prop :=
  ∀ s : State,
    let late (time : Nat) (r : Receiver) : Bool :=
      decide (r.phase = .due) && r.deadline.any fun d => decide (d ≤ time)
    let event (time : Nat) (h : Fin 384) (r : Receiver) : EventRecord :=
      ⟨.overdue, time, h.val, none, (r.tour.map fun x => x.slot.val * 256 + x.entry.val).getD 0⟩
    let judged (time : Nat) (u : State) :=
      (∀ h, u.receiver h = (s.receiver h).map fun r => if late time r then { r with phase := .overdue } else r) ∧
      EventsTaken ((indices 384).filterMap fun h =>
        (s.receiver h).bind fun r => if late time r then some (event time h r) else none) s u
    (∀ req, Serving s 0x42 req → ∃ u,
      exec .setTime s = .next (offerReply (replyTo req .done (enc32 s.mge.hubTime)) u) ∧
      u.mge = { s.mge with hubTime := quadAt (requestArgs req) 0 } ∧
      u.clock = { s.clock with nextSecond := s.clock.now + 1000 } ∧ judged (quadAt (requestArgs req) 0) u ∧
      KeepsAllBut [.clock, .hubTime, .receivers, .events, .egress] s u) ∧
    (∃ t, exec .hubTimeTick s = .next t ∧
      t.clock = { s.clock with
        now := max s.clock.now s.clock.nextSecond, nextSecond := s.clock.nextSecond + 1000 } ∧
      (s.mge.hubTime < 4294967295 → t.mge = { s.mge with hubTime := s.mge.hubTime + 1 } ∧
        judged (s.mge.hubTime + 1) t) ∧
      (4294967295 ≤ s.mge.hubTime → KeepsAllBut [.clock] s t) ∧
      KeepsAllBut [.clock, .hubTime, .receivers, .events, .egress] s t) ∧
    ∀ h, (∀ r, s.receiver h = some r → late s.mge.hubTime r = true → ∃ t, exec (.overdue h) s = .next t ∧
        t.receiver h = some { r with phase := .overdue } ∧ (∀ h', h' ≠ h → t.receiver h' = s.receiver h') ∧
        EventsTaken [event s.mge.hubTime h r] s t ∧ KeepsAllBut [.receivers, .events, .egress] s t) ∧
      ((∀ r, s.receiver h = some r → late s.mge.hubTime r = false) → exec (.overdue h) s = .next s)

/-! ### The mix point -/

/-- MIX_POINT and the sources: the next mix point stands 4 ms later (log 1), and every loaded source empties its slot, takes
a fresh frame or counts a miss, goes STALE at the 25th miss or LIVE again, has the level of the frame handed on and then its
voice flag by R16. The frame handed on is the fresh one, the last one with its samples halved, or silence
(R10 to R13, R15, R16). -/
def Obligations.MixPointTakesSlots : Prop :=
  ∀ s : State, ∃ t, exec .mixPoint s = .next t ∧
    t.clock = { s.clock with now := max s.clock.now s.clock.nextMix, nextMix := s.clock.nextMix + 4 } ∧
    ∀ i, (s.source i = none → t.source i = none ∧ ∀ n, ((handedFrame (s.source i)).get n).toInt = 0) ∧
      ∀ r, s.source i = some r → ∃ x, t.source i = some { r with live := x } ∧
        (let l := r.live
         let handed := handedFrame (s.source i)
         let miss := min (l.missRun + 1) 65535
         x.slot = none ∧ x.lastSeq = l.lastSeq ∧ x.lastMark = l.lastMark ∧
         (∀ f, l.phase ≠ .absent → l.slot = some f → handed = f ∧ x.phase = .live ∧ x.lastUsed = some f ∧
           x.missRun = 0 ∧ x.concealStep = 0 ∧ x.counters = l.counters ∧
           (∀ n, (f.get n).toInt.natAbs ≤ x.level) ∧ ∃ n, (f.get n).toInt.natAbs = x.level) ∧
         (l.phase = .absent ∨ l.slot = none → x.level = 0 ∧ x.lastUsed = l.lastUsed) ∧
         (l.phase = .absent → x.phase = .absent ∧ x.missRun = l.missRun ∧ x.concealStep = l.concealStep ∧
           x.counters = l.counters ∧ ∀ n, (handed.get n).toInt = 0) ∧
         (l.phase = .live → l.slot = none → x.missRun = miss ∧
           x.phase = (if 25 ≤ miss then .stale else .live) ∧ x.concealStep = (if l.concealStep = 0 then 1 else 2) ∧
           x.counters = { l.counters with concealed := min (l.counters.concealed + 1) 4294967295 } ∧
           (∀ f, l.concealStep = 0 → l.lastUsed = some f → ∀ n, (handed.get n).toInt = (f.get n).toInt / 2) ∧
           (l.concealStep ≠ 0 → ∀ n, (handed.get n).toInt = 0)) ∧
         (l.phase = .stale → l.slot = none → x.missRun = miss ∧ x.phase = .stale ∧ x.concealStep = l.concealStep ∧
           x.counters = l.counters ∧ ∀ n, (handed.get n).toInt = 0) ∧
         (let on := r.config.onThreshold
          let off := r.config.offThreshold
          (on ≤ x.level → x.voice = true ∧ x.hangLeft = r.config.hang) ∧
          (x.level < on → l.voice = true → off ≤ x.level → x.voice = true ∧ x.hangLeft = r.config.hang) ∧
          (x.level < on → l.voice = true → x.level < off →
            x.hangLeft = l.hangLeft - 1 ∧ x.voice = decide (l.hangLeft - 1 ≠ 0)) ∧
          (x.level < on → l.voice = false → x.voice = false ∧ x.hangLeft = l.hangLeft)))

/-- MIX_POINT and the programs: each pending record is installed; with the apply request set, each staged gain replaces the
gain of a present member and is gone; the request is cleared; an off-air program keeps duck factor and clipped counter; an
on-air one moves its duck factor one step towards its target and counts a frame that was saturated
(R24, R26, R30 to R33, R37). -/
def Obligations.MixPointRunsPrograms : Prop :=
  ∀ s : State, ∃ t, exec .mixPoint s = .next t ∧ t.mxr.applyRequest = false ∧
    ∀ p, (t.program p).pendingRec = none ∧
      (∀ k, (t.program p).staged.get k = if s.mxr.applyRequest then none else (s.program p).staged.get k) ∧
      (let record := (s.program p).pendingRec.or (s.program p).installed
       (record = none → (t.program p).installed = none) ∧
       ∀ r, record = some r → ∃ r', (t.program p).installed = some r' ∧ r'.duckDepth = r.duckDepth ∧
         r'.attack = r.attack ∧ r'.release = r.release ∧
         (∀ k, r.members.get k = none → r'.members.get k = none) ∧
         (∀ k m, r.members.get k = some m → r'.members.get k = some { m with
           gain := if s.mxr.applyRequest then ((s.program p).staged.get k).getD m.gain else m.gain }) ∧
         ((s.program p).binding = none ∨ s.mge.mode = .closed →
           (t.program p).duck = (s.program p).duck ∧ (t.program p).clipped = (s.program p).clipped) ∧
         ((s.program p).binding.isSome = true → s.mge.mode = .opened →
           let speaks (i : Fin 48) := ∃ x, t.source i = some x ∧ x.live.voice = true
           let active := (∃ k m, r'.members.get k = some m ∧ m.cls = .voice ∧ speaks m.source) ∨
             ∃ i, (s.program p).fallback = some i ∧ speaks i
           let g := (s.program p).duck
           (∀ target, (active → target = r.duckDepth) → (¬ active → target = 32768) →
             (t.program p).duck =
               if target < g then max target (g - r.attack) else if g < target then min target (g + r.release) else g) ∧
           (t.program p).clipped =
             if mixClips (t.program p).duck (inputsOf (mixFeed s t) r' (s.program p).fallback)
             then min ((s.program p).clipped + 1) 4294967295 else (s.program p).clipped))

/-- MIX_POINT and the channels, of a hub whose arbiter is settled: with the hall OPEN, each channel's sequence rises by 1 for
each program bound to it, and over a link that is UP the program's PROGRAM frame is handed to the arbiter with the zone set
and the sequence that the channel had; the frames of an earlier mix point still in class 1 are superseded. Nothing is emitted
in a CLOSED hall, and class 1 then stays as it is (log 13) (R38, R48, R166, R169). -/
def Obligations.MixPointEmitsFrames : Prop :=
  ∀ s : State, ArbiterSettled s → ∃ t, exec .mixPoint s = .next t ∧
    (∀ c, (t.channel c).seq = (s.channel c).seq +
      BitVec.ofNat 16 (if s.mge.mode = .opened then
        ((indices 32).filter fun p => decide ((s.program p).binding = some c)).length else 0)) ∧
    (s.mge.mode = .closed → t.hli.class1 = s.hli.class1 ∧ t.hli.counters.superseded = s.hli.counters.superseded) ∧
    (s.mge.mode = .opened → s.hli.linkUp = true → ∀ p c r, (s.program p).binding = some c →
      (∀ q, (s.program q).binding = some c → q = p) → (t.program p).installed = some r →
      t.hli.counters.superseded = min (s.hli.counters.superseded + s.hli.class1.length) 4294967295 ∧
      { dest := 0xFFFF#16, origin := .program c
        payload := [BitVec.ofNat 8 c.val] ++ enc16 (s.channel c).zones.toNat ++ enc16 (s.channel c).seq.toNat ++
          ((mixFrame (t.program p).duck (inputsOf (mixFeed s t) r (s.program p).fallback)).items.map fun x =>
            enc16 x.toNat).flatten } ∈ heldFrames t.hli)

/-- Effective gains and sums: a VOICE input has its own gain and a BED input its gain times the duck factor over 32768,
rounded half up, at most 65535 (R34). A sample is the exact sum over all inputs, in any order, of sample times effective
gain, which up to 6 inputs keep within 35 bits (R35), scaled back by rounding half up, half-way sums going to the greater value (R36), and
saturated to the sample range; a frame clips exactly when a sample of it was saturated (R37). A single VOICE input at unity
gain is not altered (R36). -/
def Obligations.SumsRoundHalfUp : Prop :=
  (∀ (g : Nat) (x : Input),
    (x.cls = .voice → effectiveGain g x = x.gain) ∧
    (x.cls = .bed → effectiveGain g x = (x.gain * g + 16384) / 32768) ∧
    (x.cls = .bed → g = 32768 → effectiveGain g x = x.gain) ∧ (x.cls = .bed → g = 0 → effectiveGain g x = 0) ∧
    (x.gain ≤ 65535 → g ≤ 32768 → effectiveGain g x ≤ 65535)) ∧
  (∀ sum : Int, 32768 * roundSum sum ≤ sum + 16384 ∧ sum + 16384 < 32768 * roundSum sum + 32768) ∧
  roundSum 16384 = 1 ∧ roundSum (-16384) = 0 ∧ roundSum (-49152) = -1 ∧
  (∀ (g : Nat) (inputs : List Input),
    let total (n : Fin 64) : Int := (inputs.map fun x => (x.frame.get n).toInt * (effectiveGain g x : Int)).sum
    let scaled (n : Fin 64) : Int := (total n + 16384) / 32768
    (∀ n, ((mixFrame g inputs).get n).toInt = max (-32768) (min 32767 (scaled n))) ∧
    (mixClips g inputs = true ↔ ∃ n, scaled n < -32768 ∨ 32767 < scaled n) ∧
    (inputs.length ≤ 6 → g ≤ 32768 → (∀ x ∈ inputs, x.gain ≤ 65535) →
      ∀ n, -12884705280 ≤ total n ∧ total n ≤ 12884312070) ∧
    (∀ x ∈ inputs, x.gain ≤ 65535 → g ≤ 32768 → ∀ n,
      -2147450880 ≤ (x.frame.get n).toInt * (effectiveGain g x : Int) ∧
      (x.frame.get n).toInt * (effectiveGain g x : Int) ≤ 2147385345) ∧
    ∀ others, inputs.Perm others → mixFrame g inputs = mixFrame g others ∧ mixClips g inputs = mixClips g others) ∧
  ∀ (g : Nat) (x : Input), x.cls = .voice → x.gain = 32768 → mixFrame g [x] = x.frame ∧ mixClips g [x] = false

/-- SOURCE_STALE: a LIVE source with an empty slot and 24 misses behind it has its 25th, is STALE and raises the event with
its last sequence (R12). VOICE_FLAG_CLEAR: a quiet source whose hang runs out at the level recorded loses its flag (R16). On
any other source each has no effect (log 8). MIX_POINT raises, in ascending source id and before every other event, a
SOURCE_STALE for each such LIVE source and a SOURCE_BACK with the miss run for each STALE source whose slot holds a frame
(R12, R13; the order is log 17). -/
def Obligations.SourceEventsOfMixPoint : Prop :=
  (∀ s : State, ∃ t rest, exec .mixPoint s = .next t ∧ EventsTaken
    ((indices 48).filterMap (fun i => (s.source i).bind fun r =>
      let l := r.live
      if l.phase = .live ∧ l.slot.isNone = true ∧ 24 ≤ l.missRun then
        some ⟨.sourceStale, s.mge.hubTime, i.val, none, (l.lastSeq.map BitVec.toNat).getD 0⟩
      else if l.phase = .stale ∧ l.slot.isSome = true then
        some ⟨.sourceBack, s.mge.hubTime, i.val, none, l.missRun⟩
      else none) ++ rest) s t) ∧
  ∀ (s : State) (i : Fin 48),
    (s.source i = none → exec (.sourceStale i) s = .next s ∧ exec (.voiceFlagClear i) s = .next s) ∧
    ∀ r, s.source i = some r →
      let l := r.live
      let stale := l.phase = .live ∧ l.slot = none ∧ 24 ≤ l.missRun
      let quiet := l.voice = true ∧ l.level < r.config.onThreshold ∧ l.level < r.config.offThreshold ∧ l.hangLeft ≤ 1
      (¬ stale → exec (.sourceStale i) s = .next s) ∧
      (stale → ∃ t x, exec (.sourceStale i) s = .next t ∧ t.source i = some { r with live := x } ∧
        x.phase = .stale ∧ x.missRun = min (l.missRun + 1) 65535 ∧ x.level = 0 ∧ x.slot = none ∧
        x.lastUsed = l.lastUsed ∧ x.lastSeq = l.lastSeq ∧ x.lastMark = l.lastMark ∧
        x.counters = { l.counters with concealed := min (l.counters.concealed + 1) 4294967295 } ∧
        (∀ j, j ≠ i → t.source j = s.source j) ∧
        EventsTaken [⟨.sourceStale, s.mge.hubTime, i.val, none, (l.lastSeq.map BitVec.toNat).getD 0⟩] s t ∧
        KeepsAllBut [.sources, .events, .egress] s t) ∧
      (¬ quiet → exec (.voiceFlagClear i) s = .next s) ∧
      (quiet → exec (.voiceFlagClear i) s =
        .next (s.putSource i (some { r with live := { l with voice := false, hangLeft := 0 } })))

/-! ### Tours at a mix point -/

/-- WINDOW_END of a tour whose window has one mix point left: the previous zone leaves the zone sets of the tour's channels,
the tour is SETTLED, and HANDOVER_DONE is raised before the previous zone's queue is served. Where the queue is empty or its
head does not fit, the previous zone carries the tour's channels fewer and nothing else changes. Otherwise the head is
granted the zone, with the window of its own timing, or with none and HANDOVER_DONE at once; where its window is not 0 and
the next tour does not fit, nothing else changes. On any other tour WINDOW_END has no effect (log 8). MIX_POINT counts every
open window down by 1 and ends it at 0, unless it closes the tour (R52, R54, R57). Window remaining is absent with the
previous zone (log 24). -/
def Obligations.WindowEndDropsZone : Prop :=
  ∀ (s : State) (slot : Fin 16), ZonesPlaced s →
    let l := (s.tour slot).live
    let count (x : TourLive) := ((indices 4).filter fun e => (x.channels.get e).isSome).length
    (l.prevZone = none ∨ (∃ w, l.window = some w ∧ 1 < w) → exec (.windowEnd slot) s = .next s) ∧
    (∀ z w, l.prevZone = some z → l.window = some w → w ≤ 1 → ∃ t more, exec (.windowEnd slot) s = .next t ∧
      (t.tour slot) = { s.tour slot with live := { l with prevZone := none, window := none } } ∧
      EventsTaken (⟨.handoverDone, s.mge.hubTime, slot.val, some l.run, z.val⟩ :: more) s t ∧
      (∀ e c, l.channels.get e = some c →
        t.channel c = { s.channel c with zones := (s.channel c).zones &&& ~~~(1#12 <<< z.val) }) ∧
      (let q := (s.zone z).queue
       let carried := (s.zone z).carried - count l
       ((∀ x, q.head? = some x → 8 < carried + x.need) → more = [] ∧
         (t.zone z).carried + count l = (s.zone z).carried ∧ (t.zone z).queue = q ∧
         (∀ y, y ≠ z → t.zone y = s.zone y) ∧ (∀ k, k ≠ slot → t.tour k = s.tour k) ∧
         ∀ c, (∀ e, l.channels.get e ≠ some c) → t.channel c = s.channel c) ∧
       ∀ x rest cur, q = x :: rest → carried + x.need ≤ 8 → (s.tour x.slot).live.zone = some cur →
         let m := (s.tour x.slot).live
         let w' := (timingOf (s.tour x.slot)).window / 4
         let behind := rest.filter fun y => decide (y.slot ≠ x.slot)
         t.tour x.slot = { s.tour x.slot with live := { m with
           zone := some z, target := none, prevZone := if w' = 0 then none else some cur
           window := if w' = 0 then none else some w' } } ∧
         (∀ e c, m.channels.get e = some c → t.channel c = { s.channel c with
           zones := (1#12 <<< z.val) ||| (if w' = 0 then 0#12 else 1#12 <<< cur.val) }) ∧
         (∀ y ∈ (t.zone z).queue, y.slot ≠ x.slot) ∧
         (w' = 0 → ∃ others, more = ⟨.handoverDone, s.mge.hubTime, x.slot.val, some m.run, cur.val⟩ :: others) ∧
         (w' ≠ 0 → (∀ y, behind.head? = some y → 8 < carried + count m + y.need) → more = [] ∧
           t.zone z = { carried := carried + count m, queue := behind } ∧ (∀ y, y ≠ z → t.zone y = s.zone y) ∧
           (∀ k, k ≠ slot → k ≠ x.slot → t.tour k = s.tour k) ∧
           ∀ c, (∀ e, l.channels.get e ≠ some c) → (∀ e, m.channels.get e ≠ some c) → t.channel c = s.channel c)) ∧
      KeepsAllBut [.zones, .tours, .events, .egress] s t) ∧
    ∃ t, exec .mixPoint s = .next t ∧ ∀ z w, l.prevZone = some z → l.window = some w →
      (1 < w → l.phase = .live ∨ (t.tour slot).live.phase = l.phase →
        (t.tour slot).live.prevZone = some z ∧ (t.tour slot).live.window = some (w - 1) ∧
        (t.tour slot).live.zone = l.zone) ∧
      (w ≤ 1 → (t.tour slot).live.prevZone = none ∧ (t.tour slot).live.window = none ∧
        ∀ e c, l.channels.get e = some c → (t.channel c).zones.getLsbD z.val = false)

/-- GUIDE_QUIET: the silence timer of a running tour in stage 0 whose guide is quiet runs out; the stage is 1 with Q2 loaded.
FALLBACK_WRITE: in stage 1 it runs out; the stage is 2 and the fallback slot of each present entry's program is the stop's
fallback source, with FALLBACK_ON or FALLBACK_NONE, either with the stop and the set of entries as detail (log 25). On any other tour each has no effect (log 8) (R77, R78).
MIX_POINT, for a running tour that it does not close: with the guide's voice flag set the tour is in stage 0 with Q1 loaded
and no fallback, which if it was ON is cleared from its programs; with the flag clear the timer of stage 0 or 1 falls by 1,
or the stage advances as above (R76 to R78). -/
def Obligations.SilenceStagesAdvance : Prop :=
  (∀ (s : State) (slot : Fin 16), ∃ t, exec .mixPoint s = .next t ∧
    (let l := (s.tour slot).live
     let m := (t.tour slot).live
     let time := timingOf (s.tour slot)
     let speaks := ∃ p x, (s.tour slot).plan = some p ∧ t.source p.guide = some x ∧ x.live.voice = true
     l.phase = .live ∨ (l.phase = .closing ∧ m.phase = .closing) →
     m.phase = l.phase ∧ m.stop = l.stop ∧
     (speaks → m.stage = 0 ∧ m.timer = time.q1 * 250 ∧ m.fallback = .off) ∧
     (¬ speaks →
       (l.stage = 0 → m.fallback = l.fallback ∧
         (l.timer ≤ 1 → m.stage = 1 ∧ m.timer = time.q2 * 250) ∧
         (1 < l.timer → m.stage = 0 ∧ m.timer = l.timer - 1)) ∧
       (l.stage = 1 → 1 < l.timer → m.stage = 1 ∧ m.timer = l.timer - 1 ∧ m.fallback = l.fallback) ∧
       (1 < l.stage → m.stage = l.stage ∧ m.timer = l.timer ∧ m.fallback = l.fallback)) ∧
     ∀ p stop, (s.tour slot).plan = some p → p.route[l.stop]? = some stop →
       (∀ e f x y, p.entries.get e = some x → p.entries.get f = some y → x.program = y.program → e = f) →
       let written := ¬ speaks ∧ l.stage = 1 ∧ l.timer ≤ 1
       let cleared := speaks ∧ l.fallback = .on
       (written → m.stage = 2 ∧ m.timer = 0 ∧
         m.fallback = if ∃ e, (p.entries.get e).isSome = true ∧ (stop.fallback.get e).isSome = true
           then .on else .none) ∧
       ∀ e x, p.entries.get e = some x →
         (∀ k q f y, k ≠ slot → (s.tour k).plan = some q → q.entries.get f = some y → y.program ≠ x.program) →
         let f := (t.program x.program).fallback
         (cleared → f = none) ∧ (written → f = stop.fallback.get e) ∧
         (¬ cleared → ¬ written → f = (s.program x.program).fallback))) ∧
  ∀ (s : State) (slot : Fin 16),
    let l := (s.tour slot).live
    let due (stage : Nat) := (l.phase = .live ∨ l.phase = .closing) ∧ guideVoice s slot = false ∧ l.stage = stage ∧
      l.timer ≤ 1
    (¬ due 0 → exec (.guideQuiet slot) s = .next s) ∧ (¬ due 1 → exec (.fallbackWrite slot) s = .next s) ∧
    (due 0 → ∃ t, exec (.guideQuiet slot) s = .next t ∧
      t.tcl = (s.putLive slot { l with stage := 1, timer := (timingOf (s.tour slot)).q2 * 250 }).tcl ∧
      EventsTaken [⟨.guideQuiet, s.mge.hubTime, slot.val, some l.run, 0⟩] s t ∧
      KeepsAllBut [.tours, .events, .egress] s t) ∧
    ∀ p stop, due 1 → (s.tour slot).plan = some p → p.route[l.stop]? = some stop →
      (∀ e f x y, p.entries.get e = some x → p.entries.get f = some y → x.program = y.program → e = f) →
      let set (e : Fin 4) := (p.entries.get e).isSome && (stop.fallback.get e).isSome
      let bits := ((indices 4).map fun e => if set e then 2 ^ e.val else 0).sum
      ∃ t, exec (.fallbackWrite slot) s = .next t ∧
        (∀ e x, p.entries.get e = some x →
          t.program x.program = { s.program x.program with fallback := stop.fallback.get e }) ∧
        (∀ q, (∀ e x, p.entries.get e = some x → x.program ≠ q) → t.program q = s.program q) ∧
        t.mxr.applyRequest = s.mxr.applyRequest ∧
        t.tcl = (s.putLive slot { l with stage := 2, timer := 0, fallback := if bits = 0 then .none else .on }).tcl ∧
        EventsTaken [⟨if bits = 0 then .fallbackNone else .fallbackOn, s.mge.hubTime, slot.val, some l.run,
          l.stop * 256 + bits⟩] s t ∧
        KeepsAllBut [.tours, .programs, .events, .egress] s t

/-- CLOSE_HOLD_EXPIRY and CLOSE_WAIT_EXPIRY close a CLOSING tour whose hold, with its guide quiet, or whose wait runs out at
the next mix point; TOUR_CLOSED is the first event. On any other tour each has no effect (log 8). The rack sender then acts
(log 10) (R82, R83, R85). MIX_POINT, for a CLOSING tour: the hold is absent while the guide's voice flag is set, is loaded
and falls by 1 at the first quiet mix point, and falls by 1 at each further one; the wait falls by 1; where either comes to 0
the tour is closed once, with its receivers released or DUE, its programs disowned and its channels FREE (R82, R83, R85).
The current zone of a closed tour is absent, the model's reading (log 28). -/
def Obligations.CloseTimersCloseTour : Prop :=
  (∀ (s : State) (slot : Fin 16), ∃ t before after, exec .mixPoint s = .next t ∧
    (let l := (s.tour slot).live
     let m := (t.tour slot).live
     let speaks := ∃ p x, (s.tour slot).plan = some p ∧ t.source p.guide = some x ∧ x.live.voice = true
     let wait := l.wait.getD 0 - 1
     l.phase = .closing → ∀ hold : Option Nat, (speaks → hold = none) →
     (¬ speaks → hold = some (l.hold.getD ((timingOf (s.tour slot)).closeHold * 250) - 1)) →
     let closes := hold = some 0 ∨ wait = 0
     (¬ closes → m.phase = .closing ∧ m.hold = hold ∧ m.wait = some wait) ∧
     (closes → LiveClosed l m ∧ (t.tour slot).plan = (s.tour slot).plan ∧
       (t.tour slot).timing = (s.tour slot).timing ∧
       (∀ h r, s.receiver h = some r → r.tour.map (fun x => (x.slot, x.run)) = some (slot, l.run) → ∃ r',
         t.receiver h = some r' ∧ ReceiverClosed slot l.run (dueDeadline s) s.mge.hubTime r r') ∧
       (∀ p e x, (s.tour slot).plan = some p → p.entries.get e = some x → (t.program x.program).owner = none) ∧
       (∀ e ch, l.channels.get e = some ch → (t.channel ch).phase = .free ∧ (t.channel ch).program = none) ∧
       EventsTaken (before ++
         [⟨.tourClosed, s.mge.hubTime, slot.val, some l.run, l.issued * 256 + l.returned⟩] ++ after) s t))) ∧
  ∀ (s : State) (slot : Fin 16),
    let l := (s.tour slot).live
    let hold := l.phase = .closing ∧ guideVoice s slot = false ∧
      ((∃ n, l.hold = some n ∧ n ≤ 1) ∨ (l.hold = none ∧ (timingOf (s.tour slot)).closeHold = 0))
    let closes (c : Instr) := ∃ t more, exec c s = .next t ∧ TourClosed slot s t ∧
      EventsTaken (⟨.tourClosed, s.mge.hubTime, slot.val, some l.run, l.issued * 256 + l.returned⟩ :: more) s t ∧
      KeepsAllBut [.receivers, .bays, .tours, .programs, .zones, .events, .egress, .sender] s t
    (hold → closes (.closeHoldExpiry slot)) ∧ (¬ hold → exec (.closeHoldExpiry slot) s = .next s) ∧
    (∀ w, l.phase = .closing → l.wait = some w → w ≤ 1 → closes (.closeWaitExpiry slot)) ∧
    (l.phase ≠ .closing ∨ (∃ w, l.wait = some w ∧ 1 < w) → exec (.closeWaitExpiry slot) s = .next s)

/-! ### Rack and charge timers -/

/-- SPACING_TIMER_EXPIRY sends the next POLL of an enabled rack with none under way. POLL_TIMEOUT counts the miss, starts the
spacing timer and, at the third miss of an ONLINE rack, takes it OFFLINE and ends its turns. DOCK_SETTLE_EXPIRY and
TURN_SETTLE_EXPIRY end a bay's settle. Elapsed time moves on to the timer's end (log 1), and where no such timer runs each
has no effect, but that the rack sender acts at the end of a POLL_TIMEOUT also where nothing is outstanding, on the bays that
are pending (log 10) (R116, R118, R125, R127, R149). -/
def Obligations.RackTimersExpire : Prop :=
  ∀ s : State,
    (∀ rack : Fin 12,
      let c := (s.rack rack).config
      let l := (s.rack rack).live
      let others (t : State) := ∀ r, r ≠ rack → t.rack r = s.rack r
      let at_ (t : State) (ends : Nat) := t.clock = { s.clock with now := max s.clock.now ends }
      (l.spacingEnds = none → exec (.spacingTimerExpiry rack) s = .next s) ∧
      (l.outstanding = none → ∃ t, exec (.pollTimeout rack) s = .next t ∧ KeepsAllBut [.bays, .sender, .egress] s t) ∧
      (∀ ends, l.spacingEnds = some ends → ∃ t, exec (.spacingTimerExpiry rack) s = .next t ∧ at_ t ends ∧ others t ∧
        (let idle := c.enabled = true ∧ l.outstanding = none ∧ l.waiting = none
         (¬ idle → (t.rack rack).live = { l with spacingEnds := none } ∧ KeepsAllBut [.clock, .rackLives] s t) ∧
         (idle → (t.rack rack).live = { l with
             spacingEnds := none
             pointer := if l.pointer < c.scanHigh then l.pointer + 1 else c.scanLow
             waiting := if s.hli.linkUp then some l.pointer else none
             outstanding := if s.hli.linkUp then none else some ⟨l.pointer, max s.clock.now ends + 20⟩
             counters := { l.counters with polls := min (l.counters.polls + 1) 4294967295 } } ∧
           (s.hli.linkUp = true → heldFrames t.hli ≠ [] ∧
             { dest := c.station, origin := .poll rack l.pointer true, payload := [BitVec.ofNat 8 l.pointer.val] } ∈
               heldFrames t.hli))) ∧
        KeepsAllBut [.clock, .rackLives, .egress] s t) ∧
      ∀ o, l.outstanding = some o → ∃ t, exec (.pollTimeout rack) s = .next t ∧ at_ t o.ends ∧ others t ∧
        (let miss := min (l.missRun + 1) 255
         let lost := l.phase = .online ∧ 3 ≤ miss
         (t.rack rack).live = { l with
           outstanding := none, timedOut := some o.bay, missRun := miss
           spacingEnds := some (max s.clock.now o.ends + c.spacing)
           phase := if l.phase = .online ∧ 3 ≤ miss then .offline else l.phase
           counters := { l.counters with timeouts := min (l.counters.timeouts + 1) 4294967295 } } ∧
         (¬ lost → t.chs = s.chs ∧ t.evq = s.evq) ∧
         (lost → (t.sched rack).active = [] ∧ (t.sched rack).cadenceEnds = none ∧
           (t.sched rack).postponed = (s.sched rack).postponed ∧ (t.sched rack).pulledIn = (s.sched rack).pulledIn ∧
           (t.sched rack).round = (s.sched rack).round ∧
           EventsTaken [⟨.rackOffline, s.mge.hubTime, rack.val, none, miss⟩] s t)) ∧
        KeepsAllBut [.clock, .rackLives, .sched, .events, .bays, .sender, .egress] s t) ∧
    ∀ a : Fin 288,
      let b := s.bay a
      let ended (ends : Nat) (next : Settle) :=
        (s.withClock { s.clock with now := max s.clock.now ends }).putBay a
          { b with settle := next, settleEnds := none }
      (∀ ends, b.settle = .dock → b.settleEnds = some ends →
        exec (.dockSettleExpiry a) s = .next (ended ends .dockEnded)) ∧
      (∀ ends, b.settle = .turn → b.settleEnds = some ends →
        exec (.turnSettleExpiry a) s = .next (ended ends .none)) ∧
      (b.settle ≠ .dock ∨ b.settleEnds = none → exec (.dockSettleExpiry a) s = .next s) ∧
      (b.settle ≠ .turn ∨ b.settleEnds = none → exec (.turnSettleExpiry a) s = .next s)

/-- CADENCE_EXPIRY acts by the first case of R146 that holds: a pull-in is worked off; a turn is started on the bay that
selection chooses, after the round closes if no candidate is unserved; nothing is done without a candidate; a full rack owes
a postponement, or starves at the limit of its band. The period is loaded again. Elapsed time moves on to the expiry
(log 1), and the rack sender then acts (log 10) (R142, R144, R145, R146). -/
def Obligations.CadenceExpiryActs : Prop :=
  ∀ (s : State) (rack : Fin 12),
    ((s.sched rack).cadenceEnds = none → exec (.cadenceExpiry rack) s = .next s) ∧
    ∀ ends, (s.sched rack).cadenceEnds = some ends →
    let q := s.sched rack
    let now := max s.clock.now ends
    let place (b : Fin 24) := bayAddress rack b
    let candidate (b : Fin 24) := (s.rack rack).live.phase = .online ∧ 0 < q.capacity ∧
      (∃ h r, (s.bay (place b)).presence = .known h ∧ s.receiver h = some r ∧ r.fault = false) ∧
      (s.bay (place b)).settle ≠ .dock ∧ (s.bay (place b)).settle ≠ .dockEnded ∧ (s.bay (place b)).level ≠ none ∧
      (s.bay (place b)).full = false ∧ ∀ x ∈ q.active, x.bay ≠ b
    let unserved (b : Fin 24) := candidate b ∧ (s.bay (place b)).served = false
    let open_ (b : Fin 24) := candidate b ∧ ((s.bay (place b)).served = false ∨ ∀ x, ¬ unserved x)
    let level (b : Fin 24) := (s.bay (place b)).level.getD 0
    ∃ t, exec (.cadenceExpiry rack) s = .next t ∧ t.clock = { s.clock with now := now } ∧
      (∀ r, r ≠ rack → t.sched r = s.sched r) ∧
      (let p := t.sched rack
       p.cadenceEnds = (if (s.rack rack).live.phase = .online ∧ 0 < q.capacity
         then some (now + cadencePeriod s rack) else none) ∧
       p.band = q.band ∧ p.capacity = q.capacity ∧
       (0 < q.pulledIn → p = { q with pulledIn := q.pulledIn - 1, cadenceEnds := p.cadenceEnds } ∧
         KeepsAllBut [.clock, .sched, .bays, .sender, .egress] s t) ∧
       (q.pulledIn = 0 → (∀ b, ¬ candidate b) → p = { q with cadenceEnds := p.cadenceEnds } ∧
         KeepsAllBut [.clock, .sched, .bays, .sender, .egress] s t) ∧
       (q.pulledIn = 0 → (∃ b, candidate b) → q.active.length < q.capacity → ∃ b, open_ b ∧
         (∀ x, open_ x → turnClass s (place b) < turnClass s (place x) ∨ (turnClass s (place b) = turnClass s (place x) ∧
           (level b < level x ∨ (level b = level x ∧ b ≤ x)))) ∧
         p = { q with
           active := q.active ++ [⟨b, now + (s.rack rack).config.turnLength * 1000⟩], cadenceEnds := p.cadenceEnds
           round := p.round
           counters := { q.counters with started := min (q.counters.started + 1) 4294967295 } } ∧
         ((∃ x, unserved x) → p.round = q.round) ∧ ((∀ x, ¬ unserved x) → p.round = q.round + 1#16) ∧
         (let y := t.bay (place b)
          y.mode = .fast ∧ y.served = true ∧ y.settle = .turn ∧ y.settleEnds = some (now + 2000)) ∧
         (∀ x, x ≠ b → (t.bay (place x)).served = ((s.bay (place x)).served && decide (p.round = q.round))) ∧
         (∀ h r, (s.bay (place b)).presence = .known h → s.receiver h = some r →
           t.receiver h = some { r with turnCount := min (r.turnCount + 1) 65535 }) ∧
         KeepsAllBut [.clock, .sched, .receivers, .bays, .sender, .egress] s t) ∧
       (∀ e, q.pulledIn = 0 → (∃ b, candidate b) → q.capacity ≤ q.active.length → bandEntry s rack = some e →
         (q.postponed < e.pMax → p = { q with postponed := q.postponed + 1, cadenceEnds := p.cadenceEnds } ∧
           KeepsAllBut [.clock, .sched, .bays, .sender, .egress] s t) ∧
         (e.pMax ≤ q.postponed → p = { q with
             cadenceEnds := p.cadenceEnds
             counters := { q.counters with starved := min (q.counters.starved + 1) 4294967295 } } ∧
           (∀ k, q.band = some k → EventsTaken
             [⟨.turnStarved, s.mge.hubTime, rack.val, none, k.val * 256 + q.active.length⟩] s t) ∧
           KeepsAllBut [.clock, .sched, .events, .bays, .sender, .egress] s t)))

/-- TURN_EXPIRY of an active turn: its bay leaves the active list. On an ONLINE rack whose list is then shorter than C a turn
follows when a postponement is owed, or when none is and pull-ins are below Imax, and a bay is a candidate: on the first bay
in the order of selection, the round closing first if every candidate is served. It repays the postponement, or is a pull-in.
Otherwise no turn follows and neither count changes. Where none follows the ended bay's mode is not FAST, and a turn settle
runs there unless it is EMPTY or in its dock settle. Elapsed time moves on to the end of the turn (log 1), the rack sender
then acts (log 10), and on a bay without an active turn the command has no effect (R127, R143, R144, R145, R147, R148). -/
def Obligations.TurnExpiryEndsTurn : Prop :=
  ∀ (s : State) (rack : Fin 12) (b : Fin 24),
    let q := s.sched rack
    let place (x : Fin 24) := bayAddress rack x
    let a := place b
    let left := q.active.filter fun x => decide (x.bay ≠ b)
    let candidate (x : Fin 24) := (s.rack rack).live.phase = .online ∧ 0 < q.capacity ∧
      (∃ h r, (s.bay (place x)).presence = .known h ∧ s.receiver h = some r ∧ r.fault = false) ∧
      (s.bay (place x)).settle ≠ .dock ∧ (s.bay (place x)).settle ≠ .dockEnded ∧ (s.bay (place x)).level ≠ none ∧
      (s.bay (place x)).full = false ∧ ∀ y ∈ left, y.bay ≠ x
    let unserved (x : Fin 24) := candidate x ∧ (s.bay (place x)).served = false
    let open_ (x : Fin 24) := candidate x ∧ ((s.bay (place x)).served = false ∨ ∀ y, ¬ unserved y)
    let level (x : Fin 24) := (s.bay (place x)).level.getD 0
    let room := (s.rack rack).live.phase = .online ∧ left.length < q.capacity
    let owed := 0 < q.postponed
    let pulls := q.postponed = 0 ∧ ∃ e, bandEntry s rack = some e ∧ q.pulledIn < e.iMax
    ((∀ x ∈ q.active, x.bay ≠ b) → exec (.turnExpiry rack b) s = .next s) ∧
    ∀ turn, turnOn s rack b = some turn → ∃ t extra, exec (.turnExpiry rack b) s = .next t ∧
      (let now := max s.clock.now turn.ends
       let p := t.sched rack
       t.clock = { s.clock with now := now } ∧ (∀ r, r ≠ rack → t.sched r = s.sched r) ∧
       p.active = left ++ extra ∧ p.band = q.band ∧ p.capacity = q.capacity ∧ p.cadenceEnds = q.cadenceEnds ∧
       (extra = [] → p = { q with active := left } ∧ (t.bay a).mode ≠ .fast ∧
         ((s.bay a).presence ≠ .empty → (s.bay a).settle ≠ .dock → (s.bay a).settle ≠ .dockEnded →
           (t.bay a).settle = .turn ∧ (t.bay a).settleEnds = some (now + 2000)) ∧
         (∀ x, x ≠ b → (t.bay (place x)).mode = (s.bay (place x)).mode) ∧
         (∀ x, (t.bay (place x)).served = (s.bay (place x)).served) ∧ ∀ h, t.receiver h = s.receiver h) ∧
       (¬ (room ∧ (owed ∨ pulls) ∧ ∃ x, candidate x) → extra = []) ∧
       (room → owed ∨ pulls → (∃ x, candidate x) → ∃ x, open_ x ∧
         (∀ y, open_ y → turnClass s (place x) < turnClass s (place y) ∨
           (turnClass s (place x) = turnClass s (place y) ∧ (level x < level y ∨ (level x = level y ∧ x ≤ y)))) ∧
         extra = [⟨x, now + (s.rack rack).config.turnLength * 1000⟩] ∧
         p.postponed = (if owed then q.postponed - 1 else q.postponed) ∧
         p.pulledIn = (if owed then q.pulledIn else q.pulledIn + 1) ∧
         p.counters = { q.counters with started := min (q.counters.started + 1) 4294967295 } ∧
         ((∃ y, unserved y) → p.round = q.round) ∧ ((∀ y, ¬ unserved y) → p.round = q.round + 1#16) ∧
         (let y := t.bay (place x)
          y.mode = .fast ∧ y.served = true ∧ y.settle = .turn ∧ y.settleEnds = some (now + 2000)) ∧
         (∀ y, y ≠ x → (t.bay (place y)).served = ((s.bay (place y)).served && decide (p.round = q.round))) ∧
         (b ≠ x → (t.bay a).mode ≠ .fast) ∧
         ∀ h r, (s.bay (place x)).presence = .known h → s.receiver h = some r →
           t.receiver h = some { r with turnCount := min (r.turnCount + 1) 65535 })) ∧
      KeepsAllBut [.clock, .sched, .receivers, .bays, .sender, .egress] s t
end

