-- ==== Sys2Proof/Laws/Tab.lean ====
section
/-! SUPPORT. Reads after writes of the fixed-size tables. -/

namespace Sys2Proof

variable {α β : Type} {n : Nat}

theorem Tab.get_eq (t : Tab α n) (i : Fin n) : t.get i = t.items[i.val]'(by rw [t.size_eq]; exact i.isLt) := rfl

@[simp] theorem Tab.get_set_self (t : Tab α n) (i : Fin n) (x : α) : (t.set i x).get i = x := by
  simp [Tab.get_eq, Tab.set]

theorem Tab.get_set_ne (t : Tab α n) {i j : Fin n} (x : α) (h : j ≠ i) : (t.set i x).get j = t.get j := by
  have : i.val ≠ j.val := fun e => h (Fin.ext e.symm)
  simp [Tab.get_eq, Tab.set, this]

theorem Tab.get_set (t : Tab α n) (i j : Fin n) (x : α) :
    (t.set i x).get j = if j = i then x else t.get j := by
  by_cases h : j = i
  · subst h; simp
  · simp [h, Tab.get_set_ne t x h]

@[simp] theorem Tab.get_fill (x : α) (i : Fin n) : (Tab.fill n x).get i = x := by
  simp [Tab.get_eq, Tab.fill]

@[simp] theorem Tab.get_ofFn (f : Fin n → α) (i : Fin n) : (Tab.ofFn f).get i = f i := by
  simp [Tab.get_eq, Tab.ofFn]

@[simp] theorem Tab.get_map (f : α → β) (t : Tab α n) (i : Fin n) : (t.map f).get i = f (t.get i) := by
  simp [Tab.get_eq, Tab.map]

@[simp] theorem Tab.get_mapWith (f : Fin n → α → β) (t : Tab α n) (i : Fin n) :
    (t.mapWith f).get i = f i (t.get i) := by
  simp [Tab.mapWith]

/-- Tables with the same records are the same table. -/
theorem Tab.ext_get {t u : Tab α n} (h : ∀ i, t.get i = u.get i) : t = u := by
  obtain ⟨xs, hx⟩ := t
  obtain ⟨ys, hy⟩ := u
  have : xs = ys := by
    apply List.ext_getElem (by omega)
    intro k h1 h2
    simpa [Tab.get_eq] using h ⟨k, by omega⟩
  subst this; rfl

@[simp] theorem Tab.set_get_self (t : Tab α n) (i : Fin n) : t.set i (t.get i) = t := by
  apply Tab.ext_get; intro j; rw [Tab.get_set]; split <;> simp_all

/-- The items of a table are its records in order. -/
theorem Tab.items_eq (t : Tab α n) : t.items = (indices n).map t.get := by
  obtain ⟨xs, hx⟩ := t
  apply List.ext_getElem (by simp [hx])
  intro k h1 h2
  simp [Tab.get_eq]

/-- An identifier below the bound is read back. -/
theorem toId_val {k : Nat} (i : Fin n) (h : k = i.val) : toId n k = some i := by
  subst h; simp [toId]

theorem toId_eq_some {k : Nat} {i : Fin n} : toId n k = some i ↔ k = i.val := by
  constructor
  · intro h
    unfold toId at h
    split at h
    · cases h; rfl
    · cases h
  · exact toId_val i

theorem toId_eq_none {k : Nat} : toId n k = none ↔ n ≤ k := by
  unfold toId
  split <;> simp <;> omega

end Sys2Proof
end

