-- ==== Sys2Proof/Laws/State.lean ====
section
/-! SUPPORT. One lemma per block per update of the state, and reads after writes of single records. -/

namespace Sys2Proof.Machine

open Sys2Proof

@[simp] theorem State.withClock_clock (s : State) (x : Clock) : (s.withClock x).clock = x := rfl
@[simp] theorem State.withClock_siu (s : State) (x : Clock) : (s.withClock x).siu = s.siu := rfl
@[simp] theorem State.withClock_mxr (s : State) (x : Clock) : (s.withClock x).mxr = s.mxr := rfl
@[simp] theorem State.withClock_zal (s : State) (x : Clock) : (s.withClock x).zal = s.zal := rfl
@[simp] theorem State.withClock_tcl (s : State) (x : Clock) : (s.withClock x).tcl = s.tcl := rfl
@[simp] theorem State.withClock_flt (s : State) (x : Clock) : (s.withClock x).flt = s.flt := rfl
@[simp] theorem State.withClock_rpl (s : State) (x : Clock) : (s.withClock x).rpl = s.rpl := rfl
@[simp] theorem State.withClock_chs (s : State) (x : Clock) : (s.withClock x).chs = s.chs := rfl
@[simp] theorem State.withClock_evq (s : State) (x : Clock) : (s.withClock x).evq = s.evq := rfl
@[simp] theorem State.withClock_hli (s : State) (x : Clock) : (s.withClock x).hli = s.hli := rfl
@[simp] theorem State.withClock_mge (s : State) (x : Clock) : (s.withClock x).mge = s.mge := rfl
@[simp] theorem State.withClock_choices (s : State) (x : Clock) : (s.withClock x).choices = s.choices := rfl
@[simp] theorem State.withClock_pending (s : State) (x : Clock) : (s.withClock x).pending = s.pending := rfl
@[simp] theorem State.withClock_self (s : State) : s.withClock s.clock = s := rfl
@[simp] theorem State.withClock_withClock (s : State) (x y : Clock) : (s.withClock x).withClock y = s.withClock y := rfl
@[simp] theorem State.withSiu_clock (s : State) (x : Siu) : (s.withSiu x).clock = s.clock := rfl
@[simp] theorem State.withSiu_siu (s : State) (x : Siu) : (s.withSiu x).siu = x := rfl
@[simp] theorem State.withSiu_mxr (s : State) (x : Siu) : (s.withSiu x).mxr = s.mxr := rfl
@[simp] theorem State.withSiu_zal (s : State) (x : Siu) : (s.withSiu x).zal = s.zal := rfl
@[simp] theorem State.withSiu_tcl (s : State) (x : Siu) : (s.withSiu x).tcl = s.tcl := rfl
@[simp] theorem State.withSiu_flt (s : State) (x : Siu) : (s.withSiu x).flt = s.flt := rfl
@[simp] theorem State.withSiu_rpl (s : State) (x : Siu) : (s.withSiu x).rpl = s.rpl := rfl
@[simp] theorem State.withSiu_chs (s : State) (x : Siu) : (s.withSiu x).chs = s.chs := rfl
@[simp] theorem State.withSiu_evq (s : State) (x : Siu) : (s.withSiu x).evq = s.evq := rfl
@[simp] theorem State.withSiu_hli (s : State) (x : Siu) : (s.withSiu x).hli = s.hli := rfl
@[simp] theorem State.withSiu_mge (s : State) (x : Siu) : (s.withSiu x).mge = s.mge := rfl
@[simp] theorem State.withSiu_choices (s : State) (x : Siu) : (s.withSiu x).choices = s.choices := rfl
@[simp] theorem State.withSiu_pending (s : State) (x : Siu) : (s.withSiu x).pending = s.pending := rfl
@[simp] theorem State.withSiu_self (s : State) : s.withSiu s.siu = s := rfl
@[simp] theorem State.withSiu_withSiu (s : State) (x y : Siu) : (s.withSiu x).withSiu y = s.withSiu y := rfl
@[simp] theorem State.withMxr_clock (s : State) (x : Mxr) : (s.withMxr x).clock = s.clock := rfl
@[simp] theorem State.withMxr_siu (s : State) (x : Mxr) : (s.withMxr x).siu = s.siu := rfl
@[simp] theorem State.withMxr_mxr (s : State) (x : Mxr) : (s.withMxr x).mxr = x := rfl
@[simp] theorem State.withMxr_zal (s : State) (x : Mxr) : (s.withMxr x).zal = s.zal := rfl
@[simp] theorem State.withMxr_tcl (s : State) (x : Mxr) : (s.withMxr x).tcl = s.tcl := rfl
@[simp] theorem State.withMxr_flt (s : State) (x : Mxr) : (s.withMxr x).flt = s.flt := rfl
@[simp] theorem State.withMxr_rpl (s : State) (x : Mxr) : (s.withMxr x).rpl = s.rpl := rfl
@[simp] theorem State.withMxr_chs (s : State) (x : Mxr) : (s.withMxr x).chs = s.chs := rfl
@[simp] theorem State.withMxr_evq (s : State) (x : Mxr) : (s.withMxr x).evq = s.evq := rfl
@[simp] theorem State.withMxr_hli (s : State) (x : Mxr) : (s.withMxr x).hli = s.hli := rfl
@[simp] theorem State.withMxr_mge (s : State) (x : Mxr) : (s.withMxr x).mge = s.mge := rfl
@[simp] theorem State.withMxr_choices (s : State) (x : Mxr) : (s.withMxr x).choices = s.choices := rfl
@[simp] theorem State.withMxr_pending (s : State) (x : Mxr) : (s.withMxr x).pending = s.pending := rfl
@[simp] theorem State.withMxr_self (s : State) : s.withMxr s.mxr = s := rfl
@[simp] theorem State.withMxr_withMxr (s : State) (x y : Mxr) : (s.withMxr x).withMxr y = s.withMxr y := rfl
@[simp] theorem State.withZal_clock (s : State) (x : Zal) : (s.withZal x).clock = s.clock := rfl
@[simp] theorem State.withZal_siu (s : State) (x : Zal) : (s.withZal x).siu = s.siu := rfl
@[simp] theorem State.withZal_mxr (s : State) (x : Zal) : (s.withZal x).mxr = s.mxr := rfl
@[simp] theorem State.withZal_zal (s : State) (x : Zal) : (s.withZal x).zal = x := rfl
@[simp] theorem State.withZal_tcl (s : State) (x : Zal) : (s.withZal x).tcl = s.tcl := rfl
@[simp] theorem State.withZal_flt (s : State) (x : Zal) : (s.withZal x).flt = s.flt := rfl
@[simp] theorem State.withZal_rpl (s : State) (x : Zal) : (s.withZal x).rpl = s.rpl := rfl
@[simp] theorem State.withZal_chs (s : State) (x : Zal) : (s.withZal x).chs = s.chs := rfl
@[simp] theorem State.withZal_evq (s : State) (x : Zal) : (s.withZal x).evq = s.evq := rfl
@[simp] theorem State.withZal_hli (s : State) (x : Zal) : (s.withZal x).hli = s.hli := rfl
@[simp] theorem State.withZal_mge (s : State) (x : Zal) : (s.withZal x).mge = s.mge := rfl
@[simp] theorem State.withZal_choices (s : State) (x : Zal) : (s.withZal x).choices = s.choices := rfl
@[simp] theorem State.withZal_pending (s : State) (x : Zal) : (s.withZal x).pending = s.pending := rfl
@[simp] theorem State.withZal_self (s : State) : s.withZal s.zal = s := rfl
@[simp] theorem State.withZal_withZal (s : State) (x y : Zal) : (s.withZal x).withZal y = s.withZal y := rfl
@[simp] theorem State.withTcl_clock (s : State) (x : Tcl) : (s.withTcl x).clock = s.clock := rfl
@[simp] theorem State.withTcl_siu (s : State) (x : Tcl) : (s.withTcl x).siu = s.siu := rfl
@[simp] theorem State.withTcl_mxr (s : State) (x : Tcl) : (s.withTcl x).mxr = s.mxr := rfl
@[simp] theorem State.withTcl_zal (s : State) (x : Tcl) : (s.withTcl x).zal = s.zal := rfl
@[simp] theorem State.withTcl_tcl (s : State) (x : Tcl) : (s.withTcl x).tcl = x := rfl
@[simp] theorem State.withTcl_flt (s : State) (x : Tcl) : (s.withTcl x).flt = s.flt := rfl
@[simp] theorem State.withTcl_rpl (s : State) (x : Tcl) : (s.withTcl x).rpl = s.rpl := rfl
@[simp] theorem State.withTcl_chs (s : State) (x : Tcl) : (s.withTcl x).chs = s.chs := rfl
@[simp] theorem State.withTcl_evq (s : State) (x : Tcl) : (s.withTcl x).evq = s.evq := rfl
@[simp] theorem State.withTcl_hli (s : State) (x : Tcl) : (s.withTcl x).hli = s.hli := rfl
@[simp] theorem State.withTcl_mge (s : State) (x : Tcl) : (s.withTcl x).mge = s.mge := rfl
@[simp] theorem State.withTcl_choices (s : State) (x : Tcl) : (s.withTcl x).choices = s.choices := rfl
@[simp] theorem State.withTcl_pending (s : State) (x : Tcl) : (s.withTcl x).pending = s.pending := rfl
@[simp] theorem State.withTcl_self (s : State) : s.withTcl s.tcl = s := rfl
@[simp] theorem State.withTcl_withTcl (s : State) (x y : Tcl) : (s.withTcl x).withTcl y = s.withTcl y := rfl
@[simp] theorem State.withFlt_clock (s : State) (x : Flt) : (s.withFlt x).clock = s.clock := rfl
@[simp] theorem State.withFlt_siu (s : State) (x : Flt) : (s.withFlt x).siu = s.siu := rfl
@[simp] theorem State.withFlt_mxr (s : State) (x : Flt) : (s.withFlt x).mxr = s.mxr := rfl
@[simp] theorem State.withFlt_zal (s : State) (x : Flt) : (s.withFlt x).zal = s.zal := rfl
@[simp] theorem State.withFlt_tcl (s : State) (x : Flt) : (s.withFlt x).tcl = s.tcl := rfl
@[simp] theorem State.withFlt_flt (s : State) (x : Flt) : (s.withFlt x).flt = x := rfl
@[simp] theorem State.withFlt_rpl (s : State) (x : Flt) : (s.withFlt x).rpl = s.rpl := rfl
@[simp] theorem State.withFlt_chs (s : State) (x : Flt) : (s.withFlt x).chs = s.chs := rfl
@[simp] theorem State.withFlt_evq (s : State) (x : Flt) : (s.withFlt x).evq = s.evq := rfl
@[simp] theorem State.withFlt_hli (s : State) (x : Flt) : (s.withFlt x).hli = s.hli := rfl
@[simp] theorem State.withFlt_mge (s : State) (x : Flt) : (s.withFlt x).mge = s.mge := rfl
@[simp] theorem State.withFlt_choices (s : State) (x : Flt) : (s.withFlt x).choices = s.choices := rfl
@[simp] theorem State.withFlt_pending (s : State) (x : Flt) : (s.withFlt x).pending = s.pending := rfl
@[simp] theorem State.withFlt_self (s : State) : s.withFlt s.flt = s := rfl
@[simp] theorem State.withFlt_withFlt (s : State) (x y : Flt) : (s.withFlt x).withFlt y = s.withFlt y := rfl
@[simp] theorem State.withRpl_clock (s : State) (x : Rpl) : (s.withRpl x).clock = s.clock := rfl
@[simp] theorem State.withRpl_siu (s : State) (x : Rpl) : (s.withRpl x).siu = s.siu := rfl
@[simp] theorem State.withRpl_mxr (s : State) (x : Rpl) : (s.withRpl x).mxr = s.mxr := rfl
@[simp] theorem State.withRpl_zal (s : State) (x : Rpl) : (s.withRpl x).zal = s.zal := rfl
@[simp] theorem State.withRpl_tcl (s : State) (x : Rpl) : (s.withRpl x).tcl = s.tcl := rfl
@[simp] theorem State.withRpl_flt (s : State) (x : Rpl) : (s.withRpl x).flt = s.flt := rfl
@[simp] theorem State.withRpl_rpl (s : State) (x : Rpl) : (s.withRpl x).rpl = x := rfl
@[simp] theorem State.withRpl_chs (s : State) (x : Rpl) : (s.withRpl x).chs = s.chs := rfl
@[simp] theorem State.withRpl_evq (s : State) (x : Rpl) : (s.withRpl x).evq = s.evq := rfl
@[simp] theorem State.withRpl_hli (s : State) (x : Rpl) : (s.withRpl x).hli = s.hli := rfl
@[simp] theorem State.withRpl_mge (s : State) (x : Rpl) : (s.withRpl x).mge = s.mge := rfl
@[simp] theorem State.withRpl_choices (s : State) (x : Rpl) : (s.withRpl x).choices = s.choices := rfl
@[simp] theorem State.withRpl_pending (s : State) (x : Rpl) : (s.withRpl x).pending = s.pending := rfl
@[simp] theorem State.withRpl_self (s : State) : s.withRpl s.rpl = s := rfl
@[simp] theorem State.withRpl_withRpl (s : State) (x y : Rpl) : (s.withRpl x).withRpl y = s.withRpl y := rfl
@[simp] theorem State.withChs_clock (s : State) (x : Chs) : (s.withChs x).clock = s.clock := rfl
@[simp] theorem State.withChs_siu (s : State) (x : Chs) : (s.withChs x).siu = s.siu := rfl
@[simp] theorem State.withChs_mxr (s : State) (x : Chs) : (s.withChs x).mxr = s.mxr := rfl
@[simp] theorem State.withChs_zal (s : State) (x : Chs) : (s.withChs x).zal = s.zal := rfl
@[simp] theorem State.withChs_tcl (s : State) (x : Chs) : (s.withChs x).tcl = s.tcl := rfl
@[simp] theorem State.withChs_flt (s : State) (x : Chs) : (s.withChs x).flt = s.flt := rfl
@[simp] theorem State.withChs_rpl (s : State) (x : Chs) : (s.withChs x).rpl = s.rpl := rfl
@[simp] theorem State.withChs_chs (s : State) (x : Chs) : (s.withChs x).chs = x := rfl
@[simp] theorem State.withChs_evq (s : State) (x : Chs) : (s.withChs x).evq = s.evq := rfl
@[simp] theorem State.withChs_hli (s : State) (x : Chs) : (s.withChs x).hli = s.hli := rfl
@[simp] theorem State.withChs_mge (s : State) (x : Chs) : (s.withChs x).mge = s.mge := rfl
@[simp] theorem State.withChs_choices (s : State) (x : Chs) : (s.withChs x).choices = s.choices := rfl
@[simp] theorem State.withChs_pending (s : State) (x : Chs) : (s.withChs x).pending = s.pending := rfl
@[simp] theorem State.withChs_self (s : State) : s.withChs s.chs = s := rfl
@[simp] theorem State.withChs_withChs (s : State) (x y : Chs) : (s.withChs x).withChs y = s.withChs y := rfl
@[simp] theorem State.withEvq_clock (s : State) (x : Evq) : (s.withEvq x).clock = s.clock := rfl
@[simp] theorem State.withEvq_siu (s : State) (x : Evq) : (s.withEvq x).siu = s.siu := rfl
@[simp] theorem State.withEvq_mxr (s : State) (x : Evq) : (s.withEvq x).mxr = s.mxr := rfl
@[simp] theorem State.withEvq_zal (s : State) (x : Evq) : (s.withEvq x).zal = s.zal := rfl
@[simp] theorem State.withEvq_tcl (s : State) (x : Evq) : (s.withEvq x).tcl = s.tcl := rfl
@[simp] theorem State.withEvq_flt (s : State) (x : Evq) : (s.withEvq x).flt = s.flt := rfl
@[simp] theorem State.withEvq_rpl (s : State) (x : Evq) : (s.withEvq x).rpl = s.rpl := rfl
@[simp] theorem State.withEvq_chs (s : State) (x : Evq) : (s.withEvq x).chs = s.chs := rfl
@[simp] theorem State.withEvq_evq (s : State) (x : Evq) : (s.withEvq x).evq = x := rfl
@[simp] theorem State.withEvq_hli (s : State) (x : Evq) : (s.withEvq x).hli = s.hli := rfl
@[simp] theorem State.withEvq_mge (s : State) (x : Evq) : (s.withEvq x).mge = s.mge := rfl
@[simp] theorem State.withEvq_choices (s : State) (x : Evq) : (s.withEvq x).choices = s.choices := rfl
@[simp] theorem State.withEvq_pending (s : State) (x : Evq) : (s.withEvq x).pending = s.pending := rfl
@[simp] theorem State.withEvq_self (s : State) : s.withEvq s.evq = s := rfl
@[simp] theorem State.withEvq_withEvq (s : State) (x y : Evq) : (s.withEvq x).withEvq y = s.withEvq y := rfl
@[simp] theorem State.withHli_clock (s : State) (x : Hli) : (s.withHli x).clock = s.clock := rfl
@[simp] theorem State.withHli_siu (s : State) (x : Hli) : (s.withHli x).siu = s.siu := rfl
@[simp] theorem State.withHli_mxr (s : State) (x : Hli) : (s.withHli x).mxr = s.mxr := rfl
@[simp] theorem State.withHli_zal (s : State) (x : Hli) : (s.withHli x).zal = s.zal := rfl
@[simp] theorem State.withHli_tcl (s : State) (x : Hli) : (s.withHli x).tcl = s.tcl := rfl
@[simp] theorem State.withHli_flt (s : State) (x : Hli) : (s.withHli x).flt = s.flt := rfl
@[simp] theorem State.withHli_rpl (s : State) (x : Hli) : (s.withHli x).rpl = s.rpl := rfl
@[simp] theorem State.withHli_chs (s : State) (x : Hli) : (s.withHli x).chs = s.chs := rfl
@[simp] theorem State.withHli_evq (s : State) (x : Hli) : (s.withHli x).evq = s.evq := rfl
@[simp] theorem State.withHli_hli (s : State) (x : Hli) : (s.withHli x).hli = x := rfl
@[simp] theorem State.withHli_mge (s : State) (x : Hli) : (s.withHli x).mge = s.mge := rfl
@[simp] theorem State.withHli_choices (s : State) (x : Hli) : (s.withHli x).choices = s.choices := rfl
@[simp] theorem State.withHli_pending (s : State) (x : Hli) : (s.withHli x).pending = s.pending := rfl
@[simp] theorem State.withHli_self (s : State) : s.withHli s.hli = s := rfl
@[simp] theorem State.withHli_withHli (s : State) (x y : Hli) : (s.withHli x).withHli y = s.withHli y := rfl
@[simp] theorem State.withMge_clock (s : State) (x : Mge) : (s.withMge x).clock = s.clock := rfl
@[simp] theorem State.withMge_siu (s : State) (x : Mge) : (s.withMge x).siu = s.siu := rfl
@[simp] theorem State.withMge_mxr (s : State) (x : Mge) : (s.withMge x).mxr = s.mxr := rfl
@[simp] theorem State.withMge_zal (s : State) (x : Mge) : (s.withMge x).zal = s.zal := rfl
@[simp] theorem State.withMge_tcl (s : State) (x : Mge) : (s.withMge x).tcl = s.tcl := rfl
@[simp] theorem State.withMge_flt (s : State) (x : Mge) : (s.withMge x).flt = s.flt := rfl
@[simp] theorem State.withMge_rpl (s : State) (x : Mge) : (s.withMge x).rpl = s.rpl := rfl
@[simp] theorem State.withMge_chs (s : State) (x : Mge) : (s.withMge x).chs = s.chs := rfl
@[simp] theorem State.withMge_evq (s : State) (x : Mge) : (s.withMge x).evq = s.evq := rfl
@[simp] theorem State.withMge_hli (s : State) (x : Mge) : (s.withMge x).hli = s.hli := rfl
@[simp] theorem State.withMge_mge (s : State) (x : Mge) : (s.withMge x).mge = x := rfl
@[simp] theorem State.withMge_choices (s : State) (x : Mge) : (s.withMge x).choices = s.choices := rfl
@[simp] theorem State.withMge_pending (s : State) (x : Mge) : (s.withMge x).pending = s.pending := rfl
@[simp] theorem State.withMge_self (s : State) : s.withMge s.mge = s := rfl
@[simp] theorem State.withMge_withMge (s : State) (x y : Mge) : (s.withMge x).withMge y = s.withMge y := rfl
@[simp] theorem State.withChoices_clock (s : State) (x : Nat) : (s.withChoices x).clock = s.clock := rfl
@[simp] theorem State.withChoices_siu (s : State) (x : Nat) : (s.withChoices x).siu = s.siu := rfl
@[simp] theorem State.withChoices_mxr (s : State) (x : Nat) : (s.withChoices x).mxr = s.mxr := rfl
@[simp] theorem State.withChoices_zal (s : State) (x : Nat) : (s.withChoices x).zal = s.zal := rfl
@[simp] theorem State.withChoices_tcl (s : State) (x : Nat) : (s.withChoices x).tcl = s.tcl := rfl
@[simp] theorem State.withChoices_flt (s : State) (x : Nat) : (s.withChoices x).flt = s.flt := rfl
@[simp] theorem State.withChoices_rpl (s : State) (x : Nat) : (s.withChoices x).rpl = s.rpl := rfl
@[simp] theorem State.withChoices_chs (s : State) (x : Nat) : (s.withChoices x).chs = s.chs := rfl
@[simp] theorem State.withChoices_evq (s : State) (x : Nat) : (s.withChoices x).evq = s.evq := rfl
@[simp] theorem State.withChoices_hli (s : State) (x : Nat) : (s.withChoices x).hli = s.hli := rfl
@[simp] theorem State.withChoices_mge (s : State) (x : Nat) : (s.withChoices x).mge = s.mge := rfl
@[simp] theorem State.withChoices_choices (s : State) (x : Nat) : (s.withChoices x).choices = x := rfl
@[simp] theorem State.withChoices_pending (s : State) (x : Nat) : (s.withChoices x).pending = s.pending := rfl
@[simp] theorem State.withChoices_self (s : State) : s.withChoices s.choices = s := rfl
@[simp] theorem State.withChoices_withChoices (s : State) (x y : Nat) : (s.withChoices x).withChoices y = s.withChoices y := rfl
@[simp] theorem State.withPending_clock (s : State) (x : List Instr) : (s.withPending x).clock = s.clock := rfl
@[simp] theorem State.withPending_siu (s : State) (x : List Instr) : (s.withPending x).siu = s.siu := rfl
@[simp] theorem State.withPending_mxr (s : State) (x : List Instr) : (s.withPending x).mxr = s.mxr := rfl
@[simp] theorem State.withPending_zal (s : State) (x : List Instr) : (s.withPending x).zal = s.zal := rfl
@[simp] theorem State.withPending_tcl (s : State) (x : List Instr) : (s.withPending x).tcl = s.tcl := rfl
@[simp] theorem State.withPending_flt (s : State) (x : List Instr) : (s.withPending x).flt = s.flt := rfl
@[simp] theorem State.withPending_rpl (s : State) (x : List Instr) : (s.withPending x).rpl = s.rpl := rfl
@[simp] theorem State.withPending_chs (s : State) (x : List Instr) : (s.withPending x).chs = s.chs := rfl
@[simp] theorem State.withPending_evq (s : State) (x : List Instr) : (s.withPending x).evq = s.evq := rfl
@[simp] theorem State.withPending_hli (s : State) (x : List Instr) : (s.withPending x).hli = s.hli := rfl
@[simp] theorem State.withPending_mge (s : State) (x : List Instr) : (s.withPending x).mge = s.mge := rfl
@[simp] theorem State.withPending_choices (s : State) (x : List Instr) : (s.withPending x).choices = s.choices := rfl
@[simp] theorem State.withPending_pending (s : State) (x : List Instr) : (s.withPending x).pending = x := rfl
@[simp] theorem State.withPending_self (s : State) : s.withPending s.pending = s := rfl
@[simp] theorem State.withPending_withPending (s : State) (x y : List Instr) : (s.withPending x).withPending y = s.withPending y := rfl

/-! ### Records -/

theorem State.putSource_source (s : State) (i j : Fin 48) (x : Option Source) :
    (s.putSource i x).source j = if j = i then x else s.source j := Tab.get_set _ _ _ _

@[simp] theorem State.putSource_source_self (s : State) (i : Fin 48) (x : Option Source) : (s.putSource i x).source i = x :=
  Tab.get_set_self _ _ _

@[simp] theorem State.putSource_program (s : State) (i : Fin 48) (x : Option Source) (j : Fin 32) : (s.putSource i x).program j = s.program j := rfl
@[simp] theorem State.putSource_channel (s : State) (i : Fin 48) (x : Option Source) (j : Fin 24) : (s.putSource i x).channel j = s.channel j := rfl
@[simp] theorem State.putSource_zone (s : State) (i : Fin 48) (x : Option Source) (j : Fin 12) : (s.putSource i x).zone j = s.zone j := rfl
@[simp] theorem State.putSource_tour (s : State) (i : Fin 48) (x : Option Source) (j : Fin 16) : (s.putSource i x).tour j = s.tour j := rfl
@[simp] theorem State.putSource_receiver (s : State) (i : Fin 48) (x : Option Source) (j : Fin 384) : (s.putSource i x).receiver j = s.receiver j := rfl
@[simp] theorem State.putSource_rack (s : State) (i : Fin 48) (x : Option Source) (j : Fin 12) : (s.putSource i x).rack j = s.rack j := rfl
@[simp] theorem State.putSource_bay (s : State) (i : Fin 48) (x : Option Source) (j : Fin 288) : (s.putSource i x).bay j = s.bay j := rfl
@[simp] theorem State.putSource_sched (s : State) (i : Fin 48) (x : Option Source) (j : Fin 12) : (s.putSource i x).sched j = s.sched j := rfl

theorem State.putProgram_program (s : State) (i j : Fin 32) (x : Program) :
    (s.putProgram i x).program j = if j = i then x else s.program j := Tab.get_set _ _ _ _

@[simp] theorem State.putProgram_program_self (s : State) (i : Fin 32) (x : Program) : (s.putProgram i x).program i = x :=
  Tab.get_set_self _ _ _

@[simp] theorem State.putProgram_source (s : State) (i : Fin 32) (x : Program) (j : Fin 48) : (s.putProgram i x).source j = s.source j := rfl
@[simp] theorem State.putProgram_channel (s : State) (i : Fin 32) (x : Program) (j : Fin 24) : (s.putProgram i x).channel j = s.channel j := rfl
@[simp] theorem State.putProgram_zone (s : State) (i : Fin 32) (x : Program) (j : Fin 12) : (s.putProgram i x).zone j = s.zone j := rfl
@[simp] theorem State.putProgram_tour (s : State) (i : Fin 32) (x : Program) (j : Fin 16) : (s.putProgram i x).tour j = s.tour j := rfl
@[simp] theorem State.putProgram_receiver (s : State) (i : Fin 32) (x : Program) (j : Fin 384) : (s.putProgram i x).receiver j = s.receiver j := rfl
@[simp] theorem State.putProgram_rack (s : State) (i : Fin 32) (x : Program) (j : Fin 12) : (s.putProgram i x).rack j = s.rack j := rfl
@[simp] theorem State.putProgram_bay (s : State) (i : Fin 32) (x : Program) (j : Fin 288) : (s.putProgram i x).bay j = s.bay j := rfl
@[simp] theorem State.putProgram_sched (s : State) (i : Fin 32) (x : Program) (j : Fin 12) : (s.putProgram i x).sched j = s.sched j := rfl

theorem State.putChannel_channel (s : State) (i j : Fin 24) (x : Channel) :
    (s.putChannel i x).channel j = if j = i then x else s.channel j := Tab.get_set _ _ _ _

@[simp] theorem State.putChannel_channel_self (s : State) (i : Fin 24) (x : Channel) : (s.putChannel i x).channel i = x :=
  Tab.get_set_self _ _ _

@[simp] theorem State.putChannel_source (s : State) (i : Fin 24) (x : Channel) (j : Fin 48) : (s.putChannel i x).source j = s.source j := rfl
@[simp] theorem State.putChannel_program (s : State) (i : Fin 24) (x : Channel) (j : Fin 32) : (s.putChannel i x).program j = s.program j := rfl
@[simp] theorem State.putChannel_zone (s : State) (i : Fin 24) (x : Channel) (j : Fin 12) : (s.putChannel i x).zone j = s.zone j := rfl
@[simp] theorem State.putChannel_tour (s : State) (i : Fin 24) (x : Channel) (j : Fin 16) : (s.putChannel i x).tour j = s.tour j := rfl
@[simp] theorem State.putChannel_receiver (s : State) (i : Fin 24) (x : Channel) (j : Fin 384) : (s.putChannel i x).receiver j = s.receiver j := rfl
@[simp] theorem State.putChannel_rack (s : State) (i : Fin 24) (x : Channel) (j : Fin 12) : (s.putChannel i x).rack j = s.rack j := rfl
@[simp] theorem State.putChannel_bay (s : State) (i : Fin 24) (x : Channel) (j : Fin 288) : (s.putChannel i x).bay j = s.bay j := rfl
@[simp] theorem State.putChannel_sched (s : State) (i : Fin 24) (x : Channel) (j : Fin 12) : (s.putChannel i x).sched j = s.sched j := rfl

theorem State.putZone_zone (s : State) (i j : Fin 12) (x : Zone) :
    (s.putZone i x).zone j = if j = i then x else s.zone j := Tab.get_set _ _ _ _

@[simp] theorem State.putZone_zone_self (s : State) (i : Fin 12) (x : Zone) : (s.putZone i x).zone i = x :=
  Tab.get_set_self _ _ _

@[simp] theorem State.putZone_source (s : State) (i : Fin 12) (x : Zone) (j : Fin 48) : (s.putZone i x).source j = s.source j := rfl
@[simp] theorem State.putZone_program (s : State) (i : Fin 12) (x : Zone) (j : Fin 32) : (s.putZone i x).program j = s.program j := rfl
@[simp] theorem State.putZone_channel (s : State) (i : Fin 12) (x : Zone) (j : Fin 24) : (s.putZone i x).channel j = s.channel j := rfl
@[simp] theorem State.putZone_tour (s : State) (i : Fin 12) (x : Zone) (j : Fin 16) : (s.putZone i x).tour j = s.tour j := rfl
@[simp] theorem State.putZone_receiver (s : State) (i : Fin 12) (x : Zone) (j : Fin 384) : (s.putZone i x).receiver j = s.receiver j := rfl
@[simp] theorem State.putZone_rack (s : State) (i : Fin 12) (x : Zone) (j : Fin 12) : (s.putZone i x).rack j = s.rack j := rfl
@[simp] theorem State.putZone_bay (s : State) (i : Fin 12) (x : Zone) (j : Fin 288) : (s.putZone i x).bay j = s.bay j := rfl
@[simp] theorem State.putZone_sched (s : State) (i : Fin 12) (x : Zone) (j : Fin 12) : (s.putZone i x).sched j = s.sched j := rfl

theorem State.putTour_tour (s : State) (i j : Fin 16) (x : Tour) :
    (s.putTour i x).tour j = if j = i then x else s.tour j := Tab.get_set _ _ _ _

@[simp] theorem State.putTour_tour_self (s : State) (i : Fin 16) (x : Tour) : (s.putTour i x).tour i = x :=
  Tab.get_set_self _ _ _

@[simp] theorem State.putTour_source (s : State) (i : Fin 16) (x : Tour) (j : Fin 48) : (s.putTour i x).source j = s.source j := rfl
@[simp] theorem State.putTour_program (s : State) (i : Fin 16) (x : Tour) (j : Fin 32) : (s.putTour i x).program j = s.program j := rfl
@[simp] theorem State.putTour_channel (s : State) (i : Fin 16) (x : Tour) (j : Fin 24) : (s.putTour i x).channel j = s.channel j := rfl
@[simp] theorem State.putTour_zone (s : State) (i : Fin 16) (x : Tour) (j : Fin 12) : (s.putTour i x).zone j = s.zone j := rfl
@[simp] theorem State.putTour_receiver (s : State) (i : Fin 16) (x : Tour) (j : Fin 384) : (s.putTour i x).receiver j = s.receiver j := rfl
@[simp] theorem State.putTour_rack (s : State) (i : Fin 16) (x : Tour) (j : Fin 12) : (s.putTour i x).rack j = s.rack j := rfl
@[simp] theorem State.putTour_bay (s : State) (i : Fin 16) (x : Tour) (j : Fin 288) : (s.putTour i x).bay j = s.bay j := rfl
@[simp] theorem State.putTour_sched (s : State) (i : Fin 16) (x : Tour) (j : Fin 12) : (s.putTour i x).sched j = s.sched j := rfl

theorem State.putReceiver_receiver (s : State) (i j : Fin 384) (x : Option Receiver) :
    (s.putReceiver i x).receiver j = if j = i then x else s.receiver j := Tab.get_set _ _ _ _

@[simp] theorem State.putReceiver_receiver_self (s : State) (i : Fin 384) (x : Option Receiver) : (s.putReceiver i x).receiver i = x :=
  Tab.get_set_self _ _ _

@[simp] theorem State.putReceiver_source (s : State) (i : Fin 384) (x : Option Receiver) (j : Fin 48) : (s.putReceiver i x).source j = s.source j := rfl
@[simp] theorem State.putReceiver_program (s : State) (i : Fin 384) (x : Option Receiver) (j : Fin 32) : (s.putReceiver i x).program j = s.program j := rfl
@[simp] theorem State.putReceiver_channel (s : State) (i : Fin 384) (x : Option Receiver) (j : Fin 24) : (s.putReceiver i x).channel j = s.channel j := rfl
@[simp] theorem State.putReceiver_zone (s : State) (i : Fin 384) (x : Option Receiver) (j : Fin 12) : (s.putReceiver i x).zone j = s.zone j := rfl
@[simp] theorem State.putReceiver_tour (s : State) (i : Fin 384) (x : Option Receiver) (j : Fin 16) : (s.putReceiver i x).tour j = s.tour j := rfl
@[simp] theorem State.putReceiver_rack (s : State) (i : Fin 384) (x : Option Receiver) (j : Fin 12) : (s.putReceiver i x).rack j = s.rack j := rfl
@[simp] theorem State.putReceiver_bay (s : State) (i : Fin 384) (x : Option Receiver) (j : Fin 288) : (s.putReceiver i x).bay j = s.bay j := rfl
@[simp] theorem State.putReceiver_sched (s : State) (i : Fin 384) (x : Option Receiver) (j : Fin 12) : (s.putReceiver i x).sched j = s.sched j := rfl

theorem State.putRack_rack (s : State) (i j : Fin 12) (x : Rack) :
    (s.putRack i x).rack j = if j = i then x else s.rack j := Tab.get_set _ _ _ _

@[simp] theorem State.putRack_rack_self (s : State) (i : Fin 12) (x : Rack) : (s.putRack i x).rack i = x :=
  Tab.get_set_self _ _ _

@[simp] theorem State.putRack_source (s : State) (i : Fin 12) (x : Rack) (j : Fin 48) : (s.putRack i x).source j = s.source j := rfl
@[simp] theorem State.putRack_program (s : State) (i : Fin 12) (x : Rack) (j : Fin 32) : (s.putRack i x).program j = s.program j := rfl
@[simp] theorem State.putRack_channel (s : State) (i : Fin 12) (x : Rack) (j : Fin 24) : (s.putRack i x).channel j = s.channel j := rfl
@[simp] theorem State.putRack_zone (s : State) (i : Fin 12) (x : Rack) (j : Fin 12) : (s.putRack i x).zone j = s.zone j := rfl
@[simp] theorem State.putRack_tour (s : State) (i : Fin 12) (x : Rack) (j : Fin 16) : (s.putRack i x).tour j = s.tour j := rfl
@[simp] theorem State.putRack_receiver (s : State) (i : Fin 12) (x : Rack) (j : Fin 384) : (s.putRack i x).receiver j = s.receiver j := rfl
@[simp] theorem State.putRack_bay (s : State) (i : Fin 12) (x : Rack) (j : Fin 288) : (s.putRack i x).bay j = s.bay j := rfl
@[simp] theorem State.putRack_sched (s : State) (i : Fin 12) (x : Rack) (j : Fin 12) : (s.putRack i x).sched j = s.sched j := rfl

theorem State.putBay_bay (s : State) (i j : Fin 288) (x : Bay) :
    (s.putBay i x).bay j = if j = i then x else s.bay j := Tab.get_set _ _ _ _

@[simp] theorem State.putBay_bay_self (s : State) (i : Fin 288) (x : Bay) : (s.putBay i x).bay i = x :=
  Tab.get_set_self _ _ _

@[simp] theorem State.putBay_source (s : State) (i : Fin 288) (x : Bay) (j : Fin 48) : (s.putBay i x).source j = s.source j := rfl
@[simp] theorem State.putBay_program (s : State) (i : Fin 288) (x : Bay) (j : Fin 32) : (s.putBay i x).program j = s.program j := rfl
@[simp] theorem State.putBay_channel (s : State) (i : Fin 288) (x : Bay) (j : Fin 24) : (s.putBay i x).channel j = s.channel j := rfl
@[simp] theorem State.putBay_zone (s : State) (i : Fin 288) (x : Bay) (j : Fin 12) : (s.putBay i x).zone j = s.zone j := rfl
@[simp] theorem State.putBay_tour (s : State) (i : Fin 288) (x : Bay) (j : Fin 16) : (s.putBay i x).tour j = s.tour j := rfl
@[simp] theorem State.putBay_receiver (s : State) (i : Fin 288) (x : Bay) (j : Fin 384) : (s.putBay i x).receiver j = s.receiver j := rfl
@[simp] theorem State.putBay_rack (s : State) (i : Fin 288) (x : Bay) (j : Fin 12) : (s.putBay i x).rack j = s.rack j := rfl
@[simp] theorem State.putBay_sched (s : State) (i : Fin 288) (x : Bay) (j : Fin 12) : (s.putBay i x).sched j = s.sched j := rfl

theorem State.putSched_sched (s : State) (i j : Fin 12) (x : Sched) :
    (s.putSched i x).sched j = if j = i then x else s.sched j := Tab.get_set _ _ _ _

@[simp] theorem State.putSched_sched_self (s : State) (i : Fin 12) (x : Sched) : (s.putSched i x).sched i = x :=
  Tab.get_set_self _ _ _

@[simp] theorem State.putSched_source (s : State) (i : Fin 12) (x : Sched) (j : Fin 48) : (s.putSched i x).source j = s.source j := rfl
@[simp] theorem State.putSched_program (s : State) (i : Fin 12) (x : Sched) (j : Fin 32) : (s.putSched i x).program j = s.program j := rfl
@[simp] theorem State.putSched_channel (s : State) (i : Fin 12) (x : Sched) (j : Fin 24) : (s.putSched i x).channel j = s.channel j := rfl
@[simp] theorem State.putSched_zone (s : State) (i : Fin 12) (x : Sched) (j : Fin 12) : (s.putSched i x).zone j = s.zone j := rfl
@[simp] theorem State.putSched_tour (s : State) (i : Fin 12) (x : Sched) (j : Fin 16) : (s.putSched i x).tour j = s.tour j := rfl
@[simp] theorem State.putSched_receiver (s : State) (i : Fin 12) (x : Sched) (j : Fin 384) : (s.putSched i x).receiver j = s.receiver j := rfl
@[simp] theorem State.putSched_rack (s : State) (i : Fin 12) (x : Sched) (j : Fin 12) : (s.putSched i x).rack j = s.rack j := rfl
@[simp] theorem State.putSched_bay (s : State) (i : Fin 12) (x : Sched) (j : Fin 288) : (s.putSched i x).bay j = s.bay j := rfl

end Sys2Proof.Machine
end

