-- ==== Sys2Proof/Laws/Frames.lean ====
section
/-! SUPPORT. What each shared operation leaves unchanged: one lemma per operation, in the parts of Sys2Proof/Safety.lean.
Each lemma takes the frame of the state the operation works on and gives the frame of its result, so that the frame of a
composed operation is the chain of its operations' lemmas. -/

namespace Sys2Proof.Machine

open Sys2Proof

variable {s t u : State} {ps qs : List Part}

/-! ### The relation -/

theorem KeepsAllBut.refl {ps : List Part} {s : State} : KeepsAllBut ps s s := by
  intro p _; cases p <;> simp [Part.same]

theorem Part.same_trans {p : Part} (h1 : p.same s t) (h2 : p.same t u) : p.same s u := by
  cases p <;> simp_all [Part.same]

theorem KeepsAllBut.trans (h1 : KeepsAllBut ps s t) (h2 : KeepsAllBut ps t u) : KeepsAllBut ps s u :=
  fun p hp => Part.same_trans (h1 p hp) (h2 p hp)

theorem KeepsAllBut.mono (h : KeepsAllBut ps s t) (hs : ps ⊆ qs) : KeepsAllBut qs s t :=
  fun p hp => h p (fun hq => hp (hs hq))

/-- A choice keeps what both of its branches keep. -/
theorem ite_keeps {c : Prop} [Decidable c] (h1 : KeepsAllBut ps s t) (h2 : KeepsAllBut ps s u) :
    KeepsAllBut ps s (if c then t else u) := by
  split
  · exact h1
  · exact h2

/-- A loop keeps what each of its rounds keeps. -/
theorem forEach_keeps {α : Type} {items : List α} {f : α → State → State}
    (hf : ∀ a u, KeepsAllBut ps s u → KeepsAllBut ps s (f a u)) (h : KeepsAllBut ps s t) :
    KeepsAllBut ps s (forEach items f t) := by
  induction items generalizing t with
  | nil => exact h
  | cons a rest ih => exact ih (hf a t h)

/-! ### Blocks and records -/

theorem withClock_keeps {x : Clock} (h : KeepsAllBut ps s t) (hp : Part.clock ∈ ps) :
    KeepsAllBut ps s (t.withClock x) :=
  h.trans fun p hn => by cases p <;> first | exact absurd hp hn | rfl | simp [Part.same, State.rack]

theorem reach_keeps {n : Nat} (h : KeepsAllBut ps s t) (hp : Part.clock ∈ ps) : KeepsAllBut ps s (t.reach n) :=
  withClock_keeps h hp

theorem withSiu_keeps {x : Siu} (h : KeepsAllBut ps s t) (hp : Part.sources ∈ ps) :
    KeepsAllBut ps s (t.withSiu x) :=
  h.trans fun p hn => by cases p <;> first | exact absurd hp hn | rfl | simp [Part.same, State.rack]

theorem putSource_keeps {i : Fin 48} {x : Option Source} (h : KeepsAllBut ps s t) (hp : Part.sources ∈ ps) :
    KeepsAllBut ps s (t.putSource i x) := withSiu_keeps h hp

theorem withMxr_keeps {x : Mxr} (h : KeepsAllBut ps s t) (hp : Part.programs ∈ ps) :
    KeepsAllBut ps s (t.withMxr x) :=
  h.trans fun p hn => by cases p <;> first | exact absurd hp hn | rfl | simp [Part.same, State.rack]

theorem putProgram_keeps {i : Fin 32} {x : Program} (h : KeepsAllBut ps s t) (hp : Part.programs ∈ ps) :
    KeepsAllBut ps s (t.putProgram i x) := withMxr_keeps h hp

theorem withZal_keeps {x : Zal} (h : KeepsAllBut ps s t) (hp : Part.zones ∈ ps) :
    KeepsAllBut ps s (t.withZal x) :=
  h.trans fun p hn => by cases p <;> first | exact absurd hp hn | rfl | simp [Part.same, State.rack]

theorem putChannel_keeps {i : Fin 24} {x : Channel} (h : KeepsAllBut ps s t) (hp : Part.zones ∈ ps) :
    KeepsAllBut ps s (t.putChannel i x) := withZal_keeps h hp

theorem putZone_keeps {i : Fin 12} {x : Zone} (h : KeepsAllBut ps s t) (hp : Part.zones ∈ ps) :
    KeepsAllBut ps s (t.putZone i x) := withZal_keeps h hp

theorem putTour_keeps {i : Fin 16} {x : Tour} (h : KeepsAllBut ps s t) (hp : Part.tours ∈ ps) :
    KeepsAllBut ps s (t.putTour i x) :=
  h.trans fun p hn => by cases p <;> first | exact absurd hp hn | rfl | simp [Part.same, State.putTour, State.rack]

theorem putLive_keeps {i : Fin 16} {x : TourLive} (h : KeepsAllBut ps s t) (hp : Part.tours ∈ ps) :
    KeepsAllBut ps s (t.putLive i x) := putTour_keeps h hp

theorem putReceiver_keeps {i : Fin 384} {x : Option Receiver} (h : KeepsAllBut ps s t) (hp : Part.receivers ∈ ps) :
    KeepsAllBut ps s (t.putReceiver i x) :=
  h.trans fun p hn => by
    cases p <;> first | exact absurd hp hn | rfl | simp [Part.same, State.putReceiver, State.rack]

/-- The counters of R110 change, and the Receiver Table does not. -/
theorem withFlt_keeps {x : Flt} (h : KeepsAllBut ps s t) (hx : x.receivers = t.flt.receivers)
    (hp : Part.fleetCounters ∈ ps) : KeepsAllBut ps s (t.withFlt x) :=
  h.trans fun p hn => by cases p <;> first | exact absurd hp hn | rfl | simp [Part.same, State.rack, hx]

theorem putBay_keeps {a : Fin 288} {x : Bay} (h : KeepsAllBut ps s t) (hp : Part.bays ∈ ps) :
    KeepsAllBut ps s (t.putBay a x) :=
  h.trans fun p hn => by cases p <;> first | exact absurd hp hn | rfl | simp [Part.same, State.putBay, State.rack]

theorem putRackLive_keeps {i : Fin 12} {x : RackLive} (h : KeepsAllBut ps s t) (hp : Part.rackLives ∈ ps) :
    KeepsAllBut ps s (t.putRackLive i x) :=
  h.trans fun p hn => by
    cases p <;> first
      | exact absurd hp hn
      | rfl
      | (simp [Part.same, State.putRackLive, State.putRack]; done)
      | (intro r; simp only [State.putRackLive, State.putRack_rack]; split <;> simp_all)

theorem putRack_keeps {i : Fin 12} {x : Rack} (h : KeepsAllBut ps s t) (hp : Part.rackLives ∈ ps)
    (hq : Part.rackConfigs ∈ ps) : KeepsAllBut ps s (t.putRack i x) :=
  h.trans fun p hn => by
    cases p <;> first | exact absurd hp hn | exact absurd hq hn | rfl | simp [Part.same, State.putRack]

/-- The rack sender's own fields change, and nothing else of the Rack Poller does. -/
theorem withSender_keeps {x : Rpl} (h : KeepsAllBut ps s t) (h1 : x.racks = t.rpl.racks) (h2 : x.bays = t.rpl.bays)
    (h3 : x.curve = t.rpl.curve) (h4 : x.unroutedRack = t.rpl.unroutedRack) (hp : Part.sender ∈ ps) :
    KeepsAllBut ps s (t.withRpl x) :=
  h.trans fun p hn => by
    cases p <;> first | exact absurd hp hn | rfl | simp [Part.same, State.rack, h1, h2, h3, h4]

theorem putSched_keeps {i : Fin 12} {x : Sched} (h : KeepsAllBut ps s t) (hp : Part.sched ∈ ps) :
    KeepsAllBut ps s (t.putSched i x) :=
  h.trans fun p hn => by cases p <;> first | exact absurd hp hn | rfl | simp [Part.same, State.putSched, State.rack]

/-- The queue, the overflow flag and the drop counter change, and nothing else of the Event Queue does. -/
theorem withEvents_keeps {x : Evq} (h : KeepsAllBut ps s t) (h1 : x.enables = t.evq.enables) (h2 : x.desk = t.evq.desk)
    (hp : Part.events ∈ ps) : KeepsAllBut ps s (t.withEvq x) :=
  h.trans fun p hn => by cases p <;> first | exact absurd hp hn | rfl | simp [Part.same, State.rack, h1, h2]

/-- The arbiter and the counters change, and the station address and the link state do not. -/
theorem withEgress_keeps {x : Hli} (h : KeepsAllBut ps s t) (h1 : x.station = t.hli.station)
    (h2 : x.linkUp = t.hli.linkUp) (hp : Part.egress ∈ ps) : KeepsAllBut ps s (t.withHli x) :=
  h.trans fun p hn => by cases p <;> first | exact absurd hp hn | rfl | simp [Part.same, State.rack, h1, h2]

theorem putLinkCounters_keeps {c : LinkCounters} (h : KeepsAllBut ps s t) (hp : Part.egress ∈ ps) :
    KeepsAllBut ps s (t.putLinkCounters c) := withEgress_keeps h rfl rfl hp

/-- The requests, the service and MGE's counters change, and nothing else of the Management Engine does. -/
theorem withRequests_keeps {x : Mge} (h : KeepsAllBut ps s t) (h1 : x.mode = t.mge.mode)
    (h2 : x.hubTime = t.mge.hubTime) (h3 : x.settings = t.mge.settings) (hp : Part.requests ∈ ps) :
    KeepsAllBut ps s (t.withMge x) :=
  h.trans fun p hn => by cases p <;> first | exact absurd hp hn | rfl | simp [Part.same, State.rack, h1, h2, h3]

theorem useChoice_keeps (h : KeepsAllBut ps s t) (hp : Part.choices ∈ ps) : KeepsAllBut ps s t.useChoice :=
  h.trans fun p hn => by cases p <;> first | exact absurd hp hn | rfl | simp [Part.same, State.useChoice, State.rack]

/-! ### The hall link -/

@[simp] theorem startPlacing_station (h : Hli) : (startPlacing h).station = h.station := by
  unfold startPlacing; repeat' split
  all_goals rfl

@[simp] theorem startPlacing_linkUp (h : Hli) : (startPlacing h).linkUp = h.linkUp := by
  unfold startPlacing; repeat' split
  all_goals rfl

@[simp] theorem startPlacing_counters (h : Hli) : (startPlacing h).counters = h.counters := by
  unfold startPlacing; repeat' split
  all_goals rfl

@[simp] theorem startPlacing_lineOut (h : Hli) : (startPlacing h).lineOut = h.lineOut := by
  unfold startPlacing; repeat' split
  all_goals rfl

@[simp] theorem enqueue_station (f : EgressFrame) (h : Hli) : (enqueue f h).station = h.station := by
  unfold enqueue; split <;> rfl

@[simp] theorem enqueue_linkUp (f : EgressFrame) (h : Hli) : (enqueue f h).linkUp = h.linkUp := by
  unfold enqueue; split <;> rfl

@[simp] theorem enqueue_counters (f : EgressFrame) (h : Hli) : (enqueue f h).counters = h.counters := by
  unfold enqueue; split <;> rfl

@[simp] theorem enqueue_lineOut (f : EgressFrame) (h : Hli) : (enqueue f h).lineOut = h.lineOut := by
  unfold enqueue; split <;> rfl

/-- The parts that being told of a placing may change, by the frame's origin. -/
def told : Origin → List Part
  | .poll _ _ _ => [.rackLives]
  | .bayCommand => [.sender]
  | .program _ => []
  | .reply => []
  | .attention => []

theorem tellSender_keeps {o : Origin} (h : KeepsAllBut ps s t) (hp : told o ⊆ ps) :
    KeepsAllBut ps s (tellSender o t) := by
  cases o <;> simp only [tellSender, told] at hp ⊢
  case poll r b v =>
    split
    · exact putRackLive_keeps h (hp (by decide))
    · exact h
  case bayCommand => exact withSender_keeps h rfl rfl rfl rfl (hp (by decide))
  all_goals exact h

theorem countDiscard_keeps (h : KeepsAllBut ps s t) (hp : Part.egress ∈ ps) : KeepsAllBut ps s (countDiscard t) :=
  putLinkCounters_keeps h hp

theorem discardFrame_keeps {f : EgressFrame} (h : KeepsAllBut ps s t) (hp : Part.egress ∈ ps)
    (ho : told f.origin ⊆ ps) : KeepsAllBut ps s (discardFrame f t) :=
  tellSender_keeps (countDiscard_keeps h hp) ho

theorem handOver_keeps {f : EgressFrame} (h : KeepsAllBut ps s t) (hp : Part.egress ∈ ps)
    (ho : told f.origin ⊆ ps) : KeepsAllBut ps s (handOver f t) := by
  unfold handOver
  split
  · exact withEgress_keeps h (by simp) (by simp) hp
  · exact discardFrame_keeps h hp ho

theorem handOverSpare_keeps {f : EgressFrame} (h : KeepsAllBut ps s t) (hp : Part.egress ∈ ps)
    (ho : told f.origin ⊆ ps) : KeepsAllBut ps s (handOverSpare f t) := by
  unfold handOverSpare
  split
  · exact handOver_keeps h hp ho
  · exact countDiscard_keeps h hp

theorem completePlacing_keeps {f : EgressFrame} (h : KeepsAllBut ps s t) (hp : Part.egress ∈ ps)
    (ho : told f.origin ⊆ ps) : KeepsAllBut ps s (completePlacing f t) :=
  tellSender_keeps (withEgress_keeps h (by simp) (by simp) hp) ho

theorem withdrawPoll_keeps {rack : Fin 12} (h : KeepsAllBut ps s t) (hp : Part.egress ∈ ps) :
    KeepsAllBut ps s (withdrawPoll rack t) := withEgress_keeps h rfl rfl hp

/-! ### Events -/

theorem sendAttention_keeps (h : KeepsAllBut ps s t) (hp : Part.egress ∈ ps) : KeepsAllBut ps s (sendAttention t) := by
  unfold sendAttention
  split
  · exact h
  · exact handOverSpare_keeps h hp (List.nil_subset _)

theorem raiseEvent_keeps {k : EventKind} {n d : Nat} {r : Option (BitVec 16)} (h : KeepsAllBut ps s t)
    (he : Part.events ∈ ps) (hp : Part.egress ∈ ps) : KeepsAllBut ps s (raiseEvent k n r d t) := by
  have hq : ∀ x : Evq, x.enables = t.evq.enables → x.desk = t.evq.desk → KeepsAllBut ps s (t.withEvq x) :=
    fun x h1 h2 => withEvents_keeps h h1 h2 he
  simp only [raiseEvent]
  split
  · split
    · split
      · exact sendAttention_keeps (hq _ rfl rfl) hp
      · exact hq _ rfl rfl
    · exact hq _ rfl rfl
  · exact h

theorem raiseTour_keeps {k : EventKind} {slot : Fin 16} {d : Nat} (h : KeepsAllBut ps s t)
    (he : Part.events ∈ ps) (hp : Part.egress ∈ ps) : KeepsAllBut ps s (raiseTour k slot d t) :=
  raiseEvent_keeps h he hp

theorem raiseBay_keeps {c : Bool} {k : EventKind} {a : Fin 288} {d : Nat} (h : KeepsAllBut ps s t)
    (he : Part.events ∈ ps) (hp : Part.egress ∈ ps) : KeepsAllBut ps s (raiseBay c k a d t) := by
  unfold raiseBay
  split
  · exact raiseEvent_keeps h he hp
  · exact h

/-! ### Zones -/

section Zones
variable (h : KeepsAllBut ps s t) (hz : Part.zones ∈ ps) (ht : Part.tours ∈ ps) (hp : Part.programs ∈ ps)
  (he : Part.events ∈ ps) (hg : Part.egress ∈ ps)
include h

theorem setZones_keeps {ch : Fin 24} {zs : ZoneSet} (hz : Part.zones ∈ ps) : KeepsAllBut ps s (setZones ch zs t) :=
  withZal_keeps h hz

theorem emitProgram_keeps {x : Fin 24 × Frame} (hz : Part.zones ∈ ps) (hg : Part.egress ∈ ps) :
    KeepsAllBut ps s (emitProgram x t) :=
  handOver_keeps (putChannel_keeps h hz) hg (List.nil_subset _)

theorem emitPrograms_keeps {xs : List (Fin 24 × Frame)} (hz : Part.zones ∈ ps) (hg : Part.egress ∈ ps) :
    KeepsAllBut ps s (emitPrograms xs t) := by
  unfold emitPrograms
  split
  · exact h
  · exact forEach_keeps (fun _ _ k => emitProgram_keeps k hz hg) (withEgress_keeps h rfl rfl hg)

theorem bindProgram_keeps {p : Fin 32} {ch : Fin 24} (hp : Part.programs ∈ ps) :
    KeepsAllBut ps s (bindProgram p ch t) := putProgram_keeps h hp

theorem unbindProgram_keeps {p : Fin 32} (hp : Part.programs ∈ ps) : KeepsAllBut ps s (unbindProgram p t) :=
  putProgram_keeps h hp

theorem bindChannel_keeps {ch : Fin 24} {ph : ChannelState} {p : Fin 32} {zs : ZoneSet} (hz : Part.zones ∈ ps)
    (hp : Part.programs ∈ ps) : KeepsAllBut ps s (bindChannel ch ph p zs t) :=
  bindProgram_keeps (setZones_keeps (putChannel_keeps h hz) hz) hp

theorem freeChannel_keeps {ch : Fin 24} (hz : Part.zones ∈ ps) (hp : Part.programs ∈ ps) :
    KeepsAllBut ps s (freeChannel ch t) := by
  have hu : ∀ u, KeepsAllBut ps s u → KeepsAllBut ps s (setZones ch 0#12 u) := fun u k => setZones_keeps k hz
  simp only [freeChannel]
  split
  · exact putChannel_keeps (hu _ (unbindProgram_keeps h hp)) hz
  · exact putChannel_keeps (hu _ h) hz

theorem setTourZones_keeps {slot : Fin 16} {zs : ZoneSet} (hz : Part.zones ∈ ps) :
    KeepsAllBut ps s (setTourZones slot zs t) :=
  forEach_keeps (fun _ _ k => setZones_keeps k hz) h

theorem dropPrevious_keeps {slot : Fin 16} (hz : Part.zones ∈ ps) (ht : Part.tours ∈ ps) (he : Part.events ∈ ps)
    (hg : Part.egress ∈ ps) : KeepsAllBut ps s (dropPrevious slot t) := by
  simp only [dropPrevious]
  split
  · exact h
  · exact raiseTour_keeps (putLive_keeps (forEach_keeps (fun _ _ k => setZones_keeps k hz) h) ht) he hg

theorem dequeue_keeps {slot : Fin 16} {z : Fin 12} (hz : Part.zones ∈ ps) : KeepsAllBut ps s (dequeue slot z t) :=
  putZone_keeps h hz

theorem grant_keeps {slot : Fin 16} {z : Fin 12} (hz : Part.zones ∈ ps) (ht : Part.tours ∈ ps)
    (he : Part.events ∈ ps) (hg : Part.egress ∈ ps) : KeepsAllBut ps s (grant slot z t).1 := by
  have hu : ∀ u, KeepsAllBut ps s u → KeepsAllBut ps s (dropPrevious slot u) :=
    fun u k => dropPrevious_keeps k hz ht he hg
  simp only [grant]
  split
  · exact h
  · split
    · exact hu _ (putLive_keeps (dequeue_keeps (setTourZones_keeps h hz) hz) ht)
    · exact putLive_keeps (dequeue_keeps (setTourZones_keeps h hz) hz) ht

theorem serveZone_keeps {z : Fin 12} {n : Nat} {zs : ZoneSet} (hz : Part.zones ∈ ps) (ht : Part.tours ∈ ps)
    (he : Part.events ∈ ps) (hg : Part.egress ∈ ps) : KeepsAllBut ps s (serveZone z n (t, zs)).1 := by
  induction n generalizing t zs with
  | zero => exact h
  | succ n ih =>
    simp only [serveZone]
    split
    · exact h
    · split
      · exact ih (grant_keeps (dequeue_keeps h hz) hz ht he hg)
      · exact h

theorem serveSet_keeps {n : Nat} {zs : ZoneSet} (hz : Part.zones ∈ ps) (ht : Part.tours ∈ ps)
    (he : Part.events ∈ ps) (hg : Part.egress ∈ ps) : KeepsAllBut ps s (serveSet n zs t) := by
  induction n generalizing t zs with
  | zero => exact h
  | succ n ih =>
    simp only [serveSet]
    split
    · exact h
    · exact ih (serveZone_keeps h hz ht he hg)

theorem serveZones_keeps {zs : ZoneSet} (hz : Part.zones ∈ ps) (ht : Part.tours ∈ ps)
    (he : Part.events ∈ ps) (hg : Part.egress ∈ ps) : KeepsAllBut ps s (serveZones zs t) :=
  serveSet_keeps h hz ht he hg

theorem requestHandover_keeps {slot : Fin 16} {z : Fin 12} (hz : Part.zones ∈ ps) (ht : Part.tours ∈ ps)
    (he : Part.events ∈ ps) (hg : Part.egress ∈ ps) : KeepsAllBut ps s (requestHandover slot z t) := by
  simp only [requestHandover]
  split
  · exact serveZones_keeps (grant_keeps h hz ht he hg) hz ht he hg
  · split
    · exact h
    · exact raiseTour_keeps (putLive_keeps (putZone_keeps h hz) ht) he hg

theorem cutWindow_keeps {slot : Fin 16} (hz : Part.zones ∈ ps) (ht : Part.tours ∈ ps)
    (he : Part.events ∈ ps) (hg : Part.egress ∈ ps) : KeepsAllBut ps s (cutWindow slot t) := by
  unfold cutWindow
  split
  · exact serveZones_keeps (dropPrevious_keeps h hz ht he hg) hz ht he hg
  · exact h

theorem leaveQueue_keeps {slot : Fin 16} (hz : Part.zones ∈ ps) (ht : Part.tours ∈ ps) :
    KeepsAllBut ps s (leaveQueue slot t).1 := by
  unfold leaveQueue
  split
  · exact h
  · exact putLive_keeps (dequeue_keeps h hz) ht

theorem takeOut_keeps {slot : Fin 16} (hz : Part.zones ∈ ps) (ht : Part.tours ∈ ps)
    (he : Part.events ∈ ps) (hg : Part.egress ∈ ps) : KeepsAllBut ps s (takeOut slot t) :=
  serveZones_keeps (leaveQueue_keeps h hz ht) hz ht he hg

theorem tickWindow_keeps {slot : Fin 16} (hz : Part.zones ∈ ps) (ht : Part.tours ∈ ps)
    (he : Part.events ∈ ps) (hg : Part.egress ∈ ps) : KeepsAllBut ps s (tickWindow slot t) := by
  simp only [tickWindow]
  split
  · exact h
  · split
    · exact serveZones_keeps (dropPrevious_keeps (putLive_keeps h ht) hz ht he hg) hz ht he hg
    · exact putLive_keeps h ht

theorem unbindTour_keeps {slot : Fin 16} (hz : Part.zones ∈ ps) (ht : Part.tours ∈ ps) (hp : Part.programs ∈ ps) :
    KeepsAllBut ps s (unbindTour slot t).1 :=
  putLive_keeps (forEach_keeps (fun _ _ k => freeChannel_keeps k hz hp) (leaveQueue_keeps h hz ht)) ht

end Zones

/-! ### Bays and the rack sender -/

section Bays

theorem setMode_keeps {a : Fin 288} {m : ChargeMode} (h : KeepsAllBut ps s t) (hb : Part.bays ∈ ps) :
    KeepsAllBut ps s (setMode a m t) := by
  simp only [setMode]
  split
  · exact h
  · exact putBay_keeps h hb

theorem setAssign_keeps {a : Fin 288} {x : Option Assignment} (h : KeepsAllBut ps s t) (hb : Part.bays ∈ ps) :
    KeepsAllBut ps s (setAssign a x t) := by
  simp only [setAssign]
  split
  · exact h
  · exact putBay_keeps h hb

theorem markRackPending_keeps {r : Fin 12} (h : KeepsAllBut ps s t) (hb : Part.bays ∈ ps) :
    KeepsAllBut ps s (markRackPending r t) :=
  forEach_keeps (fun _ _ k => putBay_keeps k hb) h

theorem startTurnSettle_keeps {a : Fin 288} (h : KeepsAllBut ps s t) (hb : Part.bays ∈ ps) :
    KeepsAllBut ps s (startTurnSettle a t) := by
  simp only [startTurnSettle]
  split
  · exact h
  · exact putBay_keeps h hb

theorem sendCommand_keeps {r : Fin 12} {b : Fin 24} (h : KeepsAllBut ps s t) (hb : Part.bays ∈ ps)
    (hs : Part.sender ∈ ps) (hg : Part.egress ∈ ps) : KeepsAllBut ps s (sendCommand r b t) :=
  handOver_keeps (withSender_keeps (putBay_keeps h hb) rfl rfl rfl rfl hs) hg (by simpa [told] using hs)

theorem runSender_keeps {n : Nat} (h : KeepsAllBut ps s t) (hb : Part.bays ∈ ps)
    (hs : Part.sender ∈ ps) (hg : Part.egress ∈ ps) : KeepsAllBut ps s (runSender n t) := by
  induction n generalizing t with
  | zero => exact h
  | succ n ih =>
    unfold runSender
    split
    · exact h
    · split
      · exact h
      · exact ih (sendCommand_keeps h hb hs hg)

theorem rackSender_keeps (h : KeepsAllBut ps s t) (hb : Part.bays ∈ ps) (hs : Part.sender ∈ ps)
    (hg : Part.egress ∈ ps) : KeepsAllBut ps s (rackSender t) := runSender_keeps h hb hs hg

end Bays

end Sys2Proof.Machine
end

