-- ==== Sys2Proof/Laws/BlockFrames.lean ====
section
/-! SUPPORT. What the operations of the charge scheduler, the fleet, the tours, the racks and the Management Engine leave
unchanged, in the form of Sys2Proof/Laws/Frames.lean. -/

namespace Sys2Proof.Machine

open Sys2Proof

variable {s t u : State} {ps qs : List Part}

/-! ### Charging -/

section Charge

theorem judge_keeps {a : Fin 288} (h : KeepsAllBut ps s t) (hb : Part.bays ∈ ps) : KeepsAllBut ps s (judge a t) :=
  setMode_keeps h hb

theorem judgeRack_keeps {r : Fin 12} (h : KeepsAllBut ps s t) (hb : Part.bays ∈ ps) :
    KeepsAllBut ps s (judgeRack r t) := by
  exact forEach_keeps (fun _ _ k => ite_keeps k (judge_keeps k hb)) h

theorem restartCadence_keeps {r : Fin 12} (h : KeepsAllBut ps s t) (hc : Part.sched ∈ ps) :
    KeepsAllBut ps s (restartCadence r t) := putSched_keeps h hc

theorem stopTurn_keeps {r : Fin 12} {b : Fin 24} (h : KeepsAllBut ps s t) (hc : Part.sched ∈ ps) (hb : Part.bays ∈ ps) :
    KeepsAllBut ps s (stopTurn r b t) :=
  startTurnSettle_keeps (judge_keeps (putSched_keeps h hc) hb) hb

theorem trimTurns_keeps {r : Fin 12} {n : Nat} (h : KeepsAllBut ps s t) (hc : Part.sched ∈ ps) (hb : Part.bays ∈ ps) :
    KeepsAllBut ps s (trimTurns r n t) :=
  forEach_keeps (fun _ _ k => stopTurn_keeps k hc hb) h

theorem refreshCapacity_keeps {r : Fin 12} (h : KeepsAllBut ps s t) (hc : Part.sched ∈ ps) (hb : Part.bays ∈ ps) :
    KeepsAllBut ps s (refreshCapacity r t) := by
  simp only [refreshCapacity]
  split
  · exact putSched_keeps (trimTurns_keeps (putSched_keeps h hc) hc hb) hc
  · split
    · exact restartCadence_keeps (trimTurns_keeps (putSched_keeps h hc) hc hb) hc
    · exact trimTurns_keeps (putSched_keeps h hc) hc hb

theorem newRound_keeps {r : Fin 12} (h : KeepsAllBut ps s t) (hc : Part.sched ∈ ps) (hb : Part.bays ∈ ps) :
    KeepsAllBut ps s (newRound r t) :=
  putSched_keeps (forEach_keeps (fun _ _ k => putBay_keeps k hb) h) hc

theorem selectBay_keeps {r : Fin 12} (h : KeepsAllBut ps s t) (hc : Part.sched ∈ ps) (hb : Part.bays ∈ ps) :
    KeepsAllBut ps s (selectBay r t).2 := by
  unfold selectBay
  split
  · exact h
  · split
    · exact newRound_keeps h hc hb
    · exact h

theorem countTurn_keeps {a : Fin 288} (h : KeepsAllBut ps s t) (hr : Part.receivers ∈ ps) :
    KeepsAllBut ps s (countTurn a t) := by
  unfold countTurn
  split
  · split
    · exact putReceiver_keeps h hr
    · exact h
  · exact h
  · exact h

theorem startTurn_keeps {r : Fin 12} {b : Fin 24} (h : KeepsAllBut ps s t) (hc : Part.sched ∈ ps)
    (hb : Part.bays ∈ ps) (hr : Part.receivers ∈ ps) : KeepsAllBut ps s (startTurn r b t) :=
  countTurn_keeps (startTurnSettle_keeps (setMode_keeps (putBay_keeps (putSched_keeps h hc) hb) hb) hb) hr

theorem startSelected_keeps {r : Fin 12} {pay : Sched → Sched} (h : KeepsAllBut ps s t) (hc : Part.sched ∈ ps)
    (hb : Part.bays ∈ ps) (hr : Part.receivers ∈ ps) : KeepsAllBut ps s (startSelected r pay t) := by
  have k := selectBay_keeps (r := r) h hc hb
  unfold startSelected
  split <;> rename_i e <;> rw [e] at k
  · exact putSched_keeps (startTurn_keeps k hc hb hr) hc
  · exact k

theorem followTurn_keeps {r : Fin 12} (h : KeepsAllBut ps s t) (hc : Part.sched ∈ ps)
    (hb : Part.bays ∈ ps) (hr : Part.receivers ∈ ps) : KeepsAllBut ps s (followTurn r t) := by
  simp only [followTurn]
  split
  · split
    · exact startSelected_keeps h hc hb hr
    · split
      · exact h
      · split
        · exact startSelected_keeps h hc hb hr
        · exact h
  · exact h

theorem endTurn_keeps {r : Fin 12} {b : Fin 24} (h : KeepsAllBut ps s t) (hc : Part.sched ∈ ps)
    (hb : Part.bays ∈ ps) (hr : Part.receivers ∈ ps) : KeepsAllBut ps s (endTurn r b t) :=
  followTurn_keeps (stopTurn_keeps h hc hb) hc hb hr

theorem endOrJudge_keeps {a : Fin 288} (h : KeepsAllBut ps s t) (hc : Part.sched ∈ ps)
    (hb : Part.bays ∈ ps) (hr : Part.receivers ∈ ps) : KeepsAllBut ps s (endOrJudge a t) := by
  unfold endOrJudge
  split
  · exact endTurn_keeps h hc hb hr
  · exact judge_keeps h hb

theorem leaveOnline_keeps {r : Fin 12} (h : KeepsAllBut ps s t) (hc : Part.sched ∈ ps) (hb : Part.bays ∈ ps) :
    KeepsAllBut ps s (leaveOnline r t) := putSched_keeps (trimTurns_keeps h hc hb) hc

theorem cadenceAct_keeps {r : Fin 12} (h : KeepsAllBut ps s t) (hc : Part.sched ∈ ps)
    (hb : Part.bays ∈ ps) (hr : Part.receivers ∈ ps) (he : Part.events ∈ ps) (hg : Part.egress ∈ ps) :
    KeepsAllBut ps s (cadenceAct r t) := by
  simp only [cadenceAct]
  split
  · exact putSched_keeps h hc
  · split
    · exact h
    · split
      · exact startSelected_keeps h hc hb hr
      · split
        · exact h
        · split
          · exact putSched_keeps h hc
          · exact raiseEvent_keeps (putSched_keeps h hc) he hg

theorem changeBand_keeps {r : Fin 12} {k : Fin 8} (h : KeepsAllBut ps s t) (hc : Part.sched ∈ ps)
    (hb : Part.bays ∈ ps) (he : Part.events ∈ ps) (hg : Part.egress ∈ ps) : KeepsAllBut ps s (changeBand r k t) := by
  have hv : ∀ x y n, KeepsAllBut ps s (restartCadence r (judgeRack r (trimTurns r n ((t.putSched r x).putSched r y)))) :=
    fun x y n => restartCadence_keeps (judgeRack_keeps (trimTurns_keeps (putSched_keeps (putSched_keeps h hc) hc) hc hb) hb) hc
  simp only [changeBand]
  split
  · exact hv _ _ _
  · exact raiseEvent_keeps (hv _ _ _) he hg

theorem takeTemperature_keeps {r : Fin 12} {n : Int} (h : KeepsAllBut ps s t) (hc : Part.sched ∈ ps)
    (hb : Part.bays ∈ ps) (he : Part.events ∈ ps) (hg : Part.egress ∈ ps) :
    KeepsAllBut ps s (takeTemperature r n t) := by
  simp only [takeTemperature]
  split
  · exact h
  · exact changeBand_keeps h hc hb he hg

theorem treatRack_keeps {r : Fin 12} (h : KeepsAllBut ps s t) (hc : Part.sched ∈ ps)
    (hb : Part.bays ∈ ps) (he : Part.events ∈ ps) (hg : Part.egress ∈ ps) : KeepsAllBut ps s (treatRack r t) := by
  unfold treatRack
  split
  · exact changeBand_keeps h hc hb he hg
  · exact changeBand_keeps h hc hb he hg
  · exact h

theorem resync_keeps {r : Fin 12} (h : KeepsAllBut ps s t) (hc : Part.sched ∈ ps) (hb : Part.bays ∈ ps) :
    KeepsAllBut ps s (resync r t) :=
  restartCadence_keeps (judgeRack_keeps (putSched_keeps (newRound_keeps h hc hb) hc) hb) hc

theorem refreshAll_keeps (h : KeepsAllBut ps s t) (hc : Part.sched ∈ ps) (hb : Part.bays ∈ ps) :
    KeepsAllBut ps s (refreshAll t) := by
  exact forEach_keeps (fun _ _ k => ite_keeps (resync_keeps k hc hb) k)
    (forEach_keeps (fun _ _ k => refreshCapacity_keeps k hc hb) h)

end Charge

/-! ### The fleet -/

section Fleet

theorem noteIssued_keeps {slot : Fin 16} (h : KeepsAllBut ps s t) (ht : Part.tours ∈ ps) :
    KeepsAllBut ps s (noteIssued slot t) := putLive_keeps h ht

theorem noteReturned_keeps {slot : Fin 16} (h : KeepsAllBut ps s t) (ht : Part.tours ∈ ps) :
    KeepsAllBut ps s (noteReturned slot t) := putLive_keeps h ht

theorem bayEmptied_keeps {o : Bay} {a : Fin 288} (h : KeepsAllBut ps s t) (hb : Part.bays ∈ ps)
    (hc : Part.sched ∈ ps) (hr : Part.receivers ∈ ps) (he : Part.events ∈ ps) (hg : Part.egress ∈ ps) :
    KeepsAllBut ps s (bayEmptied o a t) :=
  endOrJudge_keeps (raiseBay_keeps (raiseBay_keeps (raiseBay_keeps (raiseBay_keeps (putBay_keeps h hb) he hg) he hg)
    he hg) he hg) hc hb hr

theorem clearBay_keeps {a : Fin 288} (h : KeepsAllBut ps s t) (hb : Part.bays ∈ ps) : KeepsAllBut ps s (clearBay a t) :=
  setAssign_keeps (putBay_keeps h hb) hb

theorem fleetUndock_keeps {a : Fin 288} {n : Fin 384} (h : KeepsAllBut ps s t) (hb : Part.bays ∈ ps)
    (hr : Part.receivers ∈ ps) (ht : Part.tours ∈ ps) (hf : Part.fleetCounters ∈ ps) (he : Part.events ∈ ps)
    (hg : Part.egress ∈ ps) : KeepsAllBut ps s (fleetUndock a n t) := by
  have k := clearBay_keeps (a := a) h hb
  have kw : ∀ x, KeepsAllBut ps s ((clearBay a t).putReceiver n x) := fun x => putReceiver_keeps k hr
  simp only [fleetUndock]
  split
  · exact k
  · split
    · exact raiseEvent_keeps (noteIssued_keeps (kw _) ht) he hg
    · exact raiseEvent_keeps (withFlt_keeps (kw _) rfl hf) he hg
    · exact kw _

theorem undockBay_keeps {a : Fin 288} (h : KeepsAllBut ps s t) (hb : Part.bays ∈ ps) (hc : Part.sched ∈ ps)
    (hr : Part.receivers ∈ ps) (ht : Part.tours ∈ ps) (hf : Part.fleetCounters ∈ ps) (he : Part.events ∈ ps)
    (hg : Part.egress ∈ ps) : KeepsAllBut ps s (undockBay a t) := by
  simp only [undockBay]
  split
  · exact h
  · exact bayEmptied_keeps (fleetUndock_keeps h hb hr ht hf he hg) hb hc hr he hg
  · exact bayEmptied_keeps (clearBay_keeps h hb) hb hc hr he hg

theorem placeReceiver_keeps {a : Fin 288} {n : Fin 384} {r : Receiver} (h : KeepsAllBut ps s t)
    (hb : Part.bays ∈ ps) (hr : Part.receivers ∈ ps) : KeepsAllBut ps s (placeReceiver a n r t) :=
  putBay_keeps (putReceiver_keeps h hr) hb

theorem dockKnown_keeps {a : Fin 288} {n : Fin 384} {r : Receiver} (h : KeepsAllBut ps s t) (hb : Part.bays ∈ ps)
    (hr : Part.receivers ∈ ps) (ht : Part.tours ∈ ps) (hf : Part.fleetCounters ∈ ps) (he : Part.events ∈ ps)
    (hg : Part.egress ∈ ps) : KeepsAllBut ps s (dockKnown a n r t) := by
  have ku : ∀ x, KeepsAllBut ps s (setAssign a none (placeReceiver a n x t)) :=
    fun x => setAssign_keeps (placeReceiver_keeps h hb hr) hb
  have kf : ∀ u, KeepsAllBut ps s u →
      KeepsAllBut ps s (u.withFlt { u.flt with lateReturns := satAdd u.flt.lateReturns 1 }) :=
    fun u k => withFlt_keeps k rfl hf
  have kl : ∀ (c : Bool) u, KeepsAllBut ps s u →
      KeepsAllBut ps s (if c then u.withFlt { u.flt with lateReturns := satAdd u.flt.lateReturns 1 } else u) := by
    intro c u k; split
    · exact kf u k
    · exact k
  simp only [dockKnown]
  split
  · refine raiseEvent_keeps (kl _ _ ?_) he hg
    split
    · exact noteReturned_keeps (ku _) ht
    · exact ku _
  · refine kl _ _ ?_
    split
    · exact noteReturned_keeps (ku _) ht
    · exact ku _

theorem moveReceiver_keeps {o a : Fin 288} {n : Fin 384} (h : KeepsAllBut ps s t) (hb : Part.bays ∈ ps)
    (hc : Part.sched ∈ ps) (hr : Part.receivers ∈ ps) (he : Part.events ∈ ps) (hg : Part.egress ∈ ps) :
    KeepsAllBut ps s (moveReceiver o a n t) := by
  have k := bayEmptied_keeps (o := t.bay o) (a := o) (clearBay_keeps (a := o) h hb) hb hc hr he hg
  simp only [moveReceiver]
  split
  · exact k
  · split
    · exact setAssign_keeps (placeReceiver_keeps k hb hr) hb
    · exact setAssign_keeps (placeReceiver_keeps k hb hr) hb

theorem enrolInto_keeps {a : Fin 288} {n : Fin 384} {g : RxTag} (h : KeepsAllBut ps s t) (hb : Part.bays ∈ ps)
    (hr : Part.receivers ∈ ps) : KeepsAllBut ps s (enrolInto a n g t) :=
  setAssign_keeps (placeReceiver_keeps h hb hr) hb

theorem dockUnknown_keeps {a : Fin 288} {g : RxTag} (h : KeepsAllBut ps s t) (hb : Part.bays ∈ ps)
    (hf : Part.fleetCounters ∈ ps) (he : Part.events ∈ ps) (hg : Part.egress ∈ ps) :
    KeepsAllBut ps s (dockUnknown a g t) :=
  raiseEvent_keeps (withFlt_keeps (setAssign_keeps (putBay_keeps h hb) hb) rfl hf) he hg

theorem fleetDock_keeps {a : Fin 288} {g : RxTag} (h : KeepsAllBut ps s t) (hb : Part.bays ∈ ps) (hc : Part.sched ∈ ps)
    (hr : Part.receivers ∈ ps) (ht : Part.tours ∈ ps) (hf : Part.fleetCounters ∈ ps) (he : Part.events ∈ ps)
    (hg : Part.egress ∈ ps) : KeepsAllBut ps s (fleetDock a g t) := by
  have k : KeepsAllBut ps s (undockFormer a g t) := by
    unfold undockFormer
    split
    · split
      · split
        · exact h
        · exact undockBay_keeps h hb hc hr ht hf he hg
      · exact h
    · exact h
    · exact h
  simp only [fleetDock]
  split
  · split
    · exact k
    · split
      · split
        · exact putBay_keeps k hb
        · exact moveReceiver_keeps k hb hc hr he hg
      · exact dockKnown_keeps k hb hr ht hf he hg
  · split
    · exact enrolInto_keeps k hb hr
    · exact dockUnknown_keeps k hb hf he hg
    · exact dockUnknown_keeps k hb hf he hg

theorem dockBay_keeps {a : Fin 288} {g : RxTag} (h : KeepsAllBut ps s t) (hb : Part.bays ∈ ps) (hc : Part.sched ∈ ps)
    (hr : Part.receivers ∈ ps) (ht : Part.tours ∈ ps) (hf : Part.fleetCounters ∈ ps) (he : Part.events ∈ ps)
    (hg : Part.egress ∈ ps) : KeepsAllBut ps s (dockBay a g t) :=
  judge_keeps (raiseEvent_keeps (putBay_keeps (fleetDock_keeps h hb hc hr ht hf he hg) hb) he hg) hb

theorem comparePresence_keeps {a : Fin 288} {g : Option RxTag} (h : KeepsAllBut ps s t) (hb : Part.bays ∈ ps)
    (hc : Part.sched ∈ ps) (hr : Part.receivers ∈ ps) (ht : Part.tours ∈ ps) (hf : Part.fleetCounters ∈ ps)
    (he : Part.events ∈ ps) (hg : Part.egress ∈ ps) : KeepsAllBut ps s (comparePresence a g t) := by
  have kd : ∀ u x, KeepsAllBut ps s u → KeepsAllBut ps s (dockBay a x u) :=
    fun u x k => dockBay_keeps k hb hc hr ht hf he hg
  have ku := undockBay_keeps (a := a) h hb hc hr ht hf he hg
  unfold comparePresence
  split
  · exact h
  · exact kd _ _ h
  · split
    · split
      · exact h
      · exact kd _ _ h
    · exact kd _ _ h
  · split
    · exact h
    · exact kd _ _ ku
  · exact ku
  · exact ku

theorem fleetReading_keeps {a : Fin 288} (h : KeepsAllBut ps s t) (hr : Part.receivers ∈ ps) :
    KeepsAllBut ps s (fleetReading a t) := by
  simp only [fleetReading]
  split
  · split
    · exact h
    · exact putReceiver_keeps h hr
  · exact h
  · exact h
  · exact h

theorem reserveOne_keeps {q : Reservation} {c : Bool} {n : Fin 384} (h : KeepsAllBut ps s t)
    (hr : Part.receivers ∈ ps) (hb : Part.bays ∈ ps) : KeepsAllBut ps s (reserveOne q c n t) := by
  simp only [reserveOne]
  split
  · exact h
  · split
    · exact setAssign_keeps (putReceiver_keeps h hr) hb
    · exact putReceiver_keeps h hr

theorem reserve_keeps {q : Reservation} (h : KeepsAllBut ps s t) (hr : Part.receivers ∈ ps)
    (hb : Part.bays ∈ ps) (ht : Part.tours ∈ ps) : KeepsAllBut ps s (reserve q t).2 :=
  putLive_keeps (forEach_keeps (fun _ _ k => reserveOne_keeps k hr hb)
    (forEach_keeps (fun _ _ k => reserveOne_keeps k hr hb) h)) ht

theorem releaseRun_keeps {slot : Fin 16} {run : BitVec 16} (h : KeepsAllBut ps s t) (hr : Part.receivers ∈ ps)
    (hb : Part.bays ∈ ps) (ht : Part.tours ∈ ps) : KeepsAllBut ps s (releaseRun slot run t) := by
  refine forEach_keeps (fun _ _ k => ?_) h
  simp only [releaseOne]
  split
  · exact k
  · split
    · split
      · exact putLive_keeps (setAssign_keeps (putReceiver_keeps k hr) hb) ht
      · exact putLive_keeps (putReceiver_keeps k hr) ht
    · exact k

theorem makeDue_keeps {slot : Fin 16} {run : BitVec 16} (h : KeepsAllBut ps s t) (hr : Part.receivers ∈ ps) :
    KeepsAllBut ps s (makeDue slot run t) := by
  refine forEach_keeps (fun _ _ k => ?_) h
  simp only [makeDueOne]
  split
  · exact k
  · split
    · exact putReceiver_keeps k hr
    · exact k

theorem overdueOne_keeps {n : Fin 384} (h : KeepsAllBut ps s t) (hr : Part.receivers ∈ ps)
    (he : Part.events ∈ ps) (hg : Part.egress ∈ ps) : KeepsAllBut ps s (overdueOne n t) := by
  simp only [overdueOne]
  split
  · exact h
  · split
    · split
      · exact raiseEvent_keeps (putReceiver_keeps h hr) he hg
      · exact h
    · exact h

theorem judgeDeadlines_keeps (h : KeepsAllBut ps s t) (hr : Part.receivers ∈ ps)
    (he : Part.events ∈ ps) (hg : Part.egress ∈ ps) : KeepsAllBut ps s (judgeDeadlines t) :=
  forEach_keeps (fun _ _ k => overdueOne_keeps k hr he hg) h

end Fleet

/-! ### Tours -/

section Tours

theorem writeFallback_keeps {slot : Fin 16} (h : KeepsAllBut ps s t) (hp : Part.programs ∈ ps) (ht : Part.tours ∈ ps)
    (he : Part.events ∈ ps) (hg : Part.egress ∈ ps) : KeepsAllBut ps s (writeFallback slot t) := by
  have kw : ∀ (es : List (Fin 4 × Entry)) (st : Stop),
      KeepsAllBut ps s (forEach es (fun x => setFallback x.2.program (st.fallback.get x.1)) t) :=
    fun es st => forEach_keeps (fun _ _ k => putProgram_keeps k hp) h
  simp only [writeFallback]
  split
  · exact h
  · split
    · exact h
    · split
      · exact raiseTour_keeps (putLive_keeps (kw _ _) ht) he hg
      · exact raiseTour_keeps (putLive_keeps (kw _ _) ht) he hg

theorem clearFallbacks_keeps {p : Plan} (h : KeepsAllBut ps s t) (hp : Part.programs ∈ ps) :
    KeepsAllBut ps s (clearFallbacks p t) := forEach_keeps (fun _ _ k => putProgram_keeps k hp) h

theorem resetSilence_keeps {slot : Fin 16} (h : KeepsAllBut ps s t) (hp : Part.programs ∈ ps) (ht : Part.tours ∈ ps)
    (he : Part.events ∈ ps) (hg : Part.egress ∈ ps) : KeepsAllBut ps s (resetSilence slot t) := by
  simp only [resetSilence]
  split
  · split
    · exact raiseTour_keeps (clearFallbacks_keeps (putLive_keeps h ht) hp) he hg
    · exact raiseTour_keeps (putLive_keeps h ht) he hg
  · exact putLive_keeps h ht

theorem countSilence_keeps {slot : Fin 16} (h : KeepsAllBut ps s t) (hp : Part.programs ∈ ps) (ht : Part.tours ∈ ps)
    (he : Part.events ∈ ps) (hg : Part.egress ∈ ps) : KeepsAllBut ps s (countSilence slot t) := by
  simp only [countSilence]
  split
  · split
    · exact raiseTour_keeps (putLive_keeps h ht) he hg
    · exact putLive_keeps h ht
  · split
    · split
      · exact writeFallback_keeps (putLive_keeps h ht) hp ht he hg
      · exact putLive_keeps h ht
    · exact h

theorem disown_keeps {p : Fin 32} (h : KeepsAllBut ps s t) (hp : Part.programs ∈ ps) : KeepsAllBut ps s (disown p t) :=
  putProgram_keeps h hp

theorem closeActions_keeps {q : Bool} {slot : Fin 16} (h : KeepsAllBut ps s t) (hr : Part.receivers ∈ ps)
    (hb : Part.bays ∈ ps) (ht : Part.tours ∈ ps) (hp : Part.programs ∈ ps) (hz : Part.zones ∈ ps)
    (he : Part.events ∈ ps) (hg : Part.egress ∈ ps) : KeepsAllBut ps s (closeActions q slot t).1 := by
  have k1 := makeDue_keeps (slot := slot) (run := (t.tour slot).live.run)
    (releaseRun_keeps (slot := slot) (run := (t.tour slot).live.run) h hr hb ht) hr
  have k2 : ∀ es : List (Fin 4 × Entry), KeepsAllBut ps s (forEach es (fun x => disown x.2.program)
      (makeDue slot (t.tour slot).live.run (releaseRun slot (t.tour slot).live.run t))) :=
    fun es => forEach_keeps (fun _ _ k => disown_keeps k hp) k1
  simp only [closeActions]
  split <;> split
  · exact putLive_keeps (unbindTour_keeps (k2 _) hz ht hp) ht
  · exact putLive_keeps (unbindTour_keeps k1 hz ht hp) ht
  · exact raiseTour_keeps (putLive_keeps (unbindTour_keeps (k2 _) hz ht hp) ht) he hg
  · exact raiseTour_keeps (putLive_keeps (unbindTour_keeps k1 hz ht hp) ht) he hg

theorem closeTour_keeps {slot : Fin 16} (h : KeepsAllBut ps s t) (hr : Part.receivers ∈ ps)
    (hb : Part.bays ∈ ps) (ht : Part.tours ∈ ps) (hp : Part.programs ∈ ps) (hz : Part.zones ∈ ps)
    (he : Part.events ∈ ps) (hg : Part.egress ∈ ps) : KeepsAllBut ps s (closeTour slot t) :=
  judgeDeadlines_keeps (serveZones_keeps (closeActions_keeps h hr hb ht hp hz he hg) hz ht he hg) hr he hg

theorem closeAll_keeps {q : Bool} (h : KeepsAllBut ps s t) (hr : Part.receivers ∈ ps)
    (hb : Part.bays ∈ ps) (ht : Part.tours ∈ ps) (hp : Part.programs ∈ ps) (hz : Part.zones ∈ ps)
    (he : Part.events ∈ ps) (hg : Part.egress ∈ ps) : KeepsAllBut ps s (closeAll q t) := by
  have hf : ∀ (ks : List (Fin 16)) (r : State × ZoneSet), KeepsAllBut ps s r.1 →
      KeepsAllBut ps s (ks.foldl (fun acc k => closeHeld q k acc) r).1 := by
    intro ks
    induction ks with
    | nil => intro r k; exact k
    | cons a rest ih =>
      intro r k
      refine ih _ ?_
      simp only [closeHeld]
      split
      · exact closeActions_keeps k hr hb ht hp hz he hg
      · exact k
  exact judgeDeadlines_keeps (serveZones_keeps (hf _ (t, 0#12) h) hz ht he hg) hr he hg

theorem tickTour_keeps {slot : Fin 16} (h : KeepsAllBut ps s t) (hr : Part.receivers ∈ ps)
    (hb : Part.bays ∈ ps) (ht : Part.tours ∈ ps) (hp : Part.programs ∈ ps) (hz : Part.zones ∈ ps)
    (he : Part.events ∈ ps) (hg : Part.egress ∈ ps) : KeepsAllBut ps s (tickTour slot t) := by
  have k1 : KeepsAllBut ps s (tickSilence slot t) := by
    unfold tickSilence
    split
    · exact resetSilence_keeps h hp ht he hg
    · exact countSilence_keeps h hp ht he hg
  unfold tickTour
  split
  · simp only [tickClose]
    split
    · split
      · exact closeTour_keeps (putLive_keeps k1 ht) hr hb ht hp hz he hg
      · exact putLive_keeps k1 ht
    · exact k1
  · exact h

theorem followStop_keeps {slot : Fin 16} (h : KeepsAllBut ps s t) (hz : Part.zones ∈ ps) (ht : Part.tours ∈ ps)
    (he : Part.events ∈ ps) (hg : Part.egress ∈ ps) : KeepsAllBut ps s (followStop slot t) := by
  have kq : ∀ z u, KeepsAllBut ps s u → KeepsAllBut ps s (requestHandover slot z u) :=
    fun z u k => requestHandover_keeps k hz ht he hg
  have ks : ∀ u, KeepsAllBut ps s u → KeepsAllBut ps s (followSettled slot u) := by
    intro u k
    unfold followSettled
    split
    · split
      · exact k
      · exact kq _ _ k
    · exact k
  unfold followStop
  split
  · exact ks _ h
  · exact ks _ (cutWindow_keeps h hz ht he hg)
  · unfold followWaiting
    split
    · split
      · exact kq _ _ h
      · split
        · exact takeOut_keeps h hz ht he hg
        · exact kq _ _ (takeOut_keeps h hz ht he hg)
    · exact h

theorem takeAdvance_keeps {d : Nat} {slot : Fin 16} (h : KeepsAllBut ps s t) (ht : Part.tours ∈ ps)
    (hp : Part.programs ∈ ps) (hz : Part.zones ∈ ps) (he : Part.events ∈ ps) (hg : Part.egress ∈ ps) :
    KeepsAllBut ps s (takeAdvance d slot t) := by
  have kr : ∀ k n u, KeepsAllBut ps s u → KeepsAllBut ps s (raiseTour k slot n u) :=
    fun k n u x => raiseTour_keeps x he hg
  have kv : ∀ u, KeepsAllBut ps s u →
      KeepsAllBut ps s (if (u.tour slot).live.stage = 2 then writeFallback slot u else u) :=
    fun u k => ite_keeps (writeFallback_keeps k hp ht he hg) k
  simp only [takeAdvance]
  split
  · exact h
  · split
    · exact kr _ _ _ h
    · have km := kr .mark (detailPair d (min ((t.tour slot).live.stop + d) (lastStop ‹Plan›))) _
        (putLive_keeps h ht (i := slot) (x := { (t.tour slot).live with
          stop := min ((t.tour slot).live.stop + d) (lastStop ‹Plan›) }))
      exact kv _ (followStop_keeps (ite_keeps (kr _ _ _ km) km) hz ht he hg)

theorem passAdvance_keeps {i : Fin 48} {d : Nat} (h : KeepsAllBut ps s t) (hs : Part.sources ∈ ps)
    (ht : Part.tours ∈ ps) (hp : Part.programs ∈ ps) (hz : Part.zones ∈ ps) (he : Part.events ∈ ps)
    (hg : Part.egress ∈ ps) : KeepsAllBut ps s (passAdvance i d t) := by
  unfold passAdvance
  split
  · split
    · exact h
    · exact putSource_keeps h hs
  · exact forEach_keeps (fun _ _ k => takeAdvance_keeps k ht hp hz he hg) h

theorem startTour_keeps {slot : Fin 16} {p : Plan} {z : Fin 12} (h : KeepsAllBut ps s t) (hz : Part.zones ∈ ps)
    (ht : Part.tours ∈ ps) (hp : Part.programs ∈ ps) (hr : Part.receivers ∈ ps) (hb : Part.bays ∈ ps)
    (he : Part.events ∈ ps) (hg : Part.egress ∈ ps) : KeepsAllBut ps s (startTour slot p z t).2 := by
  have kp : ∀ (es : List (Fin 4 × Entry)) u, KeepsAllBut ps s u → KeepsAllBut ps s (reserveParties slot es u).2 := by
    intro es
    induction es with
    | nil => intro u k; exact k
    | cons x rest ih =>
      intro u k
      refine ih _ ?_
      simp only [reserveFor]
      split
      · exact k
      · exact reserve_keeps k hr hb ht
  exact raiseTour_keeps (kp _ _ (putLive_keeps (forEach_keeps
    (fun _ _ k => putLive_keeps (putProgram_keeps (bindChannel_keeps k hz hp) hp) ht) h) ht)) he hg

end Tours

/-! ### Racks -/

section Racks

theorem sendPoll_keeps {r : Fin 12} (h : KeepsAllBut ps s t) (hl : Part.rackLives ∈ ps) (hg : Part.egress ∈ ps) :
    KeepsAllBut ps s (sendPoll r t) :=
  handOver_keeps (putRackLive_keeps h hl) hg (by simpa [told] using hl)

theorem startSpacing_keeps {r : Fin 12} (h : KeepsAllBut ps s t) (hl : Part.rackLives ∈ ps) :
    KeepsAllBut ps s (startSpacing r t) := putRackLive_keeps h hl

theorem rackOnline_keeps {r : Fin 12} {n : Nat} (h : KeepsAllBut ps s t) (hl : Part.rackLives ∈ ps)
    (hb : Part.bays ∈ ps) (hc : Part.sched ∈ ps) (he : Part.events ∈ ps) (hg : Part.egress ∈ ps) :
    KeepsAllBut ps s (rackOnline r n t) :=
  resync_keeps (markRackPending_keeps (raiseEvent_keeps (putRackLive_keeps h hl) he hg) hb) hc hb

theorem rackOffline_keeps {r : Fin 12} (h : KeepsAllBut ps s t) (hl : Part.rackLives ∈ ps)
    (hb : Part.bays ∈ ps) (hc : Part.sched ∈ ps) (he : Part.events ∈ ps) (hg : Part.egress ∈ ps) :
    KeepsAllBut ps s (rackOffline r t) :=
  leaveOnline_keeps (raiseEvent_keeps (putRackLive_keeps h hl) he hg) hc hb

theorem disableRack_keeps {r : Fin 12} (h : KeepsAllBut ps s t) (hl : Part.rackLives ∈ ps)
    (hb : Part.bays ∈ ps) (hc : Part.sched ∈ ps) (hg : Part.egress ∈ ps) : KeepsAllBut ps s (disableRack r t) := by
  simp only [disableRack]
  split
  · exact leaveOnline_keeps (withdrawPoll_keeps (putRackLive_keeps h hl) hg) hc hb
  · exact withdrawPoll_keeps (putRackLive_keeps h hl) hg

theorem enableRack_keeps {r : Fin 12} (h : KeepsAllBut ps s t) (hl : Part.rackLives ∈ ps) (hg : Part.egress ∈ ps) :
    KeepsAllBut ps s (enableRack r t) := sendPoll_keeps (putRackLive_keeps h hl) hl hg

theorem applyRackConfig_keeps {r : Fin 12} {c : RackConfig} (h : KeepsAllBut ps s t) (hl : Part.rackLives ∈ ps)
    (hk : Part.rackConfigs ∈ ps) (hb : Part.bays ∈ ps) (hc : Part.sched ∈ ps) (he : Part.events ∈ ps)
    (hg : Part.egress ∈ ps) : KeepsAllBut ps s (applyRackConfig r c t) := by
  have kt : ∀ x, KeepsAllBut ps s (t.putRack r x) := fun x => putRack_keeps h hl hk
  simp only [applyRackConfig]
  refine refreshCapacity_keeps ?_ hc hb
  split
  · exact kt _
  · exact enableRack_keeps (kt _) hl hg
  · exact disableRack_keeps (kt _) hl hb hc hg
  · split
    · exact putRackLive_keeps (kt _) hl
    · simp only [rekeyRack]
      refine enableRack_keeps ?_ hl hg
      split
      · exact raiseEvent_keeps (disableRack_keeps (kt _) hl hb hc hg) he hg
      · exact disableRack_keeps (kt _) hl hb hc hg

theorem settlePoll_keeps {r : Fin 12} {b : Fin 24} (h : KeepsAllBut ps s t) (hl : Part.rackLives ∈ ps)
    (hb : Part.bays ∈ ps) (hc : Part.sched ∈ ps) (he : Part.events ∈ ps) (hg : Part.egress ∈ ps) :
    KeepsAllBut ps s (settlePoll r b t) := by
  simp only [settlePoll]
  split
  · refine startSpacing_keeps ?_ hl
    split
    · exact rackOnline_keeps (putRackLive_keeps h hl) hl hb hc he hg
    · exact putRackLive_keeps h hl
  · split
    · exact putRackLive_keeps h hl
    · exact h

theorem chargeReading_keeps {a : Fin 288} (h : KeepsAllBut ps s t) (hc : Part.sched ∈ ps)
    (hb : Part.bays ∈ ps) (hr : Part.receivers ∈ ps) : KeepsAllBut ps s (chargeReading a t) := by
  exact ite_keeps (ite_keeps (endTurn_keeps h hc hb hr) h) (judge_keeps h hb)

theorem readElectrical_keeps {a : Fin 288} {v : Nat} {f : Bool} (h : KeepsAllBut ps s t) (hc : Part.sched ∈ ps)
    (hb : Part.bays ∈ ps) (hr : Part.receivers ∈ ps) (he : Part.events ∈ ps) (hg : Part.egress ∈ ps) :
    KeepsAllBut ps s (readElectrical a v f t) := by
  have ku : ∀ x, KeepsAllBut ps s (t.putBay a x) := fun x => putBay_keeps h hb
  simp only [readElectrical]
  split
  · exact h
  · split
    · exact chargeReading_keeps (fleetReading_keeps (raiseBay_keeps (raiseBay_keeps (raiseBay_keeps (ku _)
        he hg) he hg) he hg) hr) hc hb hr
    · exact judge_keeps (fleetReading_keeps (ku _) hr) hb
    · exact h
    · exact h

theorem takeReading_keeps {r : Fin 12} {x : Reading} (h : KeepsAllBut ps s t) (hl : Part.rackLives ∈ ps)
    (hc : Part.sched ∈ ps) (hb : Part.bays ∈ ps) (hr : Part.receivers ∈ ps) (ht : Part.tours ∈ ps)
    (hf : Part.fleetCounters ∈ ps) (he : Part.events ∈ ps) (hg : Part.egress ∈ ps) :
    KeepsAllBut ps s (takeReading r x t) :=
  readElectrical_keeps (putBay_keeps (comparePresence_keeps
    (takeTemperature_keeps (putRackLive_keeps h hl) hc hb he hg) hb hc hr ht hf he hg) hb) hc hb hr he hg

theorem countUnroutedRack_keeps (h : KeepsAllBut ps s t) (hu : Part.unroutedRack ∈ ps) :
    KeepsAllBut ps s (countUnroutedRack t) :=
  h.trans fun p hn => by
    cases p <;> first | exact absurd hu hn | rfl | simp [Part.same, countUnroutedRack, State.rack]

theorem countMalformedRack_keeps {r : Fin 12} (h : KeepsAllBut ps s t) (hl : Part.rackLives ∈ ps) :
    KeepsAllBut ps s (countMalformedRack r t) := putRackLive_keeps h hl

end Racks

/-! ### Requests -/

section Requests

theorem takeNext_keeps (h : KeepsAllBut ps s t) (hm : Part.requests ∈ ps) : KeepsAllBut ps s (takeNext t) := by
  unfold takeNext
  split
  · exact withRequests_keeps h rfl rfl rfl hm
  · exact h
  · exact h
  · exact h

theorem offerReply_keeps {r : Reply} (h : KeepsAllBut ps s t) (hm : Part.requests ∈ ps) (hg : Part.egress ∈ ps) :
    KeepsAllBut ps s (offerReply r t) := by
  unfold offerReply
  split
  · exact takeNext_keeps (withRequests_keeps (handOver_keeps h hg (List.nil_subset _)) rfl rfl rfl hm) hm
  · exact withRequests_keeps h rfl rfl rfl hm

/-- Serving a request keeps what its owner's action keeps, but for the requests and the arbiter. -/
theorem serve_keeps {code : Nat} {owner : List Byte → State → Answer}
    (ho : ∀ args, KeepsAllBut ps s (owner args t).state) (h : KeepsAllBut ps s t)
    (hm : Part.requests ∈ ps) (hg : Part.egress ∈ ps) : KeepsAllBut ps s (serve code owner t) := by
  unfold serve
  split
  · split
    · exact offerReply_keeps (ho _) hm hg
    · exact h
  · exact h
  · exact h

theorem serveRacks_keeps {code : Nat} {owner : List Byte → State → Answer}
    (ho : ∀ args, KeepsAllBut ps s (owner args t).state) (h : KeepsAllBut ps s t) (hb : Part.bays ∈ ps)
    (hs : Part.sender ∈ ps) (hm : Part.requests ∈ ps) (hg : Part.egress ∈ ps) :
    KeepsAllBut ps s (serveRacks code owner t) :=
  serve_keeps (fun args => rackSender_keeps (ho args) hb hs hg) h hm hg

end Requests

end Sys2Proof.Machine
end

