-- ==== Sys2Proof/Laws/Specs.lean ====
section
/-! SUPPORT. What each shared operation does, said once: serving a request, an arriving frame, the egress arbiter, events,
and zone sets with their counts. -/

namespace Sys2Proof.Machine

open Sys2Proof

variable {s t u : State}

/-! ### Answers, requests and arriving frames -/

@[simp] theorem refuse_status (x : Status) (s : State) : (refuse x s).status = x := rfl
@[simp] theorem refuse_data (x : Status) (s : State) : (refuse x s).data = [] := rfl
@[simp] theorem refuse_state (x : Status) (s : State) : (refuse x s).state = s := rfl
@[simp] theorem answer_status (x : Status) (s : State) : (answer x s).status = x := rfl
@[simp] theorem answer_data (x : Status) (s : State) : (answer x s).data = [] := rfl
@[simp] theorem answer_state (x : Status) (s : State) : (answer x s).state = s := rfl
@[simp] theorem readAnswer_status (fs : List Field) (s : State) : (readAnswer fs s).status = .done := rfl
@[simp] theorem readAnswer_state (fs : List Field) (s : State) : (readAnswer fs s).state = s.useChoice := rfl

/-- Serving the request in service: the owner's answer is offered as the reply (R181). -/
theorem serve_serving {code : Nat} {req : Request} (owner : List Byte → State → Answer) (h : Serving s code req) :
    serve code owner s = offerReply
      (replyTo req (owner (requestArgs req) s).status (owner (requestArgs req) s).data)
      (owner (requestArgs req) s).state := by
  obtain ⟨h1, h2, h3⟩ := h
  simp [serve, h1, h2, h3]

/-- As `serve_serving`, with the rack sender's action before the reply is offered (R132, log 10). -/
theorem serveRacks_serving {code : Nat} {req : Request} (owner : List Byte → State → Answer)
    (h : Serving s code req) :
    serveRacks code owner s = offerReply
      (replyTo req (owner (requestArgs req) s).status (owner (requestArgs req) s).data)
      (rackSender (owner (requestArgs req) s).state) := by
  unfold serveRacks
  rw [serve_serving _ h]

/-- A frame that arrives and passes the checks is counted and dispatched (R161, R162). -/
theorem arrive_accepted {frame : List Byte} {kind : IngressKind} {source : Station} {payload : List Byte}
    (h : Arrives s frame kind source payload) :
    arrive frame s = dispatchFrame kind source payload (countReceived s) := by
  obtain ⟨h1, h2⟩ := h
  simp [arrive, h1, h2]

/-! ### The arbiter -/

/-- Beginning to place a frame keeps what the arbiter holds, in the order of placing (R165). -/
@[simp] theorem heldFrames_startPlacing (h : Hli) : heldFrames (startPlacing h) = heldFrames h := by
  unfold startPlacing heldFrames
  split
  · rename_i hc
    have hp : h.placing = none := by simp at hc; exact hc.2
    rw [hp]
    repeat' split
    all_goals simp_all
  · rfl

/-- A free arbiter whose link is UP places the first frame it holds (R165). -/
theorem placing_startPlacing (h : Hli) (hl : h.linkUp = true) :
    (startPlacing h).placing = (heldFrames h).head? := by
  unfold startPlacing heldFrames
  cases hp : h.placing with
  | some f => simp [hp]
  | none =>
    simp only [hl, Option.isNone_none, Bool.and_self, if_true, Option.toList_none, List.nil_append]
    cases h.class1 <;> cases h.class2 <;> cases h.class3 <;> simp_all

/-- A reply or an ATTENTION joins the tail of all that the arbiter holds (Table 8-4). -/
theorem heldFrames_enqueue_class3 {f : EgressFrame} (h : Hli) (hf : f.origin = .reply ∨ f.origin = .attention) :
    heldFrames (enqueue f h) = heldFrames h ++ [f] := by
  obtain hf | hf := hf <;> simp [enqueue, hf, heldFrames]

/-- A frame handed over while the link is UP is held (R165). -/
theorem mem_heldFrames_handOver {f g : EgressFrame} (hl : s.hli.linkUp = true) :
    g ∈ heldFrames (handOver f s).hli ↔ g = f ∨ g ∈ heldFrames s.hli := by
  simp only [handOver, hl, if_true, State.withHli_hli, heldFrames_startPlacing]
  unfold enqueue heldFrames
  split <;> simp <;> tauto

/-! ### Events -/

/-- Taking one event (R171, R172, R175). -/
theorem raiseEvent_evq (k : EventKind) (n : Nat) (r : Option (BitVec 16)) (d : Nat) (s : State) :
    (raiseEvent k n r d s).evq =
      if s.evq.enables.getLsbD k.code then
        if s.evq.queue.length < Config.eventCapacity then
          { s.evq with queue := s.evq.queue ++ [⟨k, s.mge.hubTime, n, r, d⟩] }
        else { s.evq with overflow := true, drops := satAdd s.evq.drops 1 }
      else s.evq := by
  have hd : ∀ (f : EgressFrame) (u : State), (f.origin = .attention) → (handOverSpare f u).evq = u.evq := by
    intro f u hf
    unfold handOverSpare handOver discardFrame countDiscard State.putLinkCounters
    simp only [hf, tellSender]
    split
    · split <;> rfl
    · rfl
  simp only [raiseEvent]
  split
  · split
    · split
      · simp only [sendAttention]
        split
        · rfl
        · rw [hd _ _ rfl]; rfl
      · rfl
    · rfl
  · rfl

theorem EventsTaken.nil : EventsTaken [] s s := by simp [EventsTaken]

/-- One event raised. -/
theorem EventsTaken.raise (k : EventKind) (n : Nat) (r : Option (BitVec 16)) (d : Nat) (s : State) :
    EventsTaken [⟨k, s.mge.hubTime, n, r, d⟩] s (raiseEvent k n r d s) := by
  unfold EventsTaken
  rw [raiseEvent_evq]
  by_cases he : s.evq.enables.getLsbD k.code = true
  · by_cases hq : s.evq.queue.length < Config.eventCapacity
    · obtain ⟨m, hm⟩ : ∃ m, Config.eventCapacity - s.evq.queue.length = m + 1 :=
        Nat.exists_eq_succ_of_ne_zero (by omega)
      simp [he, hq, hm]
    · have h0 : Config.eventCapacity - s.evq.queue.length = 0 := by omega
      simp [he, hq, h0, satAdd]
  · simp [he]

/-- Events raised one after the other. -/
theorem EventsTaken.append {xs ys : List EventRecord} (h1 : EventsTaken xs s t) (h2 : EventsTaken ys t u)
    (he : t.evq.enables = s.evq.enables) : EventsTaken (xs ++ ys) s u := by
  unfold EventsTaken at *
  rw [he] at h2
  simp only [List.filter_append, List.length_append]
  generalize (xs.filter fun e => s.evq.enables.getLsbD e.kind.code) = as at *
  generalize (ys.filter fun e => s.evq.enables.getLsbD e.kind.code) = bs at *
  obtain ⟨q1, o1, d1⟩ := h1
  obtain ⟨q2, o2, d2⟩ := h2
  have hl : Config.eventCapacity - t.evq.queue.length = Config.eventCapacity - s.evq.queue.length - as.length := by
    rw [q1]; simp; omega
  rw [hl] at q2 o2 d2
  generalize hr : Config.eventCapacity - s.evq.queue.length = room at *
  refine ⟨?_, ?_, ?_⟩
  · rw [q2, q1, List.take_append, List.append_assoc]
  · rw [o2, o1, Bool.or_assoc]
    congr 1
    by_cases hx : room < as.length <;> simp [hx] <;> omega
  · rw [d2, d1]
    by_cases hx : as.length ≤ room <;> by_cases hy : bs.length ≤ room - as.length <;>
      by_cases hz : as.length + bs.length ≤ room <;> simp [hx, hy, hz] <;> omega

/-! ### The mix point -/

/-- What follows SIU's work at a mix point leaves the Source Table and everything else but these parts (R30, R48, R83). -/
theorem runMix_keeps (before : State) : KeepsAllBut
    [.choices, .programs, .zones, .tours, .receivers, .bays, .events, .sender, .egress] s (runMix before s) := by
  refine rackSender_keeps (forEach_keeps (fun x u k => ?_) (useChoice_keeps (emitPrograms_keeps
    (withMxr_keeps .refl (by decide)) (by decide) (by decide)) (by decide))) (by decide) (by decide) (by decide)
  cases x with
  | window slot => exact tickWindow_keeps k (by decide) (by decide) (by decide) (by decide)
  | timers slot =>
    exact tickTour_keeps k (by decide) (by decide) (by decide) (by decide) (by decide) (by decide) (by decide)

/-- The Source Table after a mix point is the one that SIU's work leaves (R30). -/
theorem mixPoint_source (s : State) (i : Fin 48) : (mixPoint s).source i = (takeSources (reachMix s)).source i :=
  congrArg (fun x => x.sources.get i) (runMix_keeps (reachMix s) (s := takeSources (reachMix s)) .sources (by decide))

end Sys2Proof.Machine
end

