-- ==== Sys2Proof/Tests/Slice0.lean ====
section
/-! SUPPORT. The row's own tests: ill-formed commands, worked examples of the manual, and one witness for the hypotheses of
each statement. -/

namespace Sys2Proof.Tests

open Sys2Proof Sys2Proof.Machine

set_option Elab.async false

/-! ### Helpers -/

/-- The state a command leaves, when it leaves one. -/
def after (o : Host.Outcome State Fault Refusal) : State :=
  match o with
  | .next s => s
  | .fault _ => State.reset
  | .refused _ => State.reset

/-- A management request of a desk station. -/
def request (code : Nat) (args : List Byte) : Request := ⟨0x0001#16, [0#8, 7#8, BitVec.ofNat 8 code] ++ args⟩

/-- The state with that request in service. -/
def asking (code : Nat) (args : List Byte) (s : State) : State :=
  s.withMge { s.mge with service := .taken (request code args) }

/-- Argument bytes of zeros. -/
def zeros (n : Nat) : List Byte := List.replicate n 0#8

/-- Right after reset, with the link UP. -/
def linked : State := State.reset.withHli { State.reset.hli with linkUp := true }

/-- The link UP and a frame of this origin being placed. -/
def placing (o : Origin) : State := linked.withHli { linked.hli with placing := some ⟨0x0101#16, o, [3#8]⟩ }

/-- A guide source of station 10h, stream 0, LIVE with last sequence 5 and last mark counter 1. -/
def guide : Source :=
  { config := ⟨0x0010#16, 0, .guide, 1200, 800, 50, 32768⟩
    live := { SourceLive.initial with phase := .live, lastSeq := some 5#16, lastMark := some 1#4 } }

/-- The program of a tour: the guide as its one VOICE member. -/
def spoken : Program :=
  { Program.reset with installed := some ⟨(Tab.fill 5 none).set 0 (some ⟨0, 32768, .voice⟩), 8192, 8192, 1024⟩ }

/-- A plan of one entry and two stops. -/
def plan : Plan :=
  ⟨0, (Tab.fill 4 none).set 0 (some ⟨1, 0, 2, none⟩), [⟨3, Tab.fill 4 none⟩, ⟨4, Tab.fill 4 none⟩], 60⟩

/-- The hall OPEN, with the guide and its program loaded and tour slot 0 PLANNED. -/
def planned : State :=
  (((linked.withMge { linked.mge with mode := .opened }).putSource 0 (some guide)).putProgram 0 spoken).putTour 0
    ⟨some plan, some .reset, { TourLive.reset with phase := .planned }⟩

/-- The live record of the tour once it runs: channel 0 in zone 3. -/
def runningLive : TourLive :=
  { TourLive.reset with
    phase := .live, run := 1#16, channels := (Tab.fill 4 none).set 0 (some 0), zone := some 3, timer := 7500
    asked := (Tab.fill 4 0).set 0 2 }

/-- The tour of slot 0 with this live record, its channel in these zones. -/
def running (l : TourLive) (zones : ZoneSet) : State :=
  (((planned.putTour 0 ⟨some plan, some .reset, l⟩).putChannel 0 ⟨.tour, some 0, zones, 0#16⟩).withZal
    { channels := (Tab.fill 24 Channel.reset).set 0 ⟨.tour, some 0, zones, 0#16⟩
      zones := Tab.ofFn fun z => ⟨if zones.getLsbD z.val then 1 else 0, []⟩ }).putProgram 0
    { spoken with owner := some (0, 0), binding := some 0 }

/-- The tour LIVE in zone 3. -/
def touring : State := running runningLive 8#12

/-- A live record in a window from zone 3 to zone 4 with one mix point left. -/
def windowLive : TourLive := { runningLive with stop := 1, zone := some 4, prevZone := some 3, window := some 1 }

/-- The tour in that window. -/
def inWindow : State := running windowLive 24#12

/-- Rack 0 enabled with station 101h and these live fields. -/
def racked (l : RackLive) : State :=
  linked.putRack 0 ⟨{ Rack.reset.config with enabled := true, station := 0x0101#16 }, l⟩

/-- Rack 0 ONLINE. -/
def online : State := racked { Rack.reset.live with phase := .online }

/-- A receiver with tag 1 in this state, in bay 3 or in none. -/
def receiver (phase : RxState) (bay : Option (Fin 288)) : Receiver :=
  ⟨1#24, phase, bay, some 50, false, false, none, none, none, none, 0⟩

/-- Rack 0 ONLINE with a receiver of tag 1 at handle 2 in bay 3. -/
def docked (r : Receiver) : State :=
  (online.putReceiver 2 (some r)).putBay 3 { Bay.reset with presence := .known 2, docked := true, level := some 50 }

@[simp] theorem reset_source (i : Fin 48) : State.reset.source i = none := by
  simp [State.source, State.reset, State.atReset]
@[simp] theorem reset_receiver (h : Fin 384) : State.reset.receiver h = none := by
  simp [State.receiver, State.reset, State.atReset]
@[simp] theorem reset_bay (a : Fin 288) : State.reset.bay a = .reset := by simp [State.bay, State.reset, State.atReset]
@[simp] theorem reset_rack (r : Fin 12) : State.reset.rack r = .reset := by
  simp [State.rack, State.reset, State.atReset]
@[simp] theorem reset_sched (r : Fin 12) : State.reset.sched r = .reset := by
  simp [State.sched, State.reset, State.atReset]
@[simp] theorem reset_tour (k : Fin 16) : State.reset.tour k = .reset := by
  simp [State.tour, State.reset, State.atReset]
@[simp] theorem linked_source (i : Fin 48) : linked.source i = none := reset_source i
@[simp] theorem linked_receiver (h : Fin 384) : linked.receiver h = none := reset_receiver h
@[simp] theorem linked_bay (a : Fin 288) : linked.bay a = .reset := reset_bay a
@[simp] theorem linked_rack (r : Fin 12) : linked.rack r = .reset := reset_rack r
@[simp] theorem linked_sched (r : Fin 12) : linked.sched r = .reset := reset_sched r
@[simp] theorem linked_tour (k : Fin 16) : linked.tour k = .reset := reset_tour k
@[simp] theorem online_rack (r : Fin 12) : online.rack r = if r = 0
    then ⟨{ Rack.reset.config with enabled := true, station := 0x0101#16 }, { Rack.reset.live with phase := .online }⟩
    else .reset := by
  simp [online, racked, State.putRack_rack]
@[simp] theorem online_bay (a : Fin 288) : online.bay a = .reset := reset_bay a
@[simp] theorem online_receiver (h : Fin 384) : online.receiver h = none := reset_receiver h
@[simp] theorem online_sched (r : Fin 12) : online.sched r = .reset := reset_sched r

/-! ### Ill-formed commands, and no table word -/

theorem test_audioUp_of_other_kind_refused : (Instr.audioUp [0#8, 0#8, 0#8, 0#8, 0x11#8]).wellFormed = false := by
  decide
theorem test_bayStatus_of_other_kind_refused : (Instr.bayStatus [0#8, 0#8, 0#8, 0#8, 0x12#8]).wellFormed = false := by
  decide
theorem test_dockNotice_of_other_kind_refused : (Instr.dockNotice [0#8, 0#8, 0#8, 0#8, 0x20#8]).wellFormed = false := by
  decide
theorem test_mgmtRequest_without_kind_refused : (Instr.mgmtRequest [0#8, 0#8, 0#8, 0#8]).wellFormed = false := by
  decide
theorem test_audioUp_of_its_kind_wellFormed : (Instr.audioUp [0#8, 0#8, 0#8, 0#8, 0x01#8]).wellFormed = true := by
  decide
theorem test_no_table_word : decodeTableWord 8 0 = none := by decide

/-! ### Worked examples of the manual -/

/-- R160: the nine bytes "123456789" give CBF43926h. -/
theorem test_crc : crc [0x31#8, 0x32#8, 0x33#8, 0x34#8, 0x35#8, 0x36#8, 0x37#8, 0x38#8, 0x39#8] = 0xCBF43926#32 := by
  decide +kernel

/-- Table 1-3: halving of single samples. -/
theorem test_halved : (halveFrame ⟨[32767#16, 1#16, 0xFFFF#16, 0x8000#16] ++ List.replicate 60 0#16, rfl⟩).items.take 4 =
    [16383#16, 0#16, 0xFFFF#16, 0xC000#16] := by decide

/-- R15: the magnitude of -32768 is 32768. -/
theorem test_level_of_least_sample : frameLevel ((Tab.fill 64 0#16).set 5 0x8000#16) = 32768 := by
  decide +kernel

/-- R37: values beyond the sample range saturate. -/
theorem test_saturates : saturate 32768 = 32767 ∧ saturate (-32769) = -32768 ∧ saturate (-32768) = -32768 := by decide

/-- Table 6-4 and R129: voltages of the default curve, at its points and between them. -/
theorem test_levels : levelOf defaultCurve 2999 = 0 ∧ levelOf defaultCurve 3450 = 5 ∧ levelOf defaultCurve 3650 = 30 ∧
    levelOf defaultCurve 4200 = 100 ∧ levelOf defaultCurve 5000 = 100 := by decide

/-- R140: a rack in band 5 stays there at 37 °C, falls to 4 at 36 and to 2 at 20; one in band 3 goes straight to 5 at 38. -/
theorem test_bands : bandFor defaultBandTable 37 (some 5) = 5 ∧ bandFor defaultBandTable 36 (some 5) = 4 ∧
    bandFor defaultBandTable 20 (some 5) = 2 ∧ bandFor defaultBandTable 38 (some 3) = 5 := by decide

/-- R16: with hang 1 the flag clears at the first quiet mix point. -/
theorem test_voice_clears : voiceUpdate guide.config { guide.live with voice := true, hangLeft := 1 } =
    { guide.live with voice := false, hangLeft := 0 } := by decide

/-! ### Single commands -/

theorem test_linkUp : (after (exec .linkUp State.reset)).hli.linkUp = true := by decide +kernel

theorem test_linkDown_counts : (after (exec .linkDown linked)).hli.counters.linkDowns = 1 := by decide +kernel

theorem test_enableClear_last_bit :
    (after (exec .enableClear (asking 0x3B [0xC0#8, 0#8, 0#8, 1#8] State.reset))).evq.enables = 0x3FFFFFFE#31 := by
  decide +kernel

theorem test_settings_clamped :
    (after (exec .setHallSettings (asking 0x45 [0#8, 101#8, 99#8, 0#8, 1#8] State.reset))).mge.settings =
      ⟨100, 100, 1, true⟩ := by decide +kernel

theorem test_setTime : (after (exec .setTime (asking 0x42 [0#8, 0#8, 1#8, 0#8] State.reset))).mge.hubTime = 256 := by
  decide +kernel

theorem test_window_rounded_up :
    ((after (exec .loadTourTiming (asking 0x19 [0#8, 15#8, 0#8, 0#8, 0#8, 0#8, 0#8, 0#8, 0#8, 0#8, 1#8] planned))).tour
      0).timing.map Timing.window = some 4 := by decide +kernel

theorem test_windowEnd_settles : ((after (exec (.windowEnd 0) inWindow)).tour 0).live.prevZone = none := by
  decide +kernel

theorem test_stageGain_writes :
    ((after (exec .stageGain (asking 0x09 [0#8, 4#8, 0x80#8, 0#8] planned))).program 0).staged.get 4 = some 32768 := by
  decide +kernel

/-! ### Witnesses: states and operands that meet the hypotheses of each statement -/

theorem witness_StepTakesFrontCommand : State.reset.pending = [] := rfl

theorem witness_CommandsChangeOnlyTheirParts : ∃ t, Instr.linkUp.wellFormed = true ∧ exec .linkUp State.reset = .next t :=
  ⟨_, rfl, rfl⟩

theorem witness_ZonesStayCounted : ZonesCounted touring ∧ ∃ t, step (touring.withPending [.linkUp]) = .next t := by
  refine ⟨?_, _, rfl⟩
  unfold ZonesCounted zoneLoad
  decide +kernel

/-- The parts of `ZonesPlaced` one by one, so that each is decided alone. -/
theorem placed_of {s : State} (counted : ∀ z, (s.zone z).carried = zoneLoad s z ∧ (s.zone z).carried ≤ 8)
    (held : ∀ slot e ch, (s.tour slot).live.channels.get e = some ch →
      (s.channel ch).phase = .tour ∧ (s.tour slot).live.zone.isSome = true ∧
      (∀ z : Fin 12, (s.channel ch).zones.getLsbD z.val =
        decide ((s.tour slot).live.zone = some z ∨ (s.tour slot).live.prevZone = some z)) ∧
      ∀ k e', (s.tour k).live.channels.get e' = some ch → k = slot ∧ e' = e)
    (waits : ∀ slot, (s.tour slot).live.target.isSome = true →
      (s.tour slot).live.prevZone = none ∧ (s.tour slot).live.target ≠ (s.tour slot).live.zone)
    (window : ∀ slot, ((s.tour slot).live.prevZone.isSome = true → (s.tour slot).live.prevZone ≠ (s.tour slot).live.zone) ∧
      (isRunning (s.tour slot) = true → (s.tour slot).live.zone.isSome = true))
    (idle : ∀ slot, isRunning (s.tour slot) = false → (∀ e, (s.tour slot).live.channels.get e = none) ∧
      (s.tour slot).live.target = none ∧ (s.tour slot).live.prevZone = none)
    (free : ∀ ch, (s.channel ch).phase = .free → (s.channel ch).program = none ∧ (s.channel ch).zones = 0#12)
    (queued : ∀ z w, w ∈ (s.zone z).queue → (s.tour w.slot).live.target = some z ∧
      (s.tour w.slot).live.zone.isSome = true ∧ tourNeed (s.tour w.slot).live ≤ w.need) : ZonesPlaced s :=
  ⟨fun z => (counted z).1, fun z => (counted z).2,
    fun slot => ⟨held slot, waits slot, (window slot).1, (window slot).2, idle slot⟩, free, queued⟩

theorem placed_touring : ZonesPlaced touring := by
  refine placed_of ?_ ?_ ?_ ?_ ?_ ?_ ?_ <;> decide +kernel

theorem placed_inWindow : ZonesPlaced inWindow := by
  refine placed_of ?_ ?_ ?_ ?_ ?_ ?_ ?_ <;> decide +kernel

theorem placed_planned : ZonesPlaced planned := by
  refine placed_of ?_ ?_ ?_ ?_ ?_ ?_ ?_ <;> decide +kernel

theorem witness_ZonesNeverOverfull :
    ZonesPlaced (touring.withPending [.linkUp]) ∧ ∃ t, step (touring.withPending [.linkUp]) = .next t :=
  ⟨placed_touring, _, rfl⟩

theorem witness_QueuesStayBounded :
    QueuesBounded (linked.withPending [.linkDown]) ∧ ∃ t, step (linked.withPending [.linkDown]) = .next t := by
  refine ⟨⟨by decide, by decide, by decide, ?_, ?_, ?_⟩, _, rfl⟩ <;> intro f hf <;> cases hf

theorem witness_ArbiterStaysSettled :
    ArbiterSettled ((placing .reply).withPending [.framePlaced]) ∧
    ∃ t, step ((placing .reply).withPending [.framePlaced]) = .next t :=
  ⟨⟨fun h => (nomatch h), fun h => (nomatch h)⟩, _, rfl⟩

/-- Bay 5 in its dock settle. -/
def settling : State :=
  State.reset.putBay 5 { Bay.reset with presence := .foreign 9#24, settle := .dock, settleEnds := some 1500 }

theorem bays_settled_settling : BaysSettled (settling.withPending [.dockSettleExpiry 5]) := by
  refine fun a => ?_
  show _ ∧ ((settling.bay a).settleEnds.isSome = true ↔ _)
  change ((settling.bay a).presence = .empty → _) ∧ _
  by_cases h : a = 5
  · subst h; simp [settling, State.withPending, State.bay, State.putBay, State.withRpl]
  · have : settling.bay a = Bay.reset := by simp [settling, State.putBay_bay, h]
    have : (settling.withPending [.dockSettleExpiry 5]).bay a = Bay.reset := this
    simp_all [Bay.reset]

/-- Rack 0 ONLINE and this one receiver record, at handle 2. -/
def away (r : Receiver) : State := online.putReceiver 2 (some r)

theorem away_receiver (r : Receiver) (h : Fin 384) : (away r).receiver h = if h = 2 then some r else none := by
  rw [away, State.putReceiver_receiver]; simp

theorem away_only (r : Receiver) (h : Fin 384) (r' : Receiver) (hr : (away r).receiver h = some r') : h = 2 := by
  rw [away_receiver] at hr
  by_contra e
  simp [e] at hr

/-- The receiver of tag 1 DOCKED in bay 40, which is KNOWN with it and READY. -/
def elsewhere : State :=
  (away (receiver .docked (some 40))).putBay 40
    { Bay.reset with presence := .known 2, docked := true, level := some 50, ready := true }

theorem paired_elsewhere : FleetPaired elsewhere := by
  have hb (a : Fin 288) : elsewhere.bay a = if a = 40 then
      { Bay.reset with presence := .known 2, docked := true, level := some 50, ready := true } else .reset := by
    rw [elsewhere, State.putBay_bay]
    split
    · rfl
    · exact online_bay a
  have hr (h : Fin 384) : elsewhere.receiver h = if h = 2 then some (receiver .docked (some 40)) else none :=
    away_receiver _ h
  refine ⟨fun h h' r r' e e' _ => ?_, fun h r a e ea => ?_, fun a h e => ?_, fun h r e => ?_⟩
  · exact (away_only _ h r e).trans (away_only _ h' r' e').symm
  · have e2 := away_only _ h r e
    subst e2
    rw [hr] at e
    cases e
    cases ea
    simp [hb]
  · rw [hb] at e
    split at e
    · rename_i ea
      cases e
      subst ea
      exact ⟨_, (hr 2).trans (if_pos rfl), rfl⟩
    · cases e
  · have e2 := away_only _ h r e
    subst e2
    rw [hr] at e
    cases e
    exact ⟨by simp [ReceiverSettled, receiver], fun _ x => nomatch x⟩

theorem witness_BaysStaySettled : BaysSettled (settling.withPending [.dockSettleExpiry 5]) ∧
    (∃ t, step (settling.withPending [.dockSettleExpiry 5]) = .next t) ∧
    FleetPaired (elsewhere.withPending [.linkDown]) ∧ ∃ t, step (elsewhere.withPending [.linkDown]) = .next t :=
  ⟨bays_settled_settling, ⟨_, rfl⟩, paired_elsewhere, _, rfl⟩

/-- Rack 0 in band 3 with one active turn. -/
def charging : State :=
  online.putSched 0 { Sched.reset with band := some 3, capacity := 6, active := [⟨0, 300000⟩], cadenceEnds := some 60000 }

theorem witness_ChargeStaysBounded :
    ChargeBounded (charging.withPending [.turnExpiry 0 0]) ∧ ∃ t, step (charging.withPending [.turnExpiry 0 0]) = .next t := by
  refine ⟨fun r => ?_, _, rfl⟩
  by_cases h : r = 0
  · subst h
    refine ⟨by decide +kernel, by decide +kernel, fun e _ => ?_⟩
    have : (charging.withPending [.turnExpiry 0 0]).sched 0 = { Sched.reset with
        band := some 3, capacity := 6, active := [⟨0, 300000⟩], cadenceEnds := some 60000 } := by decide +kernel
    simp [this, Sched.reset]
  · have hs : (charging.withPending [.turnExpiry 0 0]).sched r = Sched.reset := by
      change charging.sched r = _
      simp [charging, State.putSched_sched, h]
    simp [hs, capacityOf, bandEntry, Sched.reset]

theorem witness_LinkDownDiscardsHeldFrames :
    State.reset.hli.linkUp = false ∧ (placing (.poll 0 3 true)).hli.linkUp = true ∧
    (placing (.poll 0 3 true)).hli.counters.discards ≤ 4294967295 ∧
    (∀ r b, ((placing (.poll 0 3 true)).rack r).live.phase = .online →
      ((placing (.poll 0 3 true)).bay (bayAddress r b)).pending = false) ∧
    (∃ f ∈ heldFrames (placing (.poll 0 3 true)).hli, f.origin = .poll 0 3 true) ∧
    ∀ b, ∀ f ∈ heldFrames (placing (.poll 0 3 true)).hli, f.origin ≠ .poll 1 b true := by
  refine ⟨rfl, rfl, by decide, fun r b h => ?_, ⟨_, List.mem_cons_self, rfl⟩, by decide⟩
  change (linked.rack r).live.phase = .online at h
  simp [Rack.reset] at h

/-- A frame with these flags and kind, addressed to the hub at strap 0, with a right CRC. -/
def flagged (flags kind : Byte) : List Byte :=
  let body := [0x0F#8, 0#8, 0#8, 1#8, kind, flags, 0#8, 0#8]
  body ++ crcBytes (crc body)

theorem witness_ArrivingFrameChecked : linked.hli.linkUp = true ∧
    (zeros 11).length < 12 ∧
    ((zeros 13).length ≠ 12 + wordAt (zeros 13) 6) ∧
    ((zeros 12).length = 12 + wordAt (zeros 12) 6 ∧ (zeros 12).drop 8 ≠ crcBytes (crc ((zeros 12).take 8))) ∧
    (judgeFrame 0x0F00#16 (frameBytes 0x0F01#16 1#16 0x01#8 []) = .dropped .notAddressed) ∧
    (judgeFrame 0x0F00#16 (flagged 0x20#8 0x01#8) = .dropped .version) ∧
    (judgeFrame 0x0F00#16 (flagged 0x1F#8 0x02#8) = .dropped .kind) ∧
    (judgeFrame 0x0F00#16 (flagged 0x1F#8 0x20#8) = .accepted .mgmtRequest 1#16 []) := by
  decide +kernel

theorem witness_EnvelopeRoundTrip : (zeros 1400).length ≤ 1400 ∧ (0x0FF0#16 : Station) = 0x0FF0#16 := by
  exact ⟨by simp only [zeros, List.length_replicate, Nat.le_refl], rfl⟩

theorem witness_PlacedFrameLeavesArbiter :
    (placing (.program 23)).hli.placing = some ⟨0x0101#16, .program 23, [3#8]⟩ ∧ (placing (.program 23)).hli.linkUp = true ∧
    (placing .reply).hli.placing = some ⟨0x0101#16, .reply, [3#8]⟩ ∧
    (placing .attention).hli.placing = some ⟨0x0101#16, .attention, [3#8]⟩ ∧
    (placing (.poll 11 23 true)).hli.placing = some ⟨0x0101#16, .poll 11 23 true, [3#8]⟩ ∧
    (placing (.poll 0 0 false)).hli.placing = some ⟨0x0101#16, .poll 0 0 false, [3#8]⟩ := ⟨rfl, rfl, rfl, rfl, rfl, rfl⟩

/-- A BAY COMMAND being placed, rack 0 ONLINE and bay 23 of it pending. -/
def commanding : State :=
  ((placing .bayCommand).putRack 0 (online.rack 0)).putBay 23 { Bay.reset with pending := true }

theorem witness_BayCommandPlacedBuildsNext :
    (∀ r b, ((placing .bayCommand).rack r).live.phase = .online →
      ((placing .bayCommand).bay (bayAddress r b)).pending = false) ∧
    (commanding.rack 0).live.phase = .online ∧ (commanding.bay (bayAddress 0 23)).pending = true ∧
    ∀ r b, (commanding.bay (bayAddress r b)).pending = true → r = 0 ∧ b = 23 := by
  refine ⟨fun r b h => ?_, by decide +kernel, by decide +kernel, fun r b h => ?_⟩
  · change (linked.rack r).live.phase = .online at h
    simp [Rack.reset] at h
  · have hb : commanding.bay (bayAddress r b) =
        if bayAddress r b = 23 then { Bay.reset with pending := true } else linked.bay (bayAddress r b) :=
      State.putBay_bay _ _ _ _
    rw [hb] at h
    by_cases e : bayAddress r b = 23
    · have := congrArg Fin.val e
      simp only [bayAddress] at this
      constructor <;> apply Fin.ext <;> simp_all <;> omega
    · simp [e, Bay.reset] at h

/-- An AUDIO UP payload of stream 0 with this mark counter and sequence. -/
def audio (mark : Byte) (seq : Nat) : List Byte := [0#8, mark] ++ enc16 seq ++ zeros 128

/-- That frame from the guide's station. -/
def audioFrame (payload : List Byte) : List Byte := frameBytes 0x0F00#16 0x0010#16 0x01#8 payload

theorem touring_source (j : Fin 48) (r : Source) (h : touring.source j = some r) : j = 0 := by
  have hs : touring.source j = if j = 0 then some guide else State.reset.source j := State.putSource_source _ _ _ _
  by_cases e : j = 0
  · exact e
  · simp [hs, e] at h

set_option maxRecDepth 100000 in
theorem witness_AudioFrameJudged :
    Arrives linked (audioFrame []) .audioUp 0x0010#16 [] ∧
    Arrives touring (audioFrame [3#8]) .audioUp 0x0010#16 [3#8] ∧
    Arrives touring (audioFrame [0#8]) .audioUp 0x0010#16 [0#8] ∧
    Arrives touring (audioFrame (audio 1#8 5)) .audioUp 0x0010#16 (audio 1#8 5) ∧
    Arrives touring (audioFrame (audio 1#8 32773)) .audioUp 0x0010#16 (audio 1#8 32773) ∧
    Arrives touring (audioFrame (audio 1#8 32772)) .audioUp 0x0010#16 (audio 1#8 32772) ∧
    (audio 1#8 32772).length = 132 ∧ touring.source 0 = some guide ∧
    (BitVec.ofNat 16 (wordAt (audio 1#8 32773) 2) - 5#16).toNat = 32768 ∧
    (BitVec.ofNat 16 (wordAt (audio 1#8 32772) 2) - 5#16).toNat = 32767 ∧
    ∀ j r, touring.source j = some r → j = 0 := by
  refine ⟨⟨rfl, ?_⟩, ⟨rfl, ?_⟩, ⟨rfl, ?_⟩, ⟨rfl, ?_⟩, ⟨rfl, ?_⟩, ⟨rfl, ?_⟩, by decide, by decide +kernel,
    by decide +kernel, by decide +kernel, touring_source⟩ <;> decide +kernel

set_option maxRecDepth 100000 in
theorem witness_MarkAdvanceTaken :
    Arrives planned (audioFrame (audio 3#8 6)) .audioUp 0x0010#16 (audio 3#8 6) ∧
    Arrives touring (audioFrame (audio 1#8 6)) .audioUp 0x0010#16 (audio 1#8 6) ∧
    Arrives touring (audioFrame (audio 3#8 6)) .audioUp 0x0010#16 (audio 3#8 6) ∧
    Arrives inWindow (audioFrame (audio 0#8 6)) .audioUp 0x0010#16 (audio 0#8 6) ∧
    guide.live.phase = .live ∧ guide.live.lastMark = some 1#4 ∧ guide.config.kind = .guide ∧
    (∀ k, (planned.tour k).live.phase ≠ .live) ∧ (touring.tour 0).live.phase = .live ∧
    (∀ k, (touring.tour k).live.phase = .live → k = 0) ∧ (touring.tour 0).plan = some plan ∧ plan.guide = 0 ∧
    (touring.tour 0).live.stop < plan.route.length - 1 ∧ plan.route.length - 1 ≤ (inWindow.tour 0).live.stop := by
  refine ⟨⟨rfl, ?_⟩, ⟨rfl, ?_⟩, ⟨rfl, ?_⟩, ⟨rfl, ?_⟩, ?_⟩ <;> decide +kernel

/-- Tour slots 0 and 1 LIVE on channels 0 and 1 with these live records, zone sets and wait queues, and this timing;
the guide of slot 1 is source 1. -/
def pair (l m : TourLive) (zl zm : ZoneSet) (time : Timing) (q : Fin 12 → List Waiter) : State :=
  (((running l zl).putTour 0 ⟨some plan, some time, l⟩).putTour 1 ⟨some { plan with guide := 1 }, some time, m⟩).withZal
    { channels := ((Tab.fill 24 Channel.reset).set 0 ⟨.tour, some 0, zl, 0#16⟩).set 1 ⟨.tour, some 1, zm, 0#16⟩
      zones := Tab.ofFn fun z =>
        ⟨(if zl.getLsbD z.val then 1 else 0) + if zm.getLsbD z.val then 1 else 0, q z⟩ }

/-- The second tour in zone 6, waiting for this zone. -/
def waitingLive (z : Fin 12) : TourLive :=
  { runningLive with channels := (Tab.fill 4 none).set 0 (some 1), zone := some 6, target := some z }

/-- This queue at one zone and none elsewhere. -/
def queueAt (z : Fin 12) (ws : List Waiter) (y : Fin 12) : List Waiter := if y = z then ws else []

/-- Slot 0 in a window from zone 5 to zone 3, slot 1 waiting for zone 5. -/
def cutting : State :=
  pair { runningLive with prevZone := some 5, window := some 9 } (waitingLive 5) 0x28#12 0x40#12 .reset
    (queueAt 5 [⟨1, 1⟩])

/-- Slot 0 in zone 3 at the head of the queue of zone 5, slot 1 behind it. -/
def leaving : State :=
  pair { runningLive with target := some 5 } (waitingLive 5) 8#12 0x40#12 .reset (queueAt 5 [⟨0, 1⟩, ⟨1, 1⟩])

/-- Slot 0 in zone 3 with a window of 0, slot 1 waiting for zone 3 with more channels than fit. -/
def jumping : State :=
  pair runningLive (waitingLive 3) 8#12 0x40#12 { Timing.reset with window := 0 } (queueAt 3 [⟨1, 9⟩])

/-- Slot 0 in zone 3 waiting for zone 4 in silence stage 2, slot 1 before it there. -/
def queued : State :=
  pair { runningLive with target := some 4, stage := 2 } (waitingLive 4) 8#12 0x40#12 .reset
    (queueAt 4 [⟨1, 9⟩, ⟨0, 1⟩])

/-- Slot 0 in a window from zone 3 to zone 4 with this many mix points left, slot 1 with this need waiting for zone 3. -/
def ending (w need : Nat) (time : Timing) : State :=
  pair { windowLive with window := some w } (waitingLive 3) 24#12 0x40#12 time (queueAt 3 [⟨1, need⟩])

theorem placed_cutting : ZonesPlaced cutting := by
  refine placed_of ?_ ?_ ?_ ?_ ?_ ?_ ?_ <;> decide +kernel

theorem placed_leaving : ZonesPlaced leaving := by
  refine placed_of ?_ ?_ ?_ ?_ ?_ ?_ ?_ <;> decide +kernel

theorem placed_jumping : ZonesPlaced jumping := by
  refine placed_of ?_ ?_ ?_ ?_ ?_ ?_ ?_ <;> decide +kernel

theorem placed_queued : ZonesPlaced queued := by
  refine placed_of ?_ ?_ ?_ ?_ ?_ ?_ ?_ <;> decide +kernel

theorem placed_ending (w need : Nat) (hw : w = 1 ∨ w = 2) (hn : need = 1 ∨ need = 9) :
    ZonesPlaced (ending w need .reset) := by
  rcases hw with rfl | rfl <;> rcases hn with rfl | rfl <;> refine placed_of ?_ ?_ ?_ ?_ ?_ ?_ ?_ <;> decide +kernel

theorem placed_ending_jump : ZonesPlaced (ending 1 1 { Timing.reset with window := 0 }) := by
  refine placed_of ?_ ?_ ?_ ?_ ?_ ?_ ?_ <;> decide +kernel

set_option maxRecDepth 100000 in
theorem witness_MarkAdvanceTaken_zones :
    (∀ s ∈ [cutting, leaving, jumping, queued], s.hli.linkUp = true ∧
      judgeFrame s.hli.station (audioFrame (audio 2#8 6)) = .accepted .audioUp 0x0010#16 (audio 2#8 6) ∧
      s.source 0 = some guide ∧ (∀ k, (s.tour k).live.phase = .live → k = 0 ∨ k = 1) ∧
      (s.tour 0).plan = some plan ∧ (s.tour 1).plan.map Plan.guide = some 1 ∧ (s.tour 0).live.zone = some 3 ∧
      plan.route[1]? = some ⟨4, Tab.fill 4 none⟩) ∧
    ZonesPlaced cutting ∧ ZonesPlaced leaving ∧ ZonesPlaced jumping ∧ ZonesPlaced queued ∧
    (cutting.tour 0).live.prevZone = some 5 ∧ (cutting.zone 5).queue.head? = some ⟨1, 1⟩ ∧
    (leaving.tour 0).live.target = some 5 ∧ (timingOf (jumping.tour 0)).window / 4 = 0 ∧
    (jumping.zone 3).queue.head? = some ⟨1, 9⟩ ∧ (queued.tour 0).live.stage = 2 := by
  refine ⟨by decide +kernel, placed_cutting, placed_leaving, placed_jumping, placed_queued, ?_⟩
  decide +kernel

/-- A BAY STATUS payload of bay 3: a tag of 1 at 3600 mV, this fault byte and 20 °C. -/
def status (fault : Byte) : List Byte := [3#8, 1#8, 0#8, 0#8, 1#8, 0x0E#8, 0x10#8, fault, 0#8, 255#8, 0#8, 20#8]

/-- A frame of rack 0 with this kind code and payload. -/
def rackFrame (kind : Byte) (payload : List Byte) : List Byte := frameBytes 0x0F00#16 0x0101#16 kind payload

theorem frame_of_rack (l : RackLive) : FrameOfRack (racked l) 0x0101#16 0 := by
  have hr (r : Fin 12) : (racked l).rack r = if r = 0
      then ⟨{ Rack.reset.config with enabled := true, station := 0x0101#16 }, l⟩ else .reset := by
    rw [racked, State.putRack_rack]; simp
  refine ⟨⟨by simp [hr], by simp [hr]⟩, fun r h _ => ?_⟩
  by_cases e : r = 0
  · exact e
  · simp [hr, e, Rack.reset] at h

theorem status_shows : StatusShows (status 0#8) (some 1#24) ∧ StatusShows (status 2#8) (some 1#24) := by
  unfold StatusShows
  decide +kernel

/-- A BAY STATUS payload with this bay, presence, tag, reported mode, reported channel and lamp. -/
def statusOf (bay presence tag mode channel lamp : Byte) : List Byte :=
  [bay, presence, 0#8, 0#8, tag, 0x0E#8, 0x10#8, 0#8, mode, channel, lamp, 20#8]

theorem witness_ArrivingFrameChecked_rack_frames :
    (∀ p ∈ [zeros 11, zeros 13, zeros 12, statusOf 24#8 0#8 0#8 0#8 255#8 0#8, statusOf 23#8 2#8 0#8 0#8 255#8 0#8,
      statusOf 23#8 1#8 0#8 0#8 255#8 0#8, statusOf 23#8 0#8 0#8 3#8 255#8 0#8, statusOf 23#8 0#8 0#8 2#8 24#8 0#8,
      statusOf 23#8 0#8 0#8 2#8 23#8 2#8], judgeFrame online.hli.station (rackFrame 0x11#8 p) =
        .accepted .bayStatus 0x0101#16 p) ∧
    (∀ p ∈ [zeros 3, zeros 5, zeros 4, 24#8 :: zeros 3], judgeFrame online.hli.station (rackFrame 0x12#8 p) =
      .accepted .dockNotice 0x0101#16 p) ∧
    online.hli.linkUp = true ∧ FrameOfRack online 0x0101#16 0 ∧
    ∀ r, (linked.rack r).config.enabled = true → (linked.rack r).config.station ≠ 0x0101#16 := by
  refine ⟨by decide +kernel, by decide +kernel, rfl, frame_of_rack _, fun r h => ?_⟩
  simp [Rack.reset] at h

theorem witness_StatusAnswersPoll :
    (let l := { Rack.reset.live with phase := .offline, outstanding := some ⟨3, 20⟩, missRun := 255 }
     Arrives (racked l) (rackFrame 0x11#8 (status 0#8)) .bayStatus 0x0101#16 (status 0#8) ∧
     FrameOfRack (racked l) 0x0101#16 0 ∧ ((racked l).rack 0).live.outstanding.map Outstanding.bay = some 3) ∧
    (let l := { Rack.reset.live with phase := .online, timedOut := some 3 }
     Arrives (racked l) (rackFrame 0x11#8 (status 0#8)) .bayStatus 0x0101#16 (status 0#8) ∧
     FrameOfRack (racked l) 0x0101#16 0 ∧ ((racked l).rack 0).live.timedOut = some 3) ∧
    Arrives online (rackFrame 0x11#8 (status 0#8)) .bayStatus 0x0101#16 (status 0#8) ∧
    FrameOfRack online 0x0101#16 0 ∧ (online.rack 0).live.timedOut = none ∧
    StatusShows (status 0#8) (some 1#24) ∧ byteAt (status 0#8) 0 = 3 := by
  refine ⟨⟨⟨rfl, ?_⟩, frame_of_rack _, ?_⟩, ⟨⟨rfl, ?_⟩, frame_of_rack _, ?_⟩, ⟨rfl, ?_⟩, frame_of_rack _, ?_,
    status_shows.1, ?_⟩ <;> decide +kernel

/-- Rack 0 ONLINE and bay 3 FOREIGN with tag 1, outside any settle. -/
def foreign : State := online.putBay 3 { Bay.reset with presence := .foreign 1#24, docked := true }

/-- Rack 0 ONLINE and bay 3 KNOWN with a DOCKED receiver of tag 1, in this settle. -/
def settled (x : Settle) : State :=
  (away (receiver .docked (some 3))).putBay 3 { Bay.reset with
    presence := .known 2, docked := true, level := some 50, settle := x
    settleEnds := if x = .dock ∨ x = .turn then some 700 else none }

/-- That bay outside any settle, with an active turn in band 2. -/
def charged : State :=
  (settled .none).putSched 0 { Sched.reset with band := some 2, capacity := 6, active := [⟨3, 300000⟩] }

theorem witness_StatusReadingUsed :
    Arrives foreign (rackFrame 0x11#8 (status 0#8)) .bayStatus 0x0101#16 (status 0#8) ∧
    Arrives foreign (rackFrame 0x11#8 (status 1#8)) .bayStatus 0x0101#16 (status 1#8) ∧
    Arrives foreign (rackFrame 0x11#8 (status 2#8)) .bayStatus 0x0101#16 (status 2#8) ∧
    FrameOfRack foreign 0x0101#16 0 ∧ StatusShows (status 2#8) (some 1#24) ∧
    BayHolds foreign (bayAddress 0 3) 1#24 ∧ (foreign.bay (bayAddress 0 3)).settle = .none ∧
    (∀ x ∈ (foreign.sched 0).active, x.bay ≠ 3) ∧
    (∀ x, Arrives (settled x) (rackFrame 0x11#8 (status 1#8)) .bayStatus 0x0101#16 (status 1#8) ∧
      FrameOfRack (settled x) 0x0101#16 0 ∧ BayHolds (settled x) (bayAddress 0 3) 1#24 ∧
      ((settled x).bay (bayAddress 0 3)).settle = x ∧ ∀ y ∈ ((settled x).sched 0).active, y.bay ≠ 3) ∧
    Arrives charged (rackFrame 0x11#8 (status 0#8)) .bayStatus 0x0101#16 (status 0#8) ∧
    Arrives charged (rackFrame 0x11#8 (status 1#8)) .bayStatus 0x0101#16 (status 1#8) ∧
    FrameOfRack charged 0x0101#16 0 ∧ BayHolds charged (bayAddress 0 3) 1#24 ∧
    (charged.bay (bayAddress 0 3)).settle = .none ∧ (charged.sched 0).active = [⟨3, 300000⟩] ∧
    (charged.sched 0).band = some (bandFor charged.chs.table (max (-40) (min 125 (signedAt (status 0#8) 11)))
      (charged.sched 0).band) := by
  refine ⟨⟨rfl, ?_⟩, ⟨rfl, ?_⟩, ⟨rfl, ?_⟩, frame_of_rack _, status_shows.2, .inr ?_, ?_, ?_, fun x =>
    ⟨⟨rfl, ?_⟩, frame_of_rack _, .inl ⟨2, _, ?_, State.putReceiver_receiver_self _ _ _, rfl⟩, ?_, ?_⟩, ⟨rfl, ?_⟩,
    ⟨rfl, ?_⟩, frame_of_rack _, .inl ⟨2, _, ?_, State.putReceiver_receiver_self _ _ _, rfl⟩, ?_, ?_, ?_⟩
  case refine_7 => change judgeFrame 0x0F00#16 _ = _; decide +kernel
  case refine_8 => rw [settled]; exact congrArg Bay.presence (State.putBay_bay_self _ _ _)
  case refine_9 => rw [settled]; exact congrArg Bay.settle (State.putBay_bay_self _ _ _)
  case refine_10 => intro y hy; change y ∈ (online.sched 0).active at hy; simp [Sched.reset] at hy
  all_goals decide +kernel

theorem witness_LevelInterpolates :
    (∀ i j : Fin 8, i < j → (defaultCurve.get i).mv < (defaultCurve.get j).mv) ∧ 3000 ≤ (defaultCurve.get 0).mv ∧
    (defaultCurve.get 7).mv ≤ 4200 ∧ (defaultCurve.get 6).mv ≤ 4199 ∧ 4199 < (defaultCurve.get 7).mv ∧
    (defaultCurve.get 0).mv ≤ 3000 ∧ 3000 < (defaultCurve.get 1).mv := by decide

/-- A DOCK NOTICE payload of bay 3 with this tag byte. -/
def notice (tag : Byte) : List Byte := [3#8, 0#8, 0#8, tag]

/-- Rack 0 ONLINE, with auto-enrol ON. -/
def enrolling : State :=
  online.withMge { online.mge with settings := { online.mge.settings with autoEnrol := true } }

theorem witness_UnknownTagDocksForeign :
    Arrives online (rackFrame 0x12#8 (notice 1#8)) .dockNotice 0x0101#16 (notice 1#8) ∧
    FrameOfRack online 0x0101#16 0 ∧ tripleAt (notice 1#8) 1 = (1#24 : RxTag).toNat ∧
    (online.bay (bayAddress 0 3)).presence = .empty ∧ (∀ h r, online.receiver h = some r → r.tag ≠ 1#24) ∧
    online.mge.settings.autoEnrol = false ∧
    Arrives enrolling (rackFrame 0x12#8 (notice 1#8)) .dockNotice 0x0101#16 (notice 1#8) ∧
    FrameOfRack enrolling 0x0101#16 0 ∧ (enrolling.bay (bayAddress 0 3)).presence = .empty ∧
    enrolling.mge.settings.autoEnrol = true ∧ (∀ h, enrolling.receiver h = none) ∧ ∀ h : Fin 384, ¬ h < 0 := by
  refine ⟨⟨rfl, by decide +kernel⟩, frame_of_rack _, by decide, by simp [Bay.reset], ?_, rfl, ⟨rfl, by decide +kernel⟩,
    frame_of_rack _, congrArg Bay.presence (online_bay _), rfl, online_receiver, fun h => Nat.not_lt_zero _⟩
  intro h r hr
  simp at hr

theorem witness_KnownReceiverReturns_move : FleetPaired elsewhere ∧
    Arrives elsewhere (rackFrame 0x12#8 (notice 1#8)) .dockNotice 0x0101#16 (notice 1#8) ∧
    FrameOfRack elsewhere 0x0101#16 0 ∧ tripleAt (notice 1#8) 1 = (receiver .docked (some 40)).tag.toNat ∧
    (elsewhere.bay (bayAddress 0 3)).presence = .empty ∧
    elsewhere.receiver 2 = some (receiver .docked (some 40)) ∧
    ∀ x ∈ (elsewhere.sched (rackOf 40)).active, x.bay ≠ bayNumber 40 := by
  refine ⟨paired_elsewhere, ⟨rfl, by decide +kernel⟩, frame_of_rack _, rfl, ?_, State.putReceiver_receiver_self _ _ _,
    fun x hx => ?_⟩
  · decide +kernel
  · change x ∈ (online.sched _).active at hx
    simp [Sched.reset] at hx

theorem witness_KnownReceiverReturns : ∀ phase : RxState,
    Arrives (away (receiver phase none)) (rackFrame 0x12#8 (notice 1#8)) .dockNotice 0x0101#16 (notice 1#8) ∧
    FrameOfRack (away (receiver phase none)) 0x0101#16 0 ∧ tripleAt (notice 1#8) 1 = (receiver phase none).tag.toNat ∧
    ((away (receiver phase none)).bay (bayAddress 0 3)).presence = .empty ∧
    (away (receiver phase none)).receiver 2 = some (receiver phase none) ∧
    ∀ h r, (away (receiver phase none)).receiver h = some r → h = 2 := by
  intro phase
  refine ⟨⟨rfl, ?_⟩, frame_of_rack _, rfl, ?_, State.putReceiver_receiver_self _ _ _, away_only _⟩
  · change judgeFrame 0x0F00#16 _ = _; decide +kernel
  · change (online.bay _).presence = _; simp [Bay.reset]

/-- A receiver of tag 1 RESERVED in bay 3 for the first run of slot 0. -/
def reserved : Receiver :=
  { receiver .reserved (some 3) with tour := some ⟨0, 1#16, 0, 0⟩, required := some 60, short := true }

theorem witness_UndockIssuesOrStrays : ∀ r, r = receiver .docked (some 3) ∨ r = reserved →
    Arrives (docked r) (rackFrame 0x12#8 (notice 0#8)) .dockNotice 0x0101#16 (notice 0#8) ∧
    FrameOfRack (docked r) 0x0101#16 0 ∧ tripleAt (notice 0#8) 1 = 0 ∧
    ((docked r).bay (bayAddress 0 3)).presence = .known 2 ∧ (docked r).receiver 2 = some r ∧
    (r.phase = .docked ∨ (r.phase = .reserved ∧ r.tour.isSome = true)) ∧
    Arrives (docked r) (rackFrame 0x12#8 (notice 7#8)) .dockNotice 0x0101#16 (notice 7#8) ∧
    tripleAt (notice 7#8) 1 = 7 ∧ (∀ h' r', (docked r).receiver h' = some r' → r'.tag.toNat ≠ 7) ∧
    (docked r).mge.settings.autoEnrol = false := by
  intro r hr
  have tag : r.tag.toNat ≠ 7 := by rcases hr with rfl | rfl <;> decide
  refine ⟨⟨rfl, ?_⟩, frame_of_rack _, rfl, ?_, State.putReceiver_receiver_self _ _ _, ?_, ⟨rfl, ?_⟩, rfl,
    fun h' r' e => ?_, rfl⟩
  · change judgeFrame 0x0F00#16 _ = _; decide +kernel
  · change ((docked r).bay 3).presence = _; rw [docked, State.putBay_bay_self]
  · rcases hr with rfl | rfl
    · exact .inl rfl
    · exact .inr ⟨rfl, rfl⟩
  · change judgeFrame 0x0F00#16 _ = _; decide +kernel
  · have e2 : (away r).receiver h' = some r' := e
    rw [away_receiver] at e2
    split at e2
    · cases e2; exact tag
    · cases e2

/-- `n` requests waiting, and one in service. -/
def waiting (n : Nat) : State :=
  linked.withMge { linked.mge with
    requests := List.replicate n (request 0x43 []), service := .taken (request 0x43 []) }

/-- The same with `k` replies in class 3. -/
def crowded (n k : Nat) : State :=
  (waiting n).withHli { linked.hli with class3 := List.replicate k ⟨1#16, .reply, []⟩ }

theorem witness_RequestTakenOrBusy :
    Arrives linked (frameBytes 0x0F00#16 1#16 0x20#8 [9#8]) .mgmtRequest 1#16 [9#8] ∧
    linked.mge.requests.length < 4 ∧ linked.mge.service = .idle ∧
    (waiting 3).mge.requests.length < 4 ∧ (waiting 3).mge.service ≠ .idle ∧
    Arrives (crowded 4 6) (frameBytes 0x0F00#16 1#16 0x20#8 [9#8]) .mgmtRequest 1#16 [9#8] ∧
    4 ≤ (crowded 4 6).mge.requests.length ∧ class3Held (crowded 4 6).hli < 7 ∧ 7 ≤ class3Held (crowded 4 7).hli := by
  refine ⟨⟨rfl, ?_⟩, ?_, rfl, ?_, ?_, ⟨rfl, ?_⟩, ?_⟩ <;> decide +kernel

theorem witness_BadRequestAnswered :
    (asking 0x43 [] State.reset).mge.service = .taken (request 0x43 []) ∧ (request 0x43 []).payload.length = 3 ∧
    (asking 0x43 [0#8] State.reset).mge.service = .taken (request 0x43 [0#8]) ∧
    ((request 0x43 [0#8]).payload.drop 3).length ≠ 0 ∧ byteAt (request 0x18 (zeros 25)).payload 2 = 0x18 ∧
    ((request 0x18 (zeros 25)).payload.drop 3).length = 25 := ⟨rfl, rfl, rfl, by decide, rfl, rfl⟩

theorem witness_ServedReplyOfferedOrHeld :
    class3Held (crowded 0 7).hli < 8 ∧ (crowded 0 7).hli.linkUp = true ∧ State.reset.hli.linkUp = false ∧
    8 ≤ class3Held (crowded 0 8).hli ∧
    (linked.withMge { linked.mge with service := .held ⟨1#16, []⟩ }).mge.service = .held ⟨1#16, []⟩ := by
  decide +kernel

theorem witness_ReadsChangeNothing :
    Serving (asking 0x02 [47#8] State.reset) 0x02 (request 0x02 [47#8]) ∧
    Serving (asking 0x02 [48#8] State.reset) 0x02 (request 0x02 [48#8]) ∧
    Serving (asking 0x02 [0#8] planned) 0x02 (request 0x02 [0#8]) ∧ (asking 0x02 [0#8] planned).source 0 = some guide ∧
    Serving (asking 0x0B [31#8] State.reset) 0x0B (request 0x0B [31#8]) ∧
    Serving (asking 0x11 [23#8] State.reset) 0x11 (request 0x11 [23#8]) ∧
    Serving (asking 0x12 [11#8] State.reset) 0x12 (request 0x12 [11#8]) ∧
    Serving (asking 0x1B [15#8] State.reset) 0x1B (request 0x1B [15#8]) ∧
    Serving (asking 0x1B [0#8] planned) 0x1B (request 0x1B [0#8]) ∧
    ((asking 0x1B [0#8] planned).tour 0).plan = some plan ∧
    Serving (asking 0x22 [0#8, 0#8, 0#8, 2#8] (away reserved)) 0x22 (request 0x22 [0#8, 0#8, 0#8, 2#8]) ∧
    Serving (asking 0x22 [1#8, 0#8, 0#8, 1#8] (away reserved)) 0x22 (request 0x22 [1#8, 0#8, 0#8, 1#8]) ∧
    (away reserved).receiver 2 = some reserved ∧ (∀ h r, (away reserved).receiver h = some r → h = 2) ∧
    Serving (asking 0x29 [11#8] State.reset) 0x29 (request 0x29 [11#8]) ∧
    Serving (asking 0x2A [1#8, 31#8] State.reset) 0x2A (request 0x2A [1#8, 31#8]) ∧
    byteAt (requestArgs (request 0x2A [1#8, 31#8])) 1 = 31 ∧
    Serving (asking 0x31 [] State.reset) 0x31 (request 0x31 []) ∧
    Serving (asking 0x43 [] State.reset) 0x43 (request 0x43 []) ∧
    Serving (asking 0x44 [] State.reset) 0x44 (request 0x44 []) :=
  ⟨⟨rfl, rfl, rfl⟩, ⟨rfl, rfl, rfl⟩, ⟨rfl, rfl, rfl⟩, by decide +kernel, ⟨rfl, rfl, rfl⟩, ⟨rfl, rfl, rfl⟩, ⟨rfl, rfl, rfl⟩,
    ⟨rfl, rfl, rfl⟩, ⟨rfl, rfl, rfl⟩, by decide +kernel, ⟨rfl, rfl, rfl⟩, ⟨rfl, rfl, rfl⟩,
    State.putReceiver_receiver_self _ _ _, away_only _, ⟨rfl, rfl, rfl⟩, ⟨rfl, rfl, rfl⟩, rfl, ⟨rfl, rfl, rfl⟩,
    ⟨rfl, rfl, rfl⟩, ⟨rfl, rfl, rfl⟩⟩

theorem witness_ReadsChangeNothing_refusals :
    Serving (asking 0x22 [2#8, 0#8, 0#8, 2#8] (away reserved)) 0x22 (request 0x22 [2#8, 0#8, 0#8, 2#8]) ∧
    Serving (asking 0x22 [0#8, 0#8, 1#8, 128#8] (away reserved)) 0x22 (request 0x22 [0#8, 0#8, 1#8, 128#8]) ∧
    tripleAt (requestArgs (request 0x22 [0#8, 0#8, 1#8, 128#8])) 1 = 384 ∧
    Serving (asking 0x22 (1#8 :: zeros 3) (away reserved)) 0x22 (request 0x22 (1#8 :: zeros 3)) ∧
    Serving (asking 0x22 [0#8, 0#8, 1#8, 127#8] (away reserved)) 0x22 (request 0x22 [0#8, 0#8, 1#8, 127#8]) ∧
    (away reserved).receiver 383 = none ∧
    Serving (asking 0x22 [1#8, 0#8, 0#8, 9#8] (away reserved)) 0x22 (request 0x22 [1#8, 0#8, 0#8, 9#8]) ∧
    (∀ h r, (away reserved).receiver h = some r → r.tag.toNat ≠ 9) ∧
    Serving (asking 0x0B [32#8] planned) 0x0B (request 0x0B [32#8]) ∧
    Serving (asking 0x0B [0#8] planned) 0x0B (request 0x0B [0#8]) ∧ (planned.program 0).installed ≠ none ∧
    Serving (asking 0x11 [24#8] planned) 0x11 (request 0x11 [24#8]) ∧
    Serving (asking 0x12 [12#8] planned) 0x12 (request 0x12 [12#8]) ∧
    Serving (asking 0x1B [16#8] planned) 0x1B (request 0x1B [16#8]) ∧
    Serving (asking 0x29 [12#8] planned) 0x29 (request 0x29 [12#8]) ∧
    Serving (asking 0x2A [1#8, 32#8] planned) 0x2A (request 0x2A [1#8, 32#8]) ∧
    wordAt (requestArgs (request 0x2A [1#8, 32#8])) 0 = 288 := by
  refine ⟨⟨rfl, rfl, rfl⟩, ⟨rfl, rfl, rfl⟩, rfl, ⟨rfl, rfl, rfl⟩, ⟨rfl, rfl, rfl⟩, (away_receiver _ _).trans rfl,
    ⟨rfl, rfl, rfl⟩, fun h r e => ?_, ⟨rfl, rfl, rfl⟩, ⟨rfl, rfl, rfl⟩, by decide +kernel, ⟨rfl, rfl, rfl⟩,
    ⟨rfl, rfl, rfl⟩, ⟨rfl, rfl, rfl⟩, ⟨rfl, rfl, rfl⟩, ⟨rfl, rfl, rfl⟩, rfl⟩
  rw [away_receiver] at e
  split at e
  · cases e; decide
  · cases e

/-- LOAD SOURCE arguments for this id, station low byte, stream and kind. -/
def sourceArgs (id low stream kind : Byte) : List Byte := [0#8, id, 0#8, low, stream, kind] ++ zeros 7

theorem witness_LoadSourceApplies :
    Serving (asking 0x01 (sourceArgs 48#8 0#8 0#8 0#8) State.reset) 0x01 (request 0x01 (sourceArgs 48#8 0#8 0#8 0#8)) ∧
    Serving (asking 0x01 (sourceArgs 47#8 0#8 3#8 2#8) State.reset) 0x01 (request 0x01 (sourceArgs 47#8 0#8 3#8 2#8)) ∧
    Serving (asking 0x01 (sourceArgs 1#8 0x10#8 0#8 0#8) planned) 0x01 (request 0x01 (sourceArgs 1#8 0x10#8 0#8 0#8)) ∧
    guide.config.station = 0x0010#16 ∧ guide.config.stream = 0 ∧
    Serving (asking 0x01 (sourceArgs 0#8 0x11#8 0#8 0#8) touring) 0x01 (request 0x01 (sourceArgs 0#8 0x11#8 0#8 0#8)) ∧
    (touring.tour 0).live.phase = .live ∧ (touring.tour 0).plan = some plan ∧ plan.guide = 0 ∧
    Serving (asking 0x01 (sourceArgs 0#8 0x10#8 0#8 0#8) touring) 0x01 (request 0x01 (sourceArgs 0#8 0x10#8 0#8 0#8)) :=
  ⟨⟨rfl, rfl, rfl⟩, ⟨rfl, rfl, rfl⟩, ⟨rfl, rfl, rfl⟩, rfl, rfl, ⟨rfl, rfl, rfl⟩, by decide +kernel, by decide +kernel, rfl,
    ⟨rfl, rfl, rfl⟩⟩

/-- LOAD PROGRAM arguments: this program id, slot 0 as given, the other slots absent. -/
def programArgs (id present source : Byte) : List Byte := [7#8, id, present, source, 0x80#8, 0#8, 0#8] ++ zeros 26

theorem witness_LoadProgramPends :
    Serving (asking 0x08 (programArgs 32#8 0#8 0#8) State.reset) 0x08 (request 0x08 (programArgs 32#8 0#8 0#8)) ∧
    Serving (asking 0x08 (programArgs 31#8 1#8 48#8) State.reset) 0x08 (request 0x08 (programArgs 31#8 1#8 48#8)) ∧
    Serving (asking 0x08 (programArgs 31#8 1#8 47#8) State.reset) 0x08 (request 0x08 (programArgs 31#8 1#8 47#8)) ∧
    (State.reset.program 31).owner = none ∧
    Serving (asking 0x08 (programArgs 0#8 0#8 0#8) touring) 0x08 (request 0x08 (programArgs 0#8 0#8 0#8)) ∧
    (touring.program 0).owner.isSome = true :=
  ⟨⟨rfl, rfl, rfl⟩, ⟨rfl, rfl, rfl⟩, ⟨rfl, rfl, rfl⟩, by decide +kernel, ⟨rfl, rfl, rfl⟩, by decide +kernel⟩

theorem witness_GainsStagedUntilApplied :
    Serving (asking 0x09 [31#8, 5#8, 0#8, 0#8] State.reset) 0x09 (request 0x09 [31#8, 5#8, 0#8, 0#8]) ∧
    Serving (asking 0x09 [31#8, 4#8, 0#8, 0#8] State.reset) 0x09 (request 0x09 [31#8, 4#8, 0#8, 0#8]) ∧
    (State.reset.program 31).installed = none ∧ (State.reset.program 31).pendingRec = none ∧
    Serving (asking 0x09 [0#8, 4#8, 255#8, 255#8] planned) 0x09 (request 0x09 [0#8, 4#8, 255#8, 255#8]) ∧
    (planned.program 0).installed ≠ none ∧ Serving (asking 0x0A [] planned) 0x0A (request 0x0A []) :=
  ⟨⟨rfl, rfl, rfl⟩, ⟨rfl, rfl, rfl⟩, by decide +kernel, by decide +kernel, ⟨rfl, rfl, rfl⟩, by decide +kernel,
    ⟨rfl, rfl, rfl⟩⟩

/-- Channel 23 STANDING with program 0 in zone 11, which it alone is carried in. -/
def standing : State :=
  ((linked.withZal
    { channels := (Tab.fill 24 Channel.reset).set 23 ⟨.standing, some 0, 0x800#12, 0#16⟩
      zones := (Tab.fill 12 Zone.reset).set 11 ⟨1, []⟩ }).putProgram 0 { spoken with binding := some 23 })

/-- Zone 3 full with the standing channels 0 to 7. -/
def full : State :=
  planned.withZal
    { channels := Tab.ofFn fun c => if c.val < 8 then ⟨.standing, some 9, 8#12, 0#16⟩ else Channel.reset
      zones := (Tab.fill 12 Zone.reset).set 3 ⟨8, []⟩ }

theorem placed_standing : ZonesPlaced standing := by
  refine placed_of ?_ ?_ ?_ ?_ ?_ ?_ ?_ <;> decide +kernel

theorem placed_full : ZonesPlaced full := by
  refine placed_of ?_ ?_ ?_ ?_ ?_ ?_ ?_ <;> decide +kernel

theorem witness_LoadChannelBinds :
    Serving (asking 0x10 [23#8, 255#8, 0x10#8, 0#8] standing) 0x10 (request 0x10 [23#8, 255#8, 0x10#8, 0#8]) ∧
    wordAt (requestArgs (request 0x10 [23#8, 255#8, 0x10#8, 0#8])) 2 = 4096 ∧
    ZonesPlaced (asking 0x10 [23#8, 255#8, 15#8, 255#8] standing) ∧
    Serving (asking 0x10 [23#8, 255#8, 15#8, 255#8] standing) 0x10 (request 0x10 [23#8, 255#8, 15#8, 255#8]) ∧
    (standing.channel 23).phase = .standing ∧ (standing.channel 22).phase = .free ∧
    (touring.channel 0).phase = .tour ∧
    Serving (asking 0x10 [22#8, 1#8, 0#8, 1#8] standing) 0x10 (request 0x10 [22#8, 1#8, 0#8, 1#8]) ∧
    (standing.program 1).installed = none ∧ (standing.program 1).pendingRec = none ∧
    (standing.program 0).installed ≠ none ∧ (standing.program 0).binding = some 23 ∧
    Serving (asking 0x10 [22#8, 0#8, 0#8, 1#8] standing) 0x10 (request 0x10 [22#8, 0#8, 0#8, 1#8]) ∧
    Serving (asking 0x10 [23#8, 0#8, 0#8, 1#8] standing) 0x10 (request 0x10 [23#8, 0#8, 0#8, 1#8]) ∧
    (∀ z, (standing.zone z).queue = []) ∧
    ZonesPlaced (asking 0x10 [23#8, 0#8, 0#8, 8#8] full) ∧ (full.zone 3).carried = 8 ∧
    (full.program 0).owner = none ∧ (full.program 0).binding = none :=
  ⟨⟨rfl, rfl, rfl⟩, rfl, placed_standing, ⟨rfl, rfl, rfl⟩, by decide +kernel, by decide +kernel, by decide +kernel,
    ⟨rfl, rfl, rfl⟩, by decide +kernel, by decide +kernel, by decide +kernel, by decide +kernel, ⟨rfl, rfl, rfl⟩,
    ⟨rfl, rfl, rfl⟩, by decide +kernel, placed_full, by decide +kernel, by decide +kernel, by decide +kernel⟩

/-- LOAD TOUR PLAN arguments: this slot, entry 0 with this program and party, the other entries absent, and one stop in
this zone. -/
def planArgs (slot program party zone : Byte) : List Byte :=
  [slot, 1#8, 0#8, 0#8, 1#8, 15#8, program, party, 255#8] ++ zeros 15 ++ [1#8, zone, 255#8, 255#8, 255#8, 255#8]

/-- LOAD TOUR PLAN arguments without a stop. -/
def stopless : List Byte := [0#8, 1#8, 0#8, 0#8, 1#8, 15#8, 31#8, 96#8, 255#8] ++ zeros 16

theorem witness_TourPlanLoaded :
    Serving (asking 0x18 (planArgs 16#8 0#8 0#8 0#8) State.reset) 0x18 (request 0x18 (planArgs 16#8 0#8 0#8 0#8)) ∧
    Serving (asking 0x18 (planArgs 0#8 32#8 0#8 0#8) State.reset) 0x18 (request 0x18 (planArgs 0#8 32#8 0#8 0#8)) ∧
    Serving (asking 0x18 (planArgs 0#8 0#8 0#8 12#8) State.reset) 0x18 (request 0x18 (planArgs 0#8 0#8 0#8 12#8)) ∧
    Serving (asking 0x18 (planArgs 0#8 0#8 0#8 0#8) touring) 0x18 (request 0x18 (planArgs 0#8 0#8 0#8 0#8)) ∧
    Serving (asking 0x18 stopless planned) 0x18 (request 0x18 stopless) ∧
    Serving (asking 0x18 (planArgs 15#8 31#8 97#8 11#8) State.reset) 0x18 (request 0x18 (planArgs 15#8 31#8 97#8 11#8)) ∧
    (State.reset.tour 15).live.phase = .free ∧
    Serving (asking 0x18 (planArgs 0#8 31#8 96#8 11#8) planned) 0x18 (request 0x18 (planArgs 0#8 31#8 96#8 11#8)) ∧
    (planned.tour 0).live.phase = .planned :=
  ⟨⟨rfl, rfl, rfl⟩, ⟨rfl, rfl, rfl⟩, ⟨rfl, rfl, rfl⟩, ⟨rfl, rfl, rfl⟩, ⟨rfl, rfl, rfl⟩, ⟨rfl, rfl, rfl⟩, by decide +kernel,
    ⟨rfl, rfl, rfl⟩, by decide +kernel⟩

theorem witness_TimingLoadedAndSlotCleared :
    Serving (asking 0x19 (16#8 :: zeros 10) planned) 0x19 (request 0x19 (16#8 :: zeros 10)) ∧
    Serving (asking 0x19 (15#8 :: zeros 10) planned) 0x19 (request 0x19 (15#8 :: zeros 10)) ∧
    (planned.tour 15).live.phase = .free ∧ Serving (asking 0x19 (zeros 11) planned) 0x19 (request 0x19 (zeros 11)) ∧
    (planned.tour 0).live.phase = .planned ∧ Serving (asking 0x1A [16#8] planned) 0x1A (request 0x1A [16#8]) ∧
    Serving (asking 0x1A [15#8] planned) 0x1A (request 0x1A [15#8]) ∧
    Serving (asking 0x1A [0#8] planned) 0x1A (request 0x1A [0#8]) :=
  ⟨⟨rfl, rfl, rfl⟩, ⟨rfl, rfl, rfl⟩, by decide +kernel, ⟨rfl, rfl, rfl⟩, by decide +kernel, ⟨rfl, rfl, rfl⟩, ⟨rfl, rfl, rfl⟩,
    ⟨rfl, rfl, rfl⟩⟩

/-- Every channel taken by a standing program, in no zone. -/
def crowdedChannels : State :=
  planned.withZal { planned.zal with channels := Tab.fill 24 ⟨.standing, some 9, 0#12, 0#16⟩ }

theorem placed_crowdedChannels : ZonesPlaced crowdedChannels := by
  refine placed_of ?_ ?_ ?_ ?_ ?_ ?_ ?_ <;> decide +kernel

theorem witness_TourStartBindsAndReserves :
    Serving (asking 0x1C [16#8] planned) 0x1C (request 0x1C [16#8]) ∧
    Serving (asking 0x1C [0#8] planned) 0x1C (request 0x1C [0#8]) ∧ ZonesPlaced (asking 0x1C [0#8] planned) ∧
    (planned.tour 0).live.phase = .planned ∧ planned.mge.mode = .opened ∧ (planned.tour 0).plan = some plan ∧
    plan.route = ⟨3, Tab.fill 4 none⟩ :: [⟨4, Tab.fill 4 none⟩] ∧
    (∀ e, plan.entries.get e = if e = 0 then some ⟨1, 0, 2, none⟩ else none) ∧
    (planned.program 0).owner = none ∧ (planned.program 0).binding = none ∧
    ((planned.program 0).pendingRec.or (planned.program 0).installed).map (fun r => r.members.get 0) =
      some (some ⟨0, 32768, .voice⟩) ∧
    planned.source 0 = some guide ∧ guide.config.kind = .guide ∧ (∀ k, k ≠ 0 → (planned.tour k).live.phase = .free) ∧
    (∀ c, (planned.channel c).phase = .free) ∧ (planned.zone 3).carried + 1 ≤ 8 ∧
    (touring.tour 0).live.phase ≠ .planned ∧ ZonesPlaced touring ∧
    ZonesPlaced crowdedChannels ∧ (∀ c, (crowdedChannels.channel c).phase ≠ .free) ∧
    ZonesPlaced full ∧ 8 < (full.zone 3).carried + 1 ∧ (full.tour 0).live.phase = .planned ∧
    (full.channel 8).phase = .free :=
  ⟨⟨rfl, rfl, rfl⟩, ⟨rfl, rfl, rfl⟩, placed_planned, by decide +kernel, rfl, by decide +kernel, rfl, by decide, by decide +kernel,
    by decide +kernel, by decide +kernel, by decide +kernel, rfl, by decide +kernel, by decide +kernel, by decide +kernel,
    by decide +kernel, placed_touring, placed_crowdedChannels, by decide +kernel, placed_full, by decide +kernel,
    by decide +kernel, by decide +kernel⟩

theorem witness_ReserveMoreClamps :
    Serving (asking 0x1D [16#8, 0#8, 1#8] touring) 0x1D (request 0x1D [16#8, 0#8, 1#8]) ∧
    Serving (asking 0x1D [0#8, 4#8, 1#8] touring) 0x1D (request 0x1D [0#8, 4#8, 1#8]) ∧
    Serving (asking 0x1D [15#8, 3#8, 1#8] touring) 0x1D (request 0x1D [15#8, 3#8, 1#8]) ∧
    (touring.tour 15).live.phase ≠ .live ∧
    Serving (asking 0x1D [0#8, 0#8, 95#8] touring) 0x1D (request 0x1D [0#8, 0#8, 95#8]) ∧
    (touring.tour 0).live.phase = .live ∧ (touring.tour 0).plan = some plan ∧
    plan.entries.get 0 = some ⟨1, 0, 2, none⟩ ∧ (touring.tour 0).live.channels.get 0 = some 0 ∧
    Serving (asking 0x1D [0#8, 3#8, 1#8] touring) 0x1D (request 0x1D [0#8, 3#8, 1#8]) ∧ plan.entries.get 3 = none ∧
    Serving (asking 0x1D [0#8, 0#8, 0#8] touring) 0x1D (request 0x1D [0#8, 0#8, 0#8]) :=
  ⟨⟨rfl, rfl, rfl⟩, ⟨rfl, rfl, rfl⟩, ⟨rfl, rfl, rfl⟩, by decide +kernel, ⟨rfl, rfl, rfl⟩, by decide +kernel, by decide +kernel,
    rfl, by decide +kernel, ⟨rfl, rfl, rfl⟩, rfl, ⟨rfl, rfl, rfl⟩⟩

/-- The tour CLOSING, with this hold and wait remaining. -/
def closing (hold wait : Option Nat) : State :=
  running { runningLive with phase := .closing, hold := hold, wait := wait } 8#12

/-- The tour LIVE with a close hold of 0. -/
def holdless : State := touring.putTour 0 ⟨some plan, some { Timing.reset with closeHold := 0 }, runningLive⟩

theorem witness_TourEndAndAbort :
    Serving (asking 0x1E [16#8] touring) 0x1E (request 0x1E [16#8]) ∧
    Serving (asking 0x1F [16#8] touring) 0x1F (request 0x1F [16#8]) ∧
    Serving (asking 0x1E [0#8] planned) 0x1E (request 0x1E [0#8]) ∧ (planned.tour 0).live.phase = .planned ∧
    Serving (asking 0x1E [0#8] (closing none (some 1))) 0x1E (request 0x1E [0#8]) ∧
    ((closing none (some 1)).tour 0).live.phase = .closing ∧
    Serving (asking 0x1E [0#8] touring) 0x1E (request 0x1E [0#8]) ∧ (touring.tour 0).live.phase = .live ∧
    (timingOf (touring.tour 0)).closeHold = 3 ∧
    Serving (asking 0x1E [0#8] holdless) 0x1E (request 0x1E [0#8]) ∧ guideVoice holdless 0 = false ∧
    (timingOf (holdless.tour 0)).closeHold = 0 ∧ (holdless.tour 0).live.phase = .live ∧
    Serving (asking 0x1F [0#8] touring) 0x1F (request 0x1F [0#8]) ∧
    Serving (asking 0x1F [0#8] planned) 0x1F (request 0x1F [0#8]) :=
  ⟨⟨rfl, rfl, rfl⟩, ⟨rfl, rfl, rfl⟩, ⟨rfl, rfl, rfl⟩, by decide +kernel, ⟨rfl, rfl, rfl⟩, by decide +kernel, ⟨rfl, rfl, rfl⟩,
    by decide +kernel, by decide +kernel, ⟨rfl, rfl, rfl⟩, by decide +kernel, by decide +kernel, by decide +kernel,
    ⟨rfl, rfl, rfl⟩, ⟨rfl, rfl, rfl⟩⟩

/-- Two pooled receivers: handle 2 with level 50 in bay 3 and handle 3 with level 60 in bay 4. -/
def pool : State :=
  (away (receiver .docked (some 3))).putReceiver 3
    (some { receiver .docked (some 4) with tag := 2#24, level := some 60 })

theorem witness_ReservationTakesHighestLevel :
    pool.receiver 2 = some (receiver .docked (some 3)) ∧
    pool.receiver 3 = some { receiver .docked (some 4) with tag := 2#24, level := some 60 } ∧
    (pool.rack (rackOf 3)).live.phase = .online ∧ (pool.rack (rackOf 4)).live.phase = .online := by
  refine ⟨?_, State.putReceiver_receiver_self _ _ _, by decide +kernel, by decide +kernel⟩
  rw [pool, State.putReceiver_receiver]
  exact State.putReceiver_receiver_self _ _ _

/-- Every handle present. -/
def crowdedFleet : State := linked.withFlt { linked.flt with receivers := Tab.fill 384 (some (receiver .unseen none)) }

theorem witness_EnrolCreatesRecord :
    Serving (asking 0x20 (zeros 3) online) 0x20 (request 0x20 (zeros 3)) ∧
    Serving (asking 0x20 [0#8, 0#8, 1#8] (away (receiver .stray none))) 0x20 (request 0x20 [0#8, 0#8, 1#8]) ∧
    (∀ h r, (away (receiver .stray none)).receiver h = some r → h = 2) ∧
    Serving (asking 0x20 [0#8, 0#8, 9#8] crowdedFleet) 0x20 (request 0x20 [0#8, 0#8, 9#8]) ∧
    (∀ h, crowdedFleet.receiver h ≠ none) ∧ (∀ h r, crowdedFleet.receiver h = some r → r.tag ≠ 9#24) ∧
    Serving (asking 0x20 [0#8, 0#8, 1#8] online) 0x20 (request 0x20 [0#8, 0#8, 1#8]) ∧
    (∀ h, online.receiver h = none) ∧ (∀ b, (online.bay b).presence ≠ .foreign 1#24) ∧
    Serving (asking 0x20 [0#8, 0#8, 1#8] foreign) 0x20 (request 0x20 [0#8, 0#8, 1#8]) ∧
    (foreign.bay 3).presence = .foreign 1#24 ∧ (∀ b < 3, (foreign.bay b).presence ≠ .foreign 1#24) := by
  have hc (h : Fin 384) : crowdedFleet.receiver h = some (receiver .unseen none) := by
    simp [crowdedFleet, State.receiver]
  refine ⟨⟨rfl, rfl, rfl⟩, ⟨rfl, rfl, rfl⟩, away_only _, ⟨rfl, rfl, rfl⟩, fun h => by simp [hc], fun h r hr => ?_,
    ⟨rfl, rfl, rfl⟩, by simp, by simp [Bay.reset], ⟨rfl, rfl, rfl⟩, ?_, fun b hb => ?_⟩
  · rw [hc] at hr
    cases hr
    simp [receiver]
  · rw [foreign, State.putBay_bay_self]
  · rw [foreign, State.putBay_bay, if_neg (Fin.ne_of_lt hb)]; simp [Bay.reset]

theorem witness_RetireRemovesRecord :
    Serving (asking 0x21 [1#8, 128#8] online) 0x21 (request 0x21 [1#8, 128#8]) ∧
    wordAt (requestArgs (request 0x21 [1#8, 128#8])) 0 = 384 ∧
    Serving (asking 0x21 [1#8, 127#8] online) 0x21 (request 0x21 [1#8, 127#8]) ∧ online.receiver 383 = none ∧
    Serving (asking 0x21 [0#8, 2#8] (docked reserved)) 0x21 (request 0x21 [0#8, 2#8]) ∧
    (docked reserved).receiver 2 = some reserved ∧ reserved.phase = .reserved ∧
    Serving (asking 0x21 [0#8, 2#8] (away (receiver .due none))) 0x21 (request 0x21 [0#8, 2#8]) ∧
    (away (receiver .due none)).receiver 2 = some (receiver .due none) ∧
    Serving (asking 0x21 [0#8, 2#8] (docked (receiver .docked (some 3)))) 0x21 (request 0x21 [0#8, 2#8]) ∧
    (docked (receiver .docked (some 3))).receiver 2 = some (receiver .docked (some 3)) ∧
    ∀ x ∈ ((docked (receiver .docked (some 3))).sched (rackOf 3)).active, x.bay ≠ bayNumber 3 :=
  ⟨⟨rfl, rfl, rfl⟩, rfl, ⟨rfl, rfl, rfl⟩, by simp, ⟨rfl, rfl, rfl⟩, State.putReceiver_receiver_self _ _ _, rfl,
    ⟨rfl, rfl, rfl⟩, State.putReceiver_receiver_self _ _ _, ⟨rfl, rfl, rfl⟩, State.putReceiver_receiver_self _ _ _,
    by decide +kernel⟩

/-- LOAD RACK CONFIG arguments: rack, enabled code, station low byte and scan low; the rest by default. -/
def rackArgs (rack on low scan : Byte) : List Byte := [rack, 0x7E#8, on, 1#8, low, scan] ++ zeros 9

theorem witness_RackConfigApplied :
    Serving (asking 0x28 (rackArgs 12#8 1#8 1#8 0#8) online) 0x28 (request 0x28 (rackArgs 12#8 1#8 1#8 0#8)) ∧
    Serving (asking 0x28 (rackArgs 11#8 2#8 1#8 0#8) online) 0x28 (request 0x28 (rackArgs 11#8 2#8 1#8 0#8)) ∧
    Serving (asking 0x28 (rackArgs 11#8 1#8 1#8 24#8) online) 0x28 (request 0x28 (rackArgs 11#8 1#8 1#8 24#8)) ∧
    Serving (asking 0x28 (rackArgs 11#8 1#8 1#8 23#8) online) 0x28 (request 0x28 (rackArgs 11#8 1#8 1#8 23#8)) ∧
    (online.rack 0).config.enabled = true ∧ (online.rack 0).config.station = 0x0101#16 ∧
    (online.rack 11).config.enabled = false ∧
    Serving (asking 0x28 (rackArgs 11#8 0#8 1#8 23#8) online) 0x28 (request 0x28 (rackArgs 11#8 0#8 1#8 23#8)) ∧
    Serving (asking 0x28 (rackArgs 11#8 1#8 2#8 23#8) online) 0x28 (request 0x28 (rackArgs 11#8 1#8 2#8 23#8)) ∧
    Serving (asking 0x28 (rackArgs 0#8 0#8 1#8 0#8) online) 0x28 (request 0x28 (rackArgs 0#8 0#8 1#8 0#8)) ∧
    Serving (asking 0x28 (rackArgs 0#8 1#8 2#8 0#8) online) 0x28 (request 0x28 (rackArgs 0#8 1#8 2#8 0#8)) ∧
    (online.rack 0).live.phase = .online ∧
    Serving (asking 0x28 (rackArgs 0#8 1#8 1#8 5#8) online) 0x28 (request 0x28 (rackArgs 0#8 1#8 1#8 5#8)) ∧
    QueuesBounded online := by
  refine ⟨⟨rfl, rfl, rfl⟩, ⟨rfl, rfl, rfl⟩, ⟨rfl, rfl, rfl⟩, ⟨rfl, rfl, rfl⟩, by decide +kernel, by decide +kernel,
    by decide +kernel, ⟨rfl, rfl, rfl⟩, ⟨rfl, rfl, rfl⟩, ⟨rfl, rfl, rfl⟩, ⟨rfl, rfl, rfl⟩, by decide +kernel,
    ⟨rfl, rfl, rfl⟩, by decide, by decide, by decide, ?_, ?_, ?_⟩ <;> intro f hf <;> cases hf

/-- Eight points of a curve with voltages 0, 256, … and levels up to this one. -/
def curveArgs (last : Byte) : List Byte :=
  [0#8, 0#8, 0#8, 1#8, 0#8, 0#8, 2#8, 0#8, 0#8, 3#8, 0#8, 0#8, 4#8, 0#8, 0#8, 5#8, 0#8, 0#8, 6#8, 0#8, 0#8,
    7#8, 0#8, last]

theorem witness_LevelCurveAndSettingsLoaded :
    Serving (asking 0x2B (curveArgs 101#8) State.reset) 0x2B (request 0x2B (curveArgs 101#8)) ∧
    Serving (asking 0x2B (curveArgs 100#8) State.reset) 0x2B (request 0x2B (curveArgs 100#8)) ∧
    (∀ k < 7, wordAt (curveArgs 100#8) (3 * k) < wordAt (curveArgs 100#8) (3 * k + 3) ∧
      byteAt (curveArgs 100#8) (3 * k + 2) ≤ byteAt (curveArgs 100#8) (3 * k + 5)) ∧
    Serving (asking 0x45 [0#8, 0#8, 0#8, 0#8, 2#8] State.reset) 0x45 (request 0x45 [0#8, 0#8, 0#8, 0#8, 2#8]) ∧
    Serving (asking 0x45 [0#8, 100#8, 100#8, 240#8, 1#8] State.reset) 0x45
      (request 0x45 [0#8, 100#8, 100#8, 240#8, 1#8]) :=
  ⟨⟨rfl, rfl, rfl⟩, ⟨rfl, rfl, rfl⟩, by decide, ⟨rfl, rfl, rfl⟩, ⟨rfl, rfl, rfl⟩⟩

/-- A LOAD THERMAL TABLE with these first and last boundaries, and this trickle code in the last entry. -/
def tableArgs (first last code : Byte) : List Byte :=
  [first, 1#8, 2#8, 3#8, 4#8, 5#8, last] ++ zeros 39 ++ [code]

theorem witness_ThermalTableLoaded :
    Serving (asking 0x30 (tableArgs 0xD7#8 125#8 0#8) charging) 0x30 (request 0x30 (tableArgs 0xD7#8 125#8 0#8)) ∧
    signedAt (tableArgs 0xD7#8 125#8 0#8) 0 = -41 ∧
    Serving (asking 0x30 (tableArgs 0xD8#8 5#8 0#8) charging) 0x30 (request 0x30 (tableArgs 0xD8#8 5#8 0#8)) ∧
    Serving (asking 0x30 (tableArgs 0xD8#8 125#8 2#8) charging) 0x30 (request 0x30 (tableArgs 0xD8#8 125#8 2#8)) ∧
    Serving (asking 0x30 (tableArgs 0xD8#8 125#8 1#8) charging) 0x30 (request 0x30 (tableArgs 0xD8#8 125#8 1#8)) ∧
    (∀ k < 7, -40 ≤ signedAt (tableArgs 0xD8#8 125#8 1#8) k ∧ signedAt (tableArgs 0xD8#8 125#8 1#8) k ≤ 125) ∧
    (∀ k < 6, signedAt (tableArgs 0xD8#8 125#8 1#8) k < signedAt (tableArgs 0xD8#8 125#8 1#8) (k + 1)) ∧
    (∀ k < 8, byteAt (tableArgs 0xD8#8 125#8 1#8) (11 + 5 * k) ≤ 1) ∧ (charging.sched 1).band = none ∧
    (charging.sched 0).band = some 3 ∧
    ((racked { Rack.reset.live with phase := .online, temperature := some 125 }).rack 0).live.temperature = some 125 ∧
    ((charging.sched 0).active.map Turn.bay).Nodup := by
  refine ⟨⟨rfl, rfl, rfl⟩, rfl, ⟨rfl, rfl, rfl⟩, ⟨rfl, rfl, rfl⟩, ⟨rfl, rfl, rfl⟩, ?_⟩
  decide +kernel

theorem witness_BandFollowsTemperature :
    (∀ i j : Fin 7, i < j → defaultBandTable.bounds.get i < defaultBandTable.bounds.get j) ∧
    Arrives charging (rackFrame 0x11#8 (status 0#8)) .bayStatus 0x0101#16 (status 0#8) ∧
    FrameOfRack charging 0x0101#16 0 ∧ StatusShows (status 0#8) (some 1#24) ∧ byteAt (status 0#8) 0 = 3 :=
  ⟨by decide, ⟨rfl, by decide +kernel⟩, frame_of_rack _, status_shows.1, by decide⟩

/-- 31 events queued, the desk known, the link UP and this many replies in class 3. -/
def alerting (k : Nat) : State :=
  (crowded 0 k).withEvq { linked.evq with queue := List.replicate 31 ⟨.mark, 0, 0, none, 0⟩, desk := some 5#16 }

theorem witness_EventsReadAndFlushed :
    Serving (asking 0x38 [] State.reset) 0x38 (request 0x38 []) ∧
    Serving (asking 0x39 [] State.reset) 0x39 (request 0x39 []) ∧
    (∀ k ∈ [6, 7], (alerting k).evq.enables.getLsbD EventKind.turnStarved.code = true ∧
      (alerting k).evq.queue.length = 31 ∧ (alerting k).evq.desk = some 5#16 ∧ (alerting k).hli.linkUp = true ∧
      class3Held (alerting k).hli = k) ∧ State.reset.evq.desk = none ∧ State.reset.hli.linkUp = false :=
  ⟨⟨rfl, rfl, rfl⟩, ⟨rfl, rfl, rfl⟩, by decide +kernel, rfl, rfl⟩

theorem witness_EnableMasksApplied :
    Serving (asking 0x3A [255#8, 0#8, 0#8, 1#8] State.reset) 0x3A (request 0x3A [255#8, 0#8, 0#8, 1#8]) ∧
    Serving (asking 0x3B [64#8, 0#8, 0#8, 1#8] State.reset) 0x3B (request 0x3B [64#8, 0#8, 0#8, 1#8]) ∧
    (∃ t, exec (.powerOn 15#4) State.reset = .next t) ∧ (∃ t, exec (.pinReset 0#4) State.reset = .next t) ∧
    ∃ t, exec .restart (asking 0x41 [] State.reset) = .next t :=
  ⟨⟨rfl, rfl, rfl⟩, ⟨rfl, rfl, rfl⟩, ⟨_, rfl⟩, ⟨_, rfl⟩, ⟨_, rfl⟩⟩

theorem witness_HallModeChanges :
    Serving (asking 0x40 [2#8] touring) 0x40 (request 0x40 [2#8]) ∧
    Serving (asking 0x40 [1#8] touring) 0x40 (request 0x40 [1#8]) ∧ touring.mge.mode = .opened ∧
    Serving (asking 0x40 [0#8] touring) 0x40 (request 0x40 [0#8]) ∧ ZonesPlaced (asking 0x40 [0#8] touring) ∧
    (touring.tour 0).live.phase = .live ∧ (touring.tour 1).live.phase = .free ∧
    Serving (asking 0x40 [1#8] standing) 0x40 (request 0x40 [1#8]) ∧ standing.mge.mode = .closed :=
  ⟨⟨rfl, rfl, rfl⟩, ⟨rfl, rfl, rfl⟩, rfl, ⟨rfl, rfl, rfl⟩, placed_touring, by decide +kernel, by decide +kernel,
    ⟨rfl, rfl, rfl⟩, rfl⟩

/-- The tour LIVE and rack 0 ONLINE, the rack sender holding a frame or none, the link UP or DOWN. -/
def sending (holds link : Bool) : State :=
  (touring.withRpl { online.rpl with senderHolds := holds }).withHli { touring.hli with linkUp := link }

theorem witness_RestartResetsBlocks :
    Serving (asking 0x41 [] touring) 0x41 (request 0x41 []) ∧ ZonesPlaced (asking 0x41 [] touring) ∧
    (touring.tour 0).live.phase = .live ∧ (touring.tour 1).live.phase = .free ∧
    (standing.channel 23).phase = .standing ∧ touring.hli.linkUp = true ∧ (online.rack 0).config.enabled = true ∧
    (online.rack 1).live.phase ≠ .online ∧
    (∀ holds link, Serving (asking 0x41 [] (sending holds link)) 0x41 (request 0x41 []) ∧
      ZonesPlaced (asking 0x41 [] (sending holds link)) ∧ (sending holds link).rpl.senderHolds = holds ∧
      (sending holds link).hli.linkUp = link) ∧
    ∀ r, ((sending false true).rack r).live.phase = .online → r = 0 := by
  refine ⟨⟨rfl, rfl, rfl⟩, placed_touring, by decide +kernel, by decide +kernel, by decide +kernel, rfl, by decide +kernel,
    by decide +kernel, fun holds link => ⟨⟨rfl, rfl, rfl⟩, placed_touring, rfl, rfl⟩, ?_⟩
  decide +kernel

/-- A DUE receiver whose deadline is 256. -/
def dueReceiver : Receiver := { receiver .due none with deadline := some 256 }

/-- That receiver at handle 2, at this hub time. -/
def dueAt (time : Nat) : State := (away dueReceiver).withMge { linked.mge with hubTime := time }

theorem witness_HubTimeJudgesDeadlines :
    Serving (asking 0x42 [0#8, 0#8, 1#8, 0#8] (dueAt 0)) 0x42 (request 0x42 [0#8, 0#8, 1#8, 0#8]) ∧
    quadAt (requestArgs (request 0x42 [0#8, 0#8, 1#8, 0#8])) 0 = 256 ∧ (dueAt 255).mge.hubTime < 4294967295 ∧
    4294967295 ≤ (dueAt 4294967295).mge.hubTime ∧ (dueAt 256).receiver 2 = some dueReceiver ∧
    dueReceiver.phase = .due ∧ dueReceiver.deadline = some 256 ∧ (dueAt 256).receiver 3 = none :=
  ⟨⟨rfl, rfl, rfl⟩, rfl, by decide, Nat.le_refl _, State.putReceiver_receiver_self _ _ _, rfl, rfl,
    (away_receiver dueReceiver 3).trans rfl⟩

theorem witness_MixPointTakesSlots : State.reset.source 47 = none ∧ touring.source 0 = some guide ∧
    guide.live.phase = .live ∧ guide.live.slot = none ∧ guide.live.concealStep = 0 ∧
    guide.live.level < guide.config.onThreshold := ⟨by simp, by decide +kernel, rfl, rfl, rfl, by decide⟩

theorem witness_MixPointRunsPrograms :
    (touring.program 0).pendingRec.or (touring.program 0).installed = spoken.installed ∧
    (touring.program 0).binding.isSome = true ∧ touring.mge.mode = .opened ∧
    (State.reset.program 31).pendingRec.or (State.reset.program 31).installed = none ∧
    (planned.program 0).binding = none := by decide +kernel

theorem witness_MixPointEmitsFrames :
    ArbiterSettled State.reset ∧ ArbiterSettled touring ∧
    State.reset.mge.mode = .closed ∧ touring.mge.mode = .opened ∧ touring.hli.linkUp = true ∧
    (touring.program 0).binding = some 0 ∧ ∀ q, (touring.program q).binding = some 0 → q = 0 := by
  refine ⟨⟨fun _ => rfl, fun _ => rfl⟩, ⟨fun _ => rfl, fun _ => rfl⟩, ?_⟩
  decide +kernel

theorem witness_SumsRoundHalfUp :
    (⟨65535, .bed, silence, false⟩ : Input).gain ≤ 65535 ∧ (⟨32768, .voice, silence, true⟩ : Input).gain = 32768 ∧
    (⟨65535, .bed, silence, false⟩ : Input).cls = .bed ∧ (⟨32768, .voice, silence, true⟩ : Input).cls = .voice ∧
    (List.replicate 6 (⟨65535, .bed, silence, false⟩ : Input)).length ≤ 6 ∧
    (∀ x ∈ List.replicate 6 (⟨65535, .bed, silence, false⟩ : Input), x.gain ≤ 65535) ∧
    [(⟨65535, .bed, silence, false⟩ : Input), ⟨32768, .voice, silence, true⟩].Perm
      [⟨32768, .voice, silence, true⟩, ⟨65535, .bed, silence, false⟩] :=
  ⟨Nat.le_refl _, rfl, rfl, rfl, Nat.le_refl _, fun _ h => (List.eq_of_mem_replicate h) ▸ Nat.le_refl _, .swap _ _ _⟩

/-- The guide's source alone, with these live fields. -/
def sourced (l : SourceLive) : State := linked.putSource 0 (some { guide with live := l })

theorem witness_SourceEventsOfMixPoint :
    linked.source 47 = none ∧
    (∀ n, (sourced { guide.live with missRun := n }).source 0 = some { guide with live := { guide.live with missRun := n } }) ∧
    guide.live.phase = .live ∧ guide.live.slot = none ∧
    (sourced { guide.live with voice := true, hangLeft := 1 }).source 0 =
      some { guide with live := { guide.live with voice := true, hangLeft := 1 } } ∧
    guide.live.level < guide.config.onThreshold ∧ guide.live.level < guide.config.offThreshold ∧
    (sourced { guide.live with phase := .stale, slot := some silence }).source 0 =
      some { guide with live := { guide.live with phase := .stale, slot := some silence } } :=
  ⟨by simp, fun _ => State.putSource_source_self _ _ _, rfl, rfl, State.putSource_source_self _ _ _, by decide, by decide,
    State.putSource_source_self _ _ _⟩

theorem witness_WindowEndDropsZone :
    ZonesPlaced inWindow ∧ (inWindow.tour 0).live.prevZone = some 3 ∧ (inWindow.tour 0).live.window = some 1 ∧
    (inWindow.zone 3).queue = [] ∧ ZonesPlaced touring ∧ (touring.tour 0).live.prevZone = none ∧
    (∀ s ∈ [ending 1 1 .reset, ending 1 9 .reset, ending 1 1 { Timing.reset with window := 0 }],
      (s.tour 0).live.prevZone = some 3 ∧ (s.tour 0).live.window = some 1 ∧ (s.zone 3).carried = 1 ∧
      (s.tour 1).live.zone = some 6) ∧
    ZonesPlaced (ending 1 1 .reset) ∧ ((ending 1 1 .reset).zone 3).queue = [⟨1, 1⟩] ∧
    (timingOf ((ending 1 1 .reset).tour 1)).window / 4 = 250 ∧
    ZonesPlaced (ending 1 9 .reset) ∧ ((ending 1 9 .reset).zone 3).queue = [⟨1, 9⟩] ∧
    ZonesPlaced (ending 1 1 { Timing.reset with window := 0 }) ∧
    (timingOf ((ending 1 1 { Timing.reset with window := 0 }).tour 1)).window / 4 = 0 ∧
    ZonesPlaced (ending 2 1 .reset) ∧ ((ending 2 1 .reset).tour 0).live.window = some 2 ∧
    ((ending 2 1 .reset).tour 0).live.phase = .live :=
  ⟨placed_inWindow, by decide +kernel, by decide +kernel, by decide +kernel, placed_touring, by decide +kernel,
    by decide +kernel, placed_ending 1 1 (.inl rfl) (.inl rfl), by decide +kernel, by decide +kernel,
    placed_ending 1 9 (.inl rfl) (.inr rfl), by decide +kernel, placed_ending_jump, by decide +kernel,
    placed_ending 2 1 (.inr rfl) (.inl rfl), by decide +kernel, by decide +kernel⟩

/-- The tour LIVE in this silence stage, with one mix point left on its silence timer. -/
def quiet (stage : Nat) : State := running { runningLive with stage := stage, timer := 1 } 8#12

/-- R78: the detail of FALLBACK_NONE is the stop index and the empty set of entries. -/
theorem test_fallback_none_detail :
    (after (exec (.fallbackWrite 0) (running { runningLive with stage := 1, timer := 1, stop := 1 } 8#12))).evq.queue =
      [⟨.fallbackNone, 0, 0, some 1#16, 256⟩] := by decide +kernel

theorem witness_SilenceStagesAdvance :
    ((quiet 0).tour 0).live.phase = .live ∧ guideVoice (quiet 0) 0 = false ∧ ((quiet 0).tour 0).live.stage = 0 ∧
    ((quiet 0).tour 0).live.timer ≤ 1 ∧ guideVoice (quiet 1) 0 = false ∧ ((quiet 1).tour 0).live.stage = 1 ∧
    ((quiet 1).tour 0).plan = some plan ∧ plan.route[((quiet 1).tour 0).live.stop]? = some ⟨3, Tab.fill 4 none⟩ ∧
    (∀ e, plan.entries.get e = if e = 0 then some ⟨1, 0, 2, none⟩ else none) ∧
    ¬ ((touring.tour 0).live.timer ≤ 1) := by decide +kernel

/-- The tour with its guide speaking, and its fallback ON. -/
def voiced : State :=
  (running { runningLive with stage := 2, timer := 0, fallback := .on } 8#12).putSource 0
    (some { guide with live := { guide.live with voice := true, hangLeft := 9 } })

/-- Whether the guide of slot 0 speaks once SIU has done its work at the mix point, which the rest of the mix point
keeps. -/
theorem speaks_after_mix (s : State) : ∃ t, exec .mixPoint s = .next t ∧
    t.source 0 = (takeSources (reachMix s)).source 0 :=
  ⟨_, rfl, mixPoint_source s 0⟩

/-- Every case of a running tour at a mix point: the guide speaking, and quiet in each stage. -/
theorem witness_SilenceStagesAdvance_mix :
    (voiced.tour 0).live.phase = .live ∧ (voiced.tour 0).live.fallback = .on ∧
    ((takeSources (reachMix voiced)).source 0).map (fun x => x.live.voice) = some true ∧
    (∀ s ∈ [quiet 0, touring, quiet 1, running { runningLive with stage := 1 } 8#12, quiet 2],
      (s.tour 0).live.phase = .live ∧
      ((takeSources (reachMix s)).source 0).map (fun x => x.live.voice) = some false) ∧
    (running { runningLive with stage := 1 } 8#12).tour 0 =
      ⟨some plan, some .reset, { runningLive with stage := 1 }⟩ ∧
    ∀ k, k ≠ 0 → (touring.tour k).plan = none := by decide +kernel

/-- The tour CLOSING with one mix point of its wait left and a receiver ISSUED to it. -/
def closingOut : State :=
  (closing none (some 1)).putReceiver 2 (some { receiver .issued none with tour := some ⟨0, 1#16, 0, 0⟩ })

theorem witness_CloseTimersCloseTour :
    ((closing (some 1) (some 2)).tour 0).live.phase = .closing ∧ guideVoice (closing (some 1) (some 2)) 0 = false ∧
    ((closing (some 1) (some 2)).tour 0).live.hold = some 1 ∧ ((closing none (some 1)).tour 0).live.wait = some 1 ∧
    ((closing none (some 1)).tour 0).live.phase = .closing ∧ ((closing (some 1) (some 2)).tour 0).live.wait = some 2 ∧
    (touring.tour 0).live.phase ≠ .closing ∧
    ((takeSources (reachMix (closing none (some 2)))).source 0).map (fun x => x.live.voice) = some false ∧
    (closingOut.tour 0).live.phase = .closing ∧
    closingOut.receiver 2 = some { receiver .issued none with tour := some ⟨0, 1#16, 0, 0⟩ } ∧
    (closingOut.tour 0).live.run = 1#16 := by decide +kernel

/-- Rack 0 with its spacing timer running, and rack 0 ONLINE with an outstanding poll and this miss run. -/
def spaced : State := racked { Rack.reset.live with phase := .offline, spacingEnds := some 50 }
def polled (miss : Nat) : State :=
  racked { Rack.reset.live with phase := .online, outstanding := some ⟨23, 20⟩, missRun := miss }

theorem witness_RackTimersExpire :
    (spaced.rack 0).live.spacingEnds = some 50 ∧ (spaced.rack 0).config.enabled = true ∧
    (spaced.rack 0).live.outstanding = none ∧ (spaced.rack 0).live.waiting = none ∧
    (linked.rack 11).live.spacingEnds = none ∧ ((polled 1).rack 0).live.outstanding = some ⟨23, 20⟩ ∧
    ((polled 2).rack 0).live.missRun + 1 = 3 ∧ ((polled 2).rack 0).live.phase = .online ∧
    (settling.bay 5).settle = .dock ∧ (settling.bay 5).settleEnds = some 1500 ∧
    (settling.putBay 5 { settling.bay 5 with settle := .turn }).bay 5 = { settling.bay 5 with settle := .turn } ∧
    (linked.bay 287).settleEnds = none := by decide +kernel

/-- Rack 0 in band 3 with a candidate in bay 3, and this many pull-ins, postponements and active turns. -/
def turning (pulledIn postponed capacity : Nat) (active : List Turn) : State :=
  (docked (receiver .docked (some 3))).putSched 0 { Sched.reset with
    band := some 3, capacity := capacity, pulledIn := pulledIn, postponed := postponed, active := active
    cadenceEnds := some 60000 }

theorem witness_CadenceExpiryActs :
    (linked.sched 0).cadenceEnds = none ∧ ((turning 1 0 1 []).sched 0).cadenceEnds = some 60000 ∧
    0 < ((turning 1 0 1 []).sched 0).pulledIn ∧ (charging.sched 0).cadenceEnds = some 60000 ∧
    (∀ b, (charging.bay (bayAddress 0 b)).presence = .empty) ∧
    ((turning 0 0 1 []).rack 0).live.phase = .online ∧ ((turning 0 0 1 []).bay 3).presence = .known 2 ∧
    (turning 0 0 1 []).receiver 2 = some (receiver .docked (some 3)) ∧ ((turning 0 0 1 []).bay 3).settle = .none ∧
    ((turning 0 0 1 []).bay 3).level = some 50 ∧ ((turning 0 0 1 []).bay 3).full = false ∧
    ((turning 0 7 1 [⟨0, 1⟩]).sched 0).capacity ≤ ((turning 0 7 1 [⟨0, 1⟩]).sched 0).active.length ∧
    bandEntry (turning 0 7 1 [⟨0, 1⟩]) 0 = some ⟨6, 1, 8, 4, true⟩ ∧
    bandEntry (turning 0 8 1 [⟨0, 1⟩]) 0 = some ⟨6, 1, 8, 4, true⟩ := by
  refine ⟨by decide +kernel, by decide +kernel, by decide +kernel, by decide +kernel, fun b => ?_, by decide +kernel,
    by decide +kernel, by decide +kernel, by decide +kernel, by decide +kernel, by decide +kernel, by decide +kernel,
    by decide +kernel, by decide +kernel⟩
  change (online.bay _).presence = _
  simp [Bay.reset]

theorem witness_TurnExpiryEndsTurn :
    (∀ x ∈ (charging.sched 0).active, x.bay ≠ 1) ∧ turnOn charging 0 0 = some ⟨0, 300000⟩ ∧
    (∀ p q, turnOn (turning q p 1 [⟨0, 1⟩]) 0 0 = some ⟨0, 1⟩ ∧ ((turning q p 1 [⟨0, 1⟩]).rack 0).live.phase = .online ∧
      ((turning q p 1 [⟨0, 1⟩]).sched 0).postponed = p ∧ ((turning q p 1 [⟨0, 1⟩]).sched 0).pulledIn = q ∧
      ((turning q p 1 [⟨0, 1⟩]).bay (bayAddress 0 3)).presence = .known 2 ∧
      (turning q p 1 [⟨0, 1⟩]).receiver 2 = some (receiver .docked (some 3)) ∧
      ((turning q p 1 [⟨0, 1⟩]).bay (bayAddress 0 3)).settle = .none ∧
      ((turning q p 1 [⟨0, 1⟩]).bay (bayAddress 0 3)).level = some 50 ∧
      ((turning q p 1 [⟨0, 1⟩]).bay (bayAddress 0 3)).full = false ∧
      ((turning q p 1 [⟨0, 1⟩]).bay (bayAddress 0 3)).served = false) ∧
    (bandEntry (turning 3 0 1 [⟨0, 1⟩]) 0).map BandEntry.iMax = some 4 ∧
    turnOn (turning 4 0 1 [⟨3, 1⟩]) 0 3 = some ⟨3, 1⟩ ∧
    ((turning 4 0 1 [⟨3, 1⟩]).bay (bayAddress 0 3)).presence ≠ .empty ∧
    (let s := (turning 0 1 1 [⟨0, 1⟩]).putBay 3 { (turning 0 1 1 [⟨0, 1⟩]).bay 3 with served := true }
     (s.bay (bayAddress 0 3)).served = true ∧ ∀ b, b ≠ 3 → (s.bay (bayAddress 0 b)).presence = .empty) := by
  refine ⟨by decide +kernel, by decide +kernel, fun p q => ⟨rfl, ?_⟩, ?_⟩
  · exact ⟨rfl, rfl, rfl, rfl, rfl, rfl, rfl, rfl, rfl⟩
  · decide +kernel

end Sys2Proof.Tests
end

section
/-! LOAD SOURCE (R2, R3): its operand form, its checks as propositions, its outcomes, and the obligation on them. -/

namespace Sys2Proof.Machine

open Sys2Proof

/-! ### The operand form -/

theorem SourceKind.code_inj {k l : SourceKind} : k.code = l.code ↔ k = l := by
  cases k <;> cases l <;> simp [SourceKind.code]

theorem kindOfCode_eq_none {n : Nat} : kindOfCode n = none ↔ 3 ≤ n := by
  unfold kindOfCode
  split_ifs <;> simp <;> omega

@[simp] theorem kindOfCode_code (k : SourceKind) : kindOfCode k.code = some k := by
  cases k <;> rfl

theorem exists_kind_of_code_lt {n : Nat} (h : n < 3) : ∃ k : SourceKind, k.code = n := by
  match n, h with
  | 0, _ => exact ⟨.guide, rfl⟩
  | 1, _ => exact ⟨.interpreter, rfl⟩
  | 2, _ => exact ⟨.track, rfl⟩

/-- Check 1 of R2. -/
theorem parseSource_eq_none {a : List Byte} (h : 48 ≤ byteAt a 1 ∨ 4 ≤ byteAt a 4 ∨ 3 ≤ byteAt a 5) :
    parseSource a = none := by
  unfold parseSource
  split
  next id stream kind hid hstream hkind =>
    have hid' := toId_eq_some.1 hid
    have hstream' := toId_eq_some.1 hstream
    have hkind' : ¬ 3 ≤ byteAt a 5 := fun hn => by simp [kindOfCode_eq_none.2 hn] at hkind
    omega
  next => rfl

/-- The loaded fields `c` are those that these arguments give: the bytes, or the default where its bit is set (R2). -/
structure NamesSource (a : List Byte) (c : SourceConfig) : Prop where
  station : c.station = BitVec.ofNat 16 (wordAt a 2)
  stream : c.stream.val = byteAt a 4
  kind : c.kind.code = byteAt a 5
  onThreshold : c.onThreshold = if bitAt a 0 0 then 1200 else wordAt a 6
  offThreshold : c.offThreshold = if bitAt a 0 1 then 800 else wordAt a 8
  hang : c.hang = if bitAt a 0 2 then 50 else byteAt a 10
  defaultGain : c.defaultGain = if bitAt a 0 3 then 32768 else wordAt a 11

/-- Arguments that pass check 1 of R2 name an id and the loaded fields. -/
theorem exists_parseSource {a : List Byte} {id : Fin 48} (hid : byteAt a 1 = id.val) (hstream : byteAt a 4 < 4)
    (hkind : byteAt a 5 < 3) : ∃ c, parseSource a = some (id, c) ∧ NamesSource a c := by
  obtain ⟨kind, hcode⟩ := exists_kind_of_code_lt hkind
  have hparse : parseSource a = some (id,
      { station := BitVec.ofNat 16 (wordAt a 2), stream := ⟨byteAt a 4, hstream⟩, kind := kind
        onThreshold := orDefault (bitAt a 0 0) 1200 (wordAt a 6)
        offThreshold := orDefault (bitAt a 0 1) 800 (wordAt a 8)
        hang := orDefault (bitAt a 0 2) 50 (byteAt a 10)
        defaultGain := orDefault (bitAt a 0 3) 32768 (wordAt a 11) }) := by
    simp [parseSource, toId_val id hid, toId_val (⟨byteAt a 4, hstream⟩ : Fin 4) rfl, ← hcode]
  exact ⟨_, hparse, rfl, rfl, hcode, rfl, rfl, rfl, rfl⟩

/-! ### The clamps -/

@[simp] theorem clampSource_station (c : SourceConfig) : (clampSource c).station = c.station := rfl
@[simp] theorem clampSource_stream (c : SourceConfig) : (clampSource c).stream = c.stream := rfl
@[simp] theorem clampSource_kind (c : SourceConfig) : (clampSource c).kind = c.kind := rfl
@[simp] theorem clampSource_onThreshold (c : SourceConfig) :
    (clampSource c).onThreshold = min c.onThreshold 32768 := rfl
@[simp] theorem clampSource_hang (c : SourceConfig) : (clampSource c).hang = min c.hang 250 := rfl
@[simp] theorem clampSource_defaultGain (c : SourceConfig) : (clampSource c).defaultGain = c.defaultGain := rfl

/-- The off threshold's own bound is implied by the bound that the clamped on threshold gives it. -/
@[simp] theorem clampSource_offThreshold (c : SourceConfig) :
    (clampSource c).offThreshold = min c.offThreshold (min c.onThreshold 32768) := by
  simp only [clampSource]
  omega

theorem clampSource_ne_iff {c : SourceConfig} : clampSource c ≠ c ↔
    32768 < c.onThreshold ∨ min c.onThreshold 32768 < c.offThreshold ∨ 250 < c.hang := by
  have fields : clampSource c = c ↔ min c.onThreshold 32768 = c.onThreshold ∧
      min c.offThreshold (min c.onThreshold 32768) = c.offThreshold ∧ min c.hang 250 = c.hang := by
    rw [← clampSource_offThreshold]
    cases c
    simp [clampSource]
  rw [Ne, fields]
  omega

/-! ### The checks on the tables -/

theorem sameKey_iff {b c : SourceConfig} : sameKey b c = true ↔ b.station = c.station ∧ b.stream = c.stream := by
  simp [sameKey]

theorem keyTaken_iff {s : State} {id : Fin 48} {c : SourceConfig} :
    keyTaken s id c = true ↔ ∃ j r, j ≠ id ∧ s.source j = some r ∧ sameKey r.config c = true := by
  simp only [keyTaken, List.any_eq_true, List.mem_finRange, true_and, Bool.and_eq_true, decide_eq_true_eq]
  refine exists_congr fun j => ?_
  cases s.source j <;> simp [sameKey]

theorem changesIdentity_iff {s : State} {id : Fin 48} {c : SourceConfig} : changesIdentity s id c = true ↔
    ∃ r, s.source id = some r ∧ ¬ (sameKey r.config c = true ∧ r.config.kind = c.kind) := by
  unfold changesIdentity
  cases s.source id with
  | none => simp
  | some r => simp [imp_iff_not_or]

theorem isRunning_iff {t : Tour} : isRunning t = true ↔ t.live.phase = .live ∨ t.live.phase = .closing := by
  simp [isRunning]

theorem mem_planEntries_iff {p : Plan} {e : Fin 4} {x : Entry} :
    (e, x) ∈ planEntries p ↔ p.entries.get e = some x := by
  simp [planEntries]

theorem namedByTour_iff {s : State} {i : Fin 48} : namedByTour s i = true ↔
    ∃ k p, ((s.tour k).live.phase = .live ∨ (s.tour k).live.phase = .closing) ∧ (s.tour k).plan = some p ∧
      (p.guide = i ∨ ∃ e x, p.entries.get e = some x ∧ x.interpreter = some i) := by
  simp only [namedByTour, List.any_eq_true, List.mem_finRange, true_and, Bool.and_eq_true, isRunning_iff]
  refine exists_congr fun k => ?_
  cases (s.tour k).plan with
  | none => simp
  | some p => simp [mem_planEntries_iff]

/-! ### The live fields it leaves (R3) -/

theorem reloadedLive_none (c : SourceConfig) : reloadedLive none c = .initial := rfl

theorem reloadedLive_of_newKey {r : Source} {c : SourceConfig} (h : ¬ sameKey r.config c = true) :
    reloadedLive (some r) c = .initial := by
  simp [reloadedLive, h]

theorem reloadedLive_of_sameKey {r : Source} {c : SourceConfig} (h : sameKey r.config c = true) :
    reloadedLive (some r) c =
      if r.config.kind ≠ c.kind ∧ (r.config.kind = .guide ∨ c.kind = .guide)
      then { r.live with lastMark := none } else r.live := by
  simp only [reloadedLive, h, if_true]

/-! ### The outcomes -/

section Outcomes
variable {a : List Byte} {s : State} {id : Fin 48} {c : SourceConfig}

theorem loadSource_badArgument (h : parseSource a = none) : loadSource a s = refuse .badArgument s := by
  simp [loadSource, h]

theorem loadSource_exists (h : parseSource a = some (id, c)) (ht : keyTaken s id (clampSource c) = true) :
    loadSource a s = refuse .exists s := by
  simp [loadSource, h, ht]

theorem loadSource_wrongState (h : parseSource a = some (id, c)) (ht : ¬ keyTaken s id (clampSource c) = true)
    (hc : changesIdentity s id (clampSource c) = true) (hn : namedByTour s id = true) :
    loadSource a s = refuse .wrongState s := by
  simp [loadSource, h, ht, hc, hn]

theorem loadSource_applied (h : parseSource a = some (id, c)) (ht : ¬ keyTaken s id (clampSource c) = true)
    (hc : ¬ (changesIdentity s id (clampSource c) = true ∧ namedByTour s id = true)) :
    loadSource a s = answer (appliedStatus (decide (clampSource c ≠ c)))
      (s.putSource id (some ⟨clampSource c, reloadedLive (s.source id) (clampSource c)⟩)) := by
  simp only [loadSource, h, if_neg ht, Bool.and_eq_true, if_neg hc]

end Outcomes

/-- LOAD SOURCE in service offers its owner's answer as the reply (R2, R181). -/
theorem exec_loadSource {s : State} {req : Request} (h : Serving s 0x01 req) {x : Answer}
    (hx : loadSource (requestArgs req) s = x) :
    exec .loadSource s = .next (offerReply (replyTo req x.status x.data) x.state) := by
  change Host.Outcome.next (serve 0x01 loadSource s) = _
  rw [serve_serving _ h, hx]

/-- Settles O29: the arguments are parsed once, the obligation's conditions on the tables are the model's checks, and
each outcome of the owner is read off. -/
theorem loadSourceApplies : Obligations.LoadSourceApplies := by
  intro s req hserving a refused
  refine ⟨fun hbad => exec_loadSource hserving (loadSource_badArgument (parseSource_eq_none hbad)), ?_⟩
  intro id hid hstream hkind station on off hang keyed taken changed named
  obtain ⟨c, hparse, hc⟩ := exists_parseSource hid hstream hkind
  have keyed_iff (r : Source) : keyed r ↔ sameKey r.config (clampSource c) = true := by
    simp only [keyed, station, sameKey_iff, clampSource_station, clampSource_stream, hc.station, ← hc.stream,
      Fin.ext_iff]
  have taken_iff : taken ↔ keyTaken s id (clampSource c) = true := by
    simp only [taken, keyTaken_iff, keyed_iff]
  have changed_iff : changed ↔ changesIdentity s id (clampSource c) = true := by
    simp only [changed, changesIdentity_iff, keyed_iff, clampSource_kind, ← hc.kind, a, SourceKind.code_inj]
  have named_iff : named ↔ namedByTour s id = true := namedByTour_iff.symm
  have clamped_iff : clampSource c ≠ c ↔ 32768 < on ∨ min on 32768 < off ∨ 250 < hang := by
    simp only [clampSource_ne_iff, hc.onThreshold, hc.offThreshold, hc.hang, on, off, hang, a]
  refine ⟨fun ht => ?_, fun ht hch hn => ?_, fun ht hcn => ?_⟩
  · exact exec_loadSource hserving (loadSource_exists hparse (taken_iff.1 ht))
  · exact exec_loadSource hserving
      (loadSource_wrongState hparse (mt taken_iff.2 ht) (changed_iff.1 hch) (named_iff.1 hn))
  · rw [taken_iff] at ht
    rw [changed_iff, named_iff] at hcn
    refine ⟨_, ⟨clampSource c, reloadedLive (s.source id) (clampSource c)⟩, ?_, State.putSource_source_self s id _,
      fun j hj => ?_, putSource_keeps .refl (by decide), (keyed_iff _).2 (sameKey_iff.2 ⟨rfl, rfl⟩), hc.kind,
      ?_, ?_, ?_, hc.defaultGain, fun hnone => ?_, fun r hr => ⟨fun hk => ?_, fun hk => ?_⟩⟩
    · rw [exec_loadSource hserving (loadSource_applied hparse ht hcn)]
      simp only [answer_status, answer_data, answer_state, appliedStatus, decide_eq_true_eq, clamped_iff]
    · rw [State.putSource_source, if_neg hj]
    · rw [clampSource_onThreshold, hc.onThreshold]
    · rw [clampSource_offThreshold, hc.offThreshold, hc.onThreshold]
    · rw [clampSource_hang, hc.hang]
    · rw [hnone, reloadedLive_none]
    · rw [hr, reloadedLive_of_newKey (mt (keyed_iff r).2 hk)]
    · rw [hr, reloadedLive_of_sameKey ((keyed_iff r).1 hk)]

end Sys2Proof.Machine
end

section
/-! The mix of one program (R34 to R37): effective gains, exact sums, rounding, saturation, and the obligation on them. -/

namespace Sys2Proof.Machine

open Sys2Proof

/-! ### Effective gains (R34) -/

section Gains
variable {g : Nat} {x : Input}

theorem effectiveGain_voice (hv : x.cls = .voice) : effectiveGain g x = x.gain := by
  simp [effectiveGain, hv]

theorem effectiveGain_bed (hb : x.cls = .bed) : effectiveGain g x = (x.gain * g + 16384) / 32768 := by
  simp [effectiveGain, hb]

theorem effectiveGain_bed_unity (hb : x.cls = .bed) (hg : g = 32768) : effectiveGain g x = x.gain := by
  rw [effectiveGain_bed hb, hg]
  omega

theorem effectiveGain_bed_zero (hb : x.cls = .bed) (hg : g = 0) : effectiveGain g x = 0 := by
  rw [effectiveGain_bed hb, hg]
  omega

/-- A duck factor never raises a gain. -/
theorem effectiveGain_le_gain (hg : g ≤ 32768) : effectiveGain g x ≤ x.gain := by
  cases hc : x.cls with
  | voice => rw [effectiveGain_voice hc]
  | bed =>
    have scaled : x.gain * g ≤ x.gain * 32768 := Nat.mul_le_mul_left _ hg
    rw [effectiveGain_bed hc]
    omega

theorem effectiveGain_le (hx : x.gain ≤ 65535) (hg : g ≤ 32768) : effectiveGain g x ≤ 65535 :=
  (effectiveGain_le_gain hg).trans hx

end Gains

/-! ### Products and exact sums (R35) -/

theorem sample_toInt_bounds (y : Sample) : -32768 ≤ y.toInt ∧ y.toInt ≤ 32767 := by
  have low := BitVec.le_toInt y
  have high := BitVec.toInt_lt (x := y)
  omega

theorem sample_mul_gain_bounds (y : Sample) {e : Nat} (he : e ≤ 65535) :
    -2147450880 ≤ y.toInt * (e : Int) ∧ y.toInt * (e : Int) ≤ 2147385345 := by
  obtain ⟨low, high⟩ := sample_toInt_bounds y
  have lower : -32768 * (e : Int) ≤ y.toInt * e := Int.mul_le_mul_of_nonneg_right low (by omega)
  have upper : y.toInt * (e : Int) ≤ 32767 * e := Int.mul_le_mul_of_nonneg_right high (by omega)
  omega

theorem sampleSum_perm (g : Nat) {inputs others : List Input} (h : inputs.Perm others) :
    sampleSum g inputs = sampleSum g others :=
  funext fun _ => (h.map _).sum_eq

theorem sampleSum_bounds {g : Nat} {inputs : List Input} (hlen : inputs.length ≤ 6) (hg : g ≤ 32768)
    (hgain : ∀ x ∈ inputs, x.gain ≤ 65535) (n : Fin 64) :
    -12884705280 ≤ sampleSum g inputs n ∧ sampleSum g inputs n ≤ 12884312070 := by
  have product (x) (hx : x ∈ inputs) := sample_mul_gain_bounds (x.frame.get n) (effectiveGain_le (hgain x hx) hg)
  have low := List.card_nsmul_le_sum _ (-2147450880) (List.forall_mem_map.2 fun x hx => (product x hx).1)
  have high := List.sum_le_card_nsmul _ 2147385345 (List.forall_mem_map.2 fun x hx => (product x hx).2)
  simp only [List.length_map, nsmul_eq_mul] at low high
  unfold sampleSum
  omega

/-! ### Rounding (R36) -/

theorem roundSum_bounds (total : Int) :
    32768 * roundSum total ≤ total + 16384 ∧ total + 16384 < 32768 * roundSum total + 32768 := by
  unfold roundSum
  omega

theorem roundSum_mul_unity (y : Int) : roundSum (y * 32768) = y := by
  unfold roundSum
  omega

/-! ### Saturation (R37) -/

theorem saturate_ne_self_iff {y : Int} : saturate y ≠ y ↔ y < -32768 ∨ 32767 < y := by
  unfold saturate
  omega

theorem saturate_toInt (y : Sample) : saturate y.toInt = y.toInt := by
  have bounds := sample_toInt_bounds y
  unfold saturate
  omega

/-- A saturated value fits a sample, so writing it as one loses nothing. -/
theorem toInt_ofInt_saturate (y : Int) : (BitVec.ofInt 16 (saturate y)).toInt = saturate y :=
  BitVec.toInt_ofInt_eq_self (by decide) (by unfold saturate; omega) (by unfold saturate; omega)

/-! ### The frame and its clip -/

theorem mixFrame_get (g : Nat) (inputs : List Input) (n : Fin 64) :
    (mixFrame g inputs).get n = BitVec.ofInt 16 (saturate (roundSum (sampleSum g inputs n))) :=
  Tab.get_ofFn _ n

theorem mixFrame_toInt (g : Nat) (inputs : List Input) (n : Fin 64) :
    ((mixFrame g inputs).get n).toInt = saturate (roundSum (sampleSum g inputs n)) := by
  rw [mixFrame_get, toInt_ofInt_saturate]

theorem mixClips_iff {g : Nat} {inputs : List Input} : mixClips g inputs = true ↔
    ∃ n, roundSum (sampleSum g inputs n) < -32768 ∨ 32767 < roundSum (sampleSum g inputs n) := by
  simp [mixClips, ← saturate_ne_self_iff]

/-- The frame and its clip depend on the inputs through their sums alone. -/
theorem mix_congr {g : Nat} {inputs others : List Input} (h : sampleSum g inputs = sampleSum g others) :
    mixFrame g inputs = mixFrame g others ∧ mixClips g inputs = mixClips g others := by
  simp only [mixFrame, mixClips, h, and_self]

/-! ### A single VOICE input at unity gain (R36) -/

section Alone
variable {x : Input} (hv : x.cls = .voice) (hg : x.gain = 32768)
include hv hg

theorem roundSum_voice_unity (g : Nat) (n : Fin 64) : roundSum (sampleSum g [x] n) = (x.frame.get n).toInt := by
  have total : sampleSum g [x] n = (x.frame.get n).toInt * 32768 := by
    simp [sampleSum, effectiveGain_voice hv, hg]
  rw [total, roundSum_mul_unity]

theorem mixFrame_voice_unity (g : Nat) : mixFrame g [x] = x.frame := by
  refine Tab.ext_get fun n => BitVec.eq_of_toInt_eq ?_
  rw [mixFrame_toInt, roundSum_voice_unity hv hg, saturate_toInt]

theorem mixClips_voice_unity (g : Nat) : mixClips g [x] = false := by
  rw [Bool.eq_false_iff, Ne, mixClips_iff]
  rintro ⟨n, clipped⟩
  have bounds := sample_toInt_bounds (x.frame.get n)
  rw [roundSum_voice_unity hv hg] at clipped
  omega

end Alone

/-- Settles O53: gains, products, sums, rounding and saturation each have their own rule above, and the order of the inputs
does not matter because the sums do not depend on it. -/
theorem sumsRoundHalfUp : Obligations.SumsRoundHalfUp := by
  refine ⟨fun g x => ⟨effectiveGain_voice, effectiveGain_bed, effectiveGain_bed_unity, effectiveGain_bed_zero,
      effectiveGain_le⟩, roundSum_bounds, by decide, by decide, by decide, fun g inputs => ?_,
    fun g x hv hg => ⟨mixFrame_voice_unity hv hg g, mixClips_voice_unity hv hg g⟩⟩
  exact ⟨mixFrame_toInt g inputs, mixClips_iff, sampleSum_bounds,
    fun x _ hx hg n => sample_mul_gain_bounds (x.frame.get n) (effectiveGain_le hx hg),
    fun others h => mix_congr (sampleSum_perm g h)⟩

end Sys2Proof.Machine
end

section
/-! The Event Enable Table (R173): its masks, its reply, its value at reset, the frame of RESTART, and the obligation on it. -/

namespace Sys2Proof.Machine

open Sys2Proof

/-! ### Masks and the reply -/

/-- Four encoded bytes are read back as the value. -/
theorem quadAt_enc32 {n : Nat} (h : n < 4294967296) : quadAt (enc32 n) 0 = n := by
  simp [quadAt, wordAt, byteAt, enc32, enc16]
  omega

@[simp] theorem maskOf_getLsbD (args : List Byte) (i : Nat) :
    (maskOf args).getLsbD i = (decide (i < 31) && (quadAt args 0).testBit i) :=
  BitVec.getLsbD_ofNat ..

/-- A set bit of the mask sets its enable; bit 31 of the request is outside the table. -/
theorem or_maskOf_getLsbD (table : BitVec 31) (args : List Byte) {i : Nat} (hi : i < 31) :
    (table ||| maskOf args).getLsbD i = if (quadAt args 0).testBit i then true else table.getLsbD i := by
  rw [BitVec.getLsbD_or, maskOf_getLsbD]
  cases (quadAt args 0).testBit i <;> simp [hi]

/-- A set bit of the mask clears its enable. -/
theorem and_not_maskOf_getLsbD (table : BitVec 31) (args : List Byte) {i : Nat} (hi : i < 31) :
    (table &&& ~~~maskOf args).getLsbD i = if (quadAt args 0).testBit i then false else table.getLsbD i := by
  rw [BitVec.getLsbD_and, BitVec.getLsbD_not, maskOf_getLsbD]
  cases (quadAt args 0).testBit i <;> simp [hi]

section Serving
variable {s : State} {req : Request}

theorem exec_enableSet (h : Serving s 0x3A req) :
    let table := s.evq.enables ||| maskOf (requestArgs req)
    exec .enableSet s =
      .next (offerReply (replyTo req .done (enc32 table.toNat)) (s.withEvq { s.evq with enables := table })) :=
  congrArg Host.Outcome.next (serve_serving enableSet h)

theorem exec_enableClear (h : Serving s 0x3B req) :
    let table := s.evq.enables &&& ~~~maskOf (requestArgs req)
    exec .enableClear s =
      .next (offerReply (replyTo req .done (enc32 table.toNat)) (s.withEvq { s.evq with enables := table })) :=
  congrArg Host.Outcome.next (serve_serving enableClear h)

end Serving

/-! ### The resets -/

theorem exec_powerOn (straps : BitVec 4) (s : State) : exec (.powerOn straps) s = .next (resetHub straps s) := rfl

theorem exec_pinReset (straps : BitVec 4) (s : State) : exec (.pinReset straps) s = .next (resetHub straps s) := rfl

/-- Power-on and pin reset set the whole table. -/
theorem resetHub_enables_getLsbD (straps : BitVec 4) (s : State) {i : Nat} (hi : i < 31) :
    (resetHub straps s).evq.enables.getLsbD i = true := by
  have table : (resetHub straps s).evq.enables = BitVec.allOnes 31 := rfl
  rw [table, BitVec.getLsbD_allOnes, decide_eq_true hi]

/-! ### What RESTART leaves unchanged -/

section Restart
variable {s t : State} {ps : List Part}

theorem putMode_keeps {m : HallMode} (h : KeepsAllBut ps s t) (hm : Part.mode ∈ ps) :
    KeepsAllBut ps s (putMode m t) :=
  h.trans fun p hn => by cases p <;> first | exact absurd hm hn | rfl | simp [Part.same, putMode, State.rack]

theorem emptyClass1_keeps (h : KeepsAllBut ps s t) (hg : Part.egress ∈ ps) : KeepsAllBut ps s (emptyClass1 t) :=
  withEgress_keeps h rfl rfl hg

theorem markAllPending_keeps (h : KeepsAllBut ps s t) (hb : Part.bays ∈ ps) :
    KeepsAllBut ps s (markAllPending t) :=
  h.trans fun p hn => by
    cases p <;> first | exact absurd hb hn | rfl | simp [Part.same, markAllPending, State.rack]

theorem restartSources_keeps (h : KeepsAllBut ps s t) (hs : Part.sources ∈ ps) :
    KeepsAllBut ps s (restartSources t) := withSiu_keeps h hs

theorem restartPrograms_keeps (h : KeepsAllBut ps s t) (hp : Part.programs ∈ ps) :
    KeepsAllBut ps s (restartPrograms t) := withMxr_keeps h hp

theorem restartEvents_keeps (h : KeepsAllBut ps s t) (he : Part.events ∈ ps) :
    KeepsAllBut ps s (restartEvents t) := withEvents_keeps h rfl rfl he

/-- Counters of the racks and the unrouted counter change, and nothing else of the Rack Poller does. -/
theorem zeroRackCounters_keeps (h : KeepsAllBut ps s t) (hl : Part.rackLives ∈ ps) (hu : Part.unroutedRack ∈ ps) :
    KeepsAllBut ps s (t.withRpl { t.rpl with
      racks := t.rpl.racks.map fun r => { r with live := { r.live with counters := .zero } }, unroutedRack := 0 }) :=
  h.trans fun p hn => by
    cases p <;> first | exact absurd hl hn | exact absurd hu hn | rfl | simp [Part.same, State.rack]

theorem zeroSchedCounters_keeps (h : KeepsAllBut ps s t) (hc : Part.sched ∈ ps) :
    KeepsAllBut ps s (t.withChs { t.chs with sched := t.chs.sched.map fun q => { q with counters := .zero } }) :=
  h.trans fun p hn => by cases p <;> first | exact absurd hc hn | rfl | simp [Part.same, State.rack]

theorem zeroCounters_keeps (h : KeepsAllBut ps s t) (hf : Part.fleetCounters ∈ ps) (hl : Part.rackLives ∈ ps)
    (hu : Part.unroutedRack ∈ ps) (hc : Part.sched ∈ ps) (hg : Part.egress ∈ ps) (hm : Part.requests ∈ ps) :
    KeepsAllBut ps s (zeroCounters t) := by
  have racks := zeroRackCounters_keeps (withFlt_keeps h (x := { t.flt with
    unknownDocks := 0, unplannedTakes := 0, lateReturns := 0 }) rfl hf) hl hu
  have link := withEgress_keeps (zeroSchedCounters_keeps racks hc) (x := { t.hli with counters := .zero }) rfl rfl hg
  exact withRequests_keeps link (x := { t.mge with received := 0, busyReplies := 0, badRequests := 0 }) rfl rfl rfl hm

/-- The nine steps of RESTART keep every part that its row does not name (R184). -/
theorem restartHub_keeps (s : State) : KeepsAllBut (mayChange .restart) s (restartHub s) := by
  have closed : KeepsAllBut (mayChange .restart) s (closeAll true s) := closeAll_keeps .refl
    (by decide) (by decide) (by decide) (by decide) (by decide) (by decide) (by decide)
  have refreshed := refreshAll_keeps (emptyClass1_keeps (putMode_keeps (m := .closed) closed (by decide)) (by decide))
    (by decide) (by decide)
  have emptied := restartEvents_keeps (restartPrograms_keeps (restartSources_keeps
    (markAllPending_keeps refreshed (by decide)) (by decide)) (by decide)) (by decide)
  exact zeroCounters_keeps emptied (by decide) (by decide) (by decide) (by decide) (by decide) (by decide)

/-- RESTART keeps every part that its row does not name, whether a request is in service or not (R184). -/
theorem exec_restart_keeps (h : exec .restart s = .next t) : KeepsAllBut (mayChange .restart) s t := by
  cases h
  exact serveRacks_keeps (fun _ => restartHub_keeps s) .refl (by decide) (by decide) (by decide) (by decide)

theorem exec_restart_enables (h : exec .restart s = .next t) : t.evq.enables = s.evq.enables :=
  exec_restart_keeps h .enables (by decide)

end Restart

/-- Settles O46: both commands answer with the table that their mask gives, four bytes carry a table whole, the resets set
every enable, and RESTART's frame holds the table. -/
theorem enableMasksApplied : Obligations.EnableMasksApplied := by
  refine ⟨fun s req => ⟨fun hset => ⟨_, exec_enableSet hset, fun i hi => or_maskOf_getLsbD _ _ hi⟩,
      fun hclear => ⟨_, exec_enableClear hclear, fun i hi => and_not_maskOf_getLsbD _ _ hi⟩⟩,
    fun table => quadAt_enc32 (by omega), fun s t => ⟨fun straps i hi => ⟨fun h => ?_, fun h => ?_⟩,
      exec_restart_enables⟩⟩
  · cases (exec_powerOn straps s).symm.trans h
    exact resetHub_enables_getLsbD straps s hi
  · cases (exec_pinReset straps s).symm.trans h
    exact resetHub_enables_getLsbD straps s hi

end Sys2Proof.Machine
end

section
/-! The frame of every command (00, blocks of the hub): one lemma per owner of a request and per action of the link and of
the hub's clock, and the obligation on them. -/

namespace Sys2Proof.Machine

open Sys2Proof

variable {s t u : State} {ps : List Part} {a : List Byte}

/-! ### Owners of requests -/

section Owners

theorem loadSource_keeps (h : KeepsAllBut ps s t) (hs : Part.sources ∈ ps) :
    KeepsAllBut ps s (loadSource a t).state := by
  simp only [loadSource]
  repeat' split
  exacts [h, h, h, putSource_keeps h hs]

theorem readAnswer_keeps {fs : List Field} (h : KeepsAllBut ps s t) (hc : Part.choices ∈ ps) :
    KeepsAllBut ps s (readAnswer fs t).state := useChoice_keeps h hc

theorem readSource_keeps (h : KeepsAllBut ps s t) (hc : Part.choices ∈ ps) :
    KeepsAllBut ps s (readSource a t).state := by
  unfold readSource
  repeat' split
  exacts [h, h, readAnswer_keeps h hc]

theorem loadProgram_keeps (h : KeepsAllBut ps s t) (hp : Part.programs ∈ ps) :
    KeepsAllBut ps s (loadProgram a t).state := by
  unfold loadProgram
  repeat' split
  exacts [h, h, putProgram_keeps h hp]

theorem stageGain_keeps (h : KeepsAllBut ps s t) (hp : Part.programs ∈ ps) :
    KeepsAllBut ps s (stageGain a t).state := by
  simp only [stageGain]
  repeat' split
  exacts [putProgram_keeps h hp, h, h]

theorem readProgram_keeps (h : KeepsAllBut ps s t) (hc : Part.choices ∈ ps) :
    KeepsAllBut ps s (readProgram a t).state := by
  unfold readProgram
  repeat' split
  exacts [h, readAnswer_keeps h hc, h]

theorem changeChannel_keeps {ch : Fin 24} {p : Option (Fin 32)} {zs : ZoneSet} (h : KeepsAllBut ps s t)
    (hz : Part.zones ∈ ps) (hp : Part.programs ∈ ps) : KeepsAllBut ps s (changeChannel ch p zs t) := by
  unfold changeChannel
  repeat' split
  exacts [h, freeChannel_keeps h hz hp, setZones_keeps h hz,
    bindChannel_keeps (unbindProgram_keeps h hp) hz hp, bindChannel_keeps h hz hp]

theorem loadChannel_keeps (h : KeepsAllBut ps s t) (hz : Part.zones ∈ ps) (ht : Part.tours ∈ ps)
    (hp : Part.programs ∈ ps) (he : Part.events ∈ ps) (hg : Part.egress ∈ ps) :
    KeepsAllBut ps s (loadChannel a t).state := by
  have applied (zs : ZoneSet) (ch : Fin 24) (p : Option (Fin 32)) (ys : ZoneSet) :
      KeepsAllBut ps s (serveZones zs (changeChannel ch p ys t)) :=
    serveZones_keeps (changeChannel_keeps h hz hp) hz ht he hg
  simp only [loadChannel]
  split
  · exact h
  split
  · exact h
  split
  · exact applied _ _ _ _
  split
  · exact h
  split
  · exact h
  split
  exacts [h, applied _ _ _ _]

theorem readChannel_keeps (h : KeepsAllBut ps s t) (hc : Part.choices ∈ ps) :
    KeepsAllBut ps s (readChannel a t).state := by
  unfold readChannel
  split
  exacts [h, readAnswer_keeps h hc]

theorem readZone_keeps (h : KeepsAllBut ps s t) (hc : Part.choices ∈ ps) :
    KeepsAllBut ps s (readZone a t).state := by
  unfold readZone
  split
  exacts [h, readAnswer_keeps h hc]

theorem loadTourPlan_keeps (h : KeepsAllBut ps s t) (ht : Part.tours ∈ ps) :
    KeepsAllBut ps s (loadTourPlan a t).state := by
  simp only [loadTourPlan]
  split
  · exact h
  split
  · exact h
  split
  exacts [h, putTour_keeps h ht]

theorem loadTourTiming_keeps (h : KeepsAllBut ps s t) (ht : Part.tours ∈ ps) :
    KeepsAllBut ps s (loadTourTiming a t).state := by
  simp only [loadTourTiming]
  repeat' split
  exacts [h, h, putTour_keeps h ht]

theorem clearTour_keeps (h : KeepsAllBut ps s t) (ht : Part.tours ∈ ps) :
    KeepsAllBut ps s (clearTour a t).state := by
  unfold clearTour
  repeat' split
  exacts [h, putTour_keeps h ht, h]

theorem readTour_keeps (h : KeepsAllBut ps s t) (hc : Part.choices ∈ ps) :
    KeepsAllBut ps s (readTour a t).state := by
  simp only [readTour]
  repeat' split
  exacts [h, readAnswer_keeps h hc, readAnswer_keeps h hc, readAnswer_keeps h hc]

theorem tourStart_keeps (h : KeepsAllBut ps s t) (hz : Part.zones ∈ ps) (ht : Part.tours ∈ ps)
    (hp : Part.programs ∈ ps) (hr : Part.receivers ∈ ps) (hb : Part.bays ∈ ps) (he : Part.events ∈ ps)
    (hg : Part.egress ∈ ps) (hc : Part.choices ∈ ps) : KeepsAllBut ps s (tourStart a t).state := by
  unfold tourStart
  repeat' split
  exacts [h, h, readAnswer_keeps (startTour_keeps h hz ht hp hr hb he hg) hc]

theorem reserveFor_keeps {slot : Fin 16} {e : Fin 4} {n : Nat} (h : KeepsAllBut ps s t) (hr : Part.receivers ∈ ps)
    (hb : Part.bays ∈ ps) (ht : Part.tours ∈ ps) : KeepsAllBut ps s (reserveFor slot e n t).2 := by
  simp only [reserveFor]
  split
  exacts [h, reserve_keeps h hr hb ht]

theorem reserveMore_keeps (h : KeepsAllBut ps s t) (hr : Part.receivers ∈ ps) (hb : Part.bays ∈ ps)
    (ht : Part.tours ∈ ps) : KeepsAllBut ps s (reserveMore a t).state := by
  simp only [reserveMore]
  repeat' split
  exacts [h, h, reserveFor_keeps (putLive_keeps h ht) hr hb ht, h]

section Close
variable (h : KeepsAllBut ps s t) (hr : Part.receivers ∈ ps) (hb : Part.bays ∈ ps) (ht : Part.tours ∈ ps)
  (hp : Part.programs ∈ ps) (hz : Part.zones ∈ ps) (he : Part.events ∈ ps) (hg : Part.egress ∈ ps)
include h hr hb ht hp hz he hg

theorem endTour_keeps {slot : Fin 16} : KeepsAllBut ps s (endTour slot t) := by
  have ended (l : TourLive) := putLive_keeps (i := slot) (x := l)
    (releaseRun_keeps (slot := slot) (run := (t.tour slot).live.run) h hr hb ht) ht
  simp only [endTour]
  exact ite_keeps (closeTour_keeps (ended _) hr hb ht hp hz he hg) (ended _)

theorem tourEnd_keeps : KeepsAllBut ps s (tourEnd a t).state := by
  simp only [tourEnd, endReply]
  repeat' split
  all_goals dsimp only [refuse_state]
  exacts [h, h, endTour_keeps h hr hb ht hp hz he hg, h, h]

theorem tourAbort_keeps : KeepsAllBut ps s (tourAbort a t).state := by
  simp only [tourAbort]
  repeat' split
  all_goals dsimp only [refuse_state]
  exacts [h, closeTour_keeps h hr hb ht hp hz he hg, h]

end Close

theorem enrolTag_keeps {tag : RxTag} {n : Fin 384} (h : KeepsAllBut ps s t) (hr : Part.receivers ∈ ps)
    (hb : Part.bays ∈ ps) : KeepsAllBut ps s (enrolTag tag n t) := by
  unfold enrolTag
  split
  exacts [putReceiver_keeps h hr, judge_keeps (putBay_keeps (putReceiver_keeps h hr) hb) hb]

theorem enrol_keeps (h : KeepsAllBut ps s t) (hr : Part.receivers ∈ ps) (hb : Part.bays ∈ ps) :
    KeepsAllBut ps s (enrol a t).state := by
  simp only [enrol]
  repeat' split
  exacts [h, h, h, enrolTag_keeps h hr hb]

theorem retireRecord_keeps {n : Fin 384} {r : Receiver} (h : KeepsAllBut ps s t) (hr : Part.receivers ∈ ps)
    (hb : Part.bays ∈ ps) (hc : Part.sched ∈ ps) : KeepsAllBut ps s (retireRecord n r t) := by
  simp only [retireRecord]
  split
  exacts [endOrJudge_keeps (putBay_keeps (putReceiver_keeps h hr) hb) hc hb hr, putReceiver_keeps h hr]

theorem retire_keeps (h : KeepsAllBut ps s t) (hr : Part.receivers ∈ ps) (hb : Part.bays ∈ ps)
    (hc : Part.sched ∈ ps) : KeepsAllBut ps s (retire a t).state := by
  unfold retire
  repeat' split
  exacts [h, h, h, retireRecord_keeps h hr hb hc]

theorem readReceiver_keeps (h : KeepsAllBut ps s t) (hc : Part.choices ∈ ps) :
    KeepsAllBut ps s (readReceiver a t).state := by
  unfold readReceiver
  repeat' split
  exacts [h, h, readAnswer_keeps h hc]

theorem loadRackConfig_keeps (h : KeepsAllBut ps s t) (hl : Part.rackLives ∈ ps) (hk : Part.rackConfigs ∈ ps)
    (hc : Part.sched ∈ ps) (hb : Part.bays ∈ ps) (he : Part.events ∈ ps) (hg : Part.egress ∈ ps) :
    KeepsAllBut ps s (loadRackConfig a t).state := by
  unfold loadRackConfig
  repeat' split
  exacts [h, h, applyRackConfig_keeps h hl hk hb hc he hg]

theorem readRack_keeps (h : KeepsAllBut ps s t) (hc : Part.choices ∈ ps) :
    KeepsAllBut ps s (readRack a t).state := by
  unfold readRack
  split
  exacts [h, readAnswer_keeps h hc]

theorem readBay_keeps (h : KeepsAllBut ps s t) (hc : Part.choices ∈ ps) :
    KeepsAllBut ps s (readBay a t).state := by
  unfold readBay
  split
  exacts [h, readAnswer_keeps h hc]

theorem withCurve_keeps {c : Tab CurvePoint 8} (h : KeepsAllBut ps s t) (hc : Part.curve ∈ ps) :
    KeepsAllBut ps s (t.withRpl { t.rpl with curve := c }) :=
  h.trans fun p hn => by cases p <;> first | exact absurd hc hn | rfl | simp [Part.same, State.rack]

theorem loadLevelCurve_keeps (h : KeepsAllBut ps s t) (hc : Part.curve ∈ ps) :
    KeepsAllBut ps s (loadLevelCurve a t).state := by
  unfold loadLevelCurve
  split
  exacts [withCurve_keeps h hc, h]

theorem withTable_keeps {x : BandTable} (h : KeepsAllBut ps s t) (hb : Part.bandTable ∈ ps) :
    KeepsAllBut ps s (t.withChs { t.chs with table := x }) :=
  h.trans fun p hn => by cases p <;> first | exact absurd hb hn | rfl | simp [Part.same, State.rack]

theorem loadThermalTable_keeps (h : KeepsAllBut ps s t) (hx : Part.bandTable ∈ ps) (hc : Part.sched ∈ ps)
    (hb : Part.bays ∈ ps) (he : Part.events ∈ ps) (hg : Part.egress ∈ ps) :
    KeepsAllBut ps s (loadThermalTable a t).state := by
  unfold loadThermalTable applyBandTable
  split
  all_goals dsimp only [refuse_state, answer_state]
  exacts [h, forEach_keeps (fun _ _ k => treatRack_keeps k hc hb he hg) (withTable_keeps h hx)]

theorem withMode_keeps {m : HallMode} (h : KeepsAllBut ps s t) (hm : Part.mode ∈ ps) :
    KeepsAllBut ps s (putMode m t) :=
  h.trans fun p hn => by cases p <;> first | exact absurd hm hn | rfl | simp [Part.same, State.rack, putMode]

theorem setHallMode_keeps (h : KeepsAllBut ps s t) (hm : Part.mode ∈ ps) (hc : Part.sched ∈ ps)
    (hr : Part.receivers ∈ ps) (hb : Part.bays ∈ ps) (ht : Part.tours ∈ ps)
    (hp : Part.programs ∈ ps) (hz : Part.zones ∈ ps) (he : Part.events ∈ ps) (hg : Part.egress ∈ ps) :
    KeepsAllBut ps s (setHallMode a t).state := by
  have closed : KeepsAllBut ps s (closeHall t) := by
    unfold closeHall
    exact refreshAll_keeps (withMode_keeps (closeAll_keeps h hr hb ht hp hz he hg) hm) hc hb
  have opened : KeepsAllBut ps s (openHall t) := by
    unfold openHall airPrograms
    exact refreshAll_keeps (withMxr_keeps (withMode_keeps h hm) hp) hc hb
  simp only [setHallMode, modeReply]
  repeat' split
  all_goals dsimp only [refuse_state]
  exacts [h, h, closed, opened]

theorem setTime_keeps (h : KeepsAllBut ps s t) (hk : Part.clock ∈ ps) (hm : Part.hubTime ∈ ps)
    (hr : Part.receivers ∈ ps) (he : Part.events ∈ ps) (hg : Part.egress ∈ ps) :
    KeepsAllBut ps s (setTime a t).state := by
  have timed : KeepsAllBut ps s (t.withMge { t.mge with hubTime := quadAt a 0 }) :=
    h.trans fun p hn => by cases p <;> first | exact absurd hm hn | rfl | simp [Part.same, State.rack]
  simp only [setTime]
  exact judgeDeadlines_keeps (withClock_keeps timed hk) hr he hg

theorem setHallSettings_keeps (h : KeepsAllBut ps s t) (hm : Part.settings ∈ ps) :
    KeepsAllBut ps s (setHallSettings a t).state := by
  unfold setHallSettings
  split
  · exact h
  · exact h.trans fun p hn => by cases p <;> first | exact absurd hm hn | rfl | simp [Part.same, State.rack]

end Owners

/-! ### The hall link -/

section Link

theorem placedWhen_keeps {kind : Origin → Bool} (h : KeepsAllBut ps s t) (hg : Part.egress ∈ ps)
    (ho : ∀ o, kind o = true → told o ⊆ ps) : KeepsAllBut ps s (placedWhen kind t) := by
  unfold placedWhen
  repeat' split
  exacts [completePlacing_keeps h hg (ho _ ‹_›), h, h]

theorem dropLink_keeps (h : KeepsAllBut ps s t) (hk : Part.link ∈ ps) (hg : Part.egress ∈ ps)
    (hl : Part.rackLives ∈ ps) (hb : Part.bays ∈ ps) (hs : Part.sender ∈ ps) : KeepsAllBut ps s (dropLink t) := by
  have told_le : ∀ o, told o ⊆ ps := fun o p hp => by
    cases o <;> simp only [told, List.mem_singleton, List.not_mem_nil] at hp <;> subst hp
    exacts [hl, hs]
  refine rackSender_keeps (forEach_keeps (fun f _ k => discardFrame_keeps k hg (told_le _)) ?_) hb hs hg
  exact h.trans fun p hn => by
    cases p <;> first | exact absurd hk hn | exact absurd hg hn | rfl | simp [Part.same, State.rack]

theorem withDesk_keeps {d : Option Station} (h : KeepsAllBut ps s t) (hd : Part.desk ∈ ps) :
    KeepsAllBut ps s (t.withEvq { t.evq with desk := d }) :=
  h.trans fun p hn => by cases p <;> first | exact absurd hd hn | rfl | simp [Part.same, State.rack]

theorem takeRequest_keeps {x : Station} (h : KeepsAllBut ps s t) (hd : Part.desk ∈ ps) (hm : Part.requests ∈ ps)
    (hg : Part.egress ∈ ps) : KeepsAllBut ps s (takeRequest x a t) := by
  have counted := withRequests_keeps (withDesk_keeps (d := some x) h hd)
    (x := { t.mge with received := satAdd t.mge.received 1 }) rfl rfl rfl hm
  simp only [takeRequest]
  split
  · exact takeNext_keeps (withRequests_keeps counted rfl rfl rfl hm) hm
  · exact handOverSpare_keeps (withRequests_keeps counted rfl rfl rfl hm) hg (List.nil_subset _)

theorem takeSourceFrame_keeps {i : Fin 48} {r : Source} (h : KeepsAllBut ps s t) (hs : Part.sources ∈ ps)
    (ht : Part.tours ∈ ps) (hp : Part.programs ∈ ps) (hz : Part.zones ∈ ps) (he : Part.events ∈ ps)
    (hg : Part.egress ∈ ps) : KeepsAllBut ps s (takeSourceFrame i r a t) := by
  simp only [takeSourceFrame]
  repeat' split
  exacts [putSource_keeps h hs, putSource_keeps h hs, putSource_keeps h hs,
    passAdvance_keeps (putSource_keeps h hs) hs ht hp hz he hg, putSource_keeps h hs]

theorem takeAudio_keeps {x : Station} (h : KeepsAllBut ps s t) (hs : Part.sources ∈ ps)
    (ht : Part.tours ∈ ps) (hp : Part.programs ∈ ps) (hz : Part.zones ∈ ps) (he : Part.events ∈ ps)
    (hg : Part.egress ∈ ps) : KeepsAllBut ps s (takeAudio x a t) := by
  simp only [takeAudio]
  repeat' split
  exacts [putLinkCounters_keeps h hg, putLinkCounters_keeps h hg, putLinkCounters_keeps h hg,
    takeSourceFrame_keeps h hs ht hp hz he hg]

section RackFrames
variable (h : KeepsAllBut ps s t) (hu : Part.unroutedRack ∈ ps) (hl : Part.rackLives ∈ ps)
  (hb : Part.bays ∈ ps) (hc : Part.sched ∈ ps) (hr : Part.receivers ∈ ps) (ht : Part.tours ∈ ps)
  (hf : Part.fleetCounters ∈ ps) (hs : Part.sender ∈ ps) (he : Part.events ∈ ps) (hg : Part.egress ∈ ps)
include h hu hl hb hc hr ht hf hs he hg

theorem takeStatus_keeps {x : Station} (hx : Part.choices ∈ ps) : KeepsAllBut ps s (takeStatus x a t) := by
  unfold takeStatus
  repeat' split
  exacts [countUnroutedRack_keeps h hu, countMalformedRack_keeps h hl,
    rackSender_keeps (takeReading_keeps (settlePoll_keeps (useChoice_keeps h hx) hl hb hc he hg)
      hl hc hb hr ht hf he hg) hb hs hg]

theorem takeNotice_keeps {x : Station} : KeepsAllBut ps s (takeNotice x a t) := by
  simp only [takeNotice]
  split
  · exact countUnroutedRack_keeps h hu
  split
  · exact countMalformedRack_keeps h hl
  exact rackSender_keeps (comparePresence_keeps h hb hc hr ht hf he hg) hb hs hg

end RackFrames

/-- The parts that a frame of each kind may change (R162). -/
def dispatchParts : IngressKind → List Part
  | .audioUp => audioParts
  | .bayStatus => statusParts
  | .dockNotice => noticeParts
  | .mgmtRequest => requestParts

theorem dispatchFrame_keeps {k : IngressKind} {x : Station} (h : KeepsAllBut ps s t) (hp : dispatchParts k ⊆ ps) :
    KeepsAllBut ps s (dispatchFrame k x a t) := by
  have go {u : State} (hk : KeepsAllBut (dispatchParts k) t u) : KeepsAllBut ps s u := h.trans (hk.mono hp)
  refine go ?_
  cases k with
  | audioUp => exact takeAudio_keeps .refl (by decide) (by decide) (by decide) (by decide) (by decide) (by decide)
  | bayStatus =>
    simp only [dispatchFrame]
    split
    · exact takeStatus_keeps .refl (by decide) (by decide) (by decide) (by decide) (by decide) (by decide)
        (by decide) (by decide) (by decide) (by decide) (by decide)
    · exact putLinkCounters_keeps .refl (by decide)
  | dockNotice =>
    simp only [dispatchFrame]
    split
    · exact takeNotice_keeps .refl (by decide) (by decide) (by decide) (by decide) (by decide) (by decide)
        (by decide) (by decide) (by decide) (by decide)
    · exact putLinkCounters_keeps .refl (by decide)
  | mgmtRequest => exact takeRequest_keeps .refl (by decide) (by decide) (by decide)

theorem dispatchParts_egress (k : IngressKind) : Part.egress ∈ dispatchParts k := by cases k <;> decide

/-- The kind by which an accepted frame is dispatched is the one of its kind code (Table 8-2, R161). -/
theorem judgeFrame_kind {x y : Station} {frame payload : List Byte} {k : IngressKind}
    (h : judgeFrame x frame = .accepted k y payload) : ingressKind (byteAt frame 4) = some k := by
  simp only [judgeFrame] at h
  repeat' split at h
  all_goals cases h
  assumption

theorem ingressKind_of_code {frame : List Byte} {c : Byte} (h : (frameKindCode frame == some c) = true) :
    ingressKind (byteAt frame 4) = ingressKind c.toNat := by
  have hc : frame[4]? = some c := by simpa [frameKindCode] using h
  simp [byteAt, hc]

/-- An arriving frame changes the parts of the kind it is dispatched by, if it is at all (R161, R162). -/
theorem arrive_keeps {frame : List Byte} (h : KeepsAllBut ps s t) (hg : Part.egress ∈ ps)
    (hk : ∀ k, ingressKind (byteAt frame 4) = some k → dispatchParts k ⊆ ps) :
    KeepsAllBut ps s (arrive frame t) := by
  unfold arrive
  split
  · split
    · exact putLinkCounters_keeps h hg
    · rename_i hj
      exact dispatchFrame_keeps (putLinkCounters_keeps h hg) (hk _ (judgeFrame_kind hj))
  · exact h

/-- A frame whose kind code is the one of its row changes what that row names. -/
theorem arrive_keeps_kind {frame : List Byte} {c : Byte} {k : IngressKind}
    (hf : (frameKindCode frame == some c) = true) (hc : ingressKind c.toNat = some k) :
    KeepsAllBut (dispatchParts k) s (arrive frame s) :=
  arrive_keeps .refl (dispatchParts_egress k) fun k' hk' => by
    rw [ingressKind_of_code hf, hc] at hk'
    cases hk'
    exact List.Subset.refl _

theorem badRequest_keeps (h : KeepsAllBut ps s t) (hm : Part.requests ∈ ps) (hg : Part.egress ∈ ps) :
    KeepsAllBut ps s (badRequest t) := by
  unfold badRequest
  repeat' split
  exacts [h, offerReply_keeps (withRequests_keeps h rfl rfl rfl hm) hm hg, h, h]

theorem acceptHeld_keeps (h : KeepsAllBut ps s t) (hm : Part.requests ∈ ps) (hg : Part.egress ∈ ps) :
    KeepsAllBut ps s (acceptHeld t) := by
  unfold acceptHeld
  split
  exacts [offerReply_keeps h hm hg, h, h]

/-- The resets keep the queue of commands and the count of free values, which are the model's own (log 18). -/
theorem resetHub_keeps (straps : BitVec 4) (s : State) :
    KeepsAllBut (mayChange (.powerOn straps)) s (resetHub straps s) := by
  intro p hp
  cases p with
  | choices => rfl
  | pending => rfl
  | _ => exact absurd (by simp [mayChange]) hp

end Link

/-! ### The hub's clock -/

section Clock

theorem mixSource_keeps {i : Fin 48} (h : KeepsAllBut ps s t) (hs : Part.sources ∈ ps) (he : Part.events ∈ ps)
    (hg : Part.egress ∈ ps) : KeepsAllBut ps s (mixSource i t) := by
  simp only [mixSource]
  repeat' split
  exacts [h, raiseEvent_keeps (putSource_keeps h hs) he hg, putSource_keeps h hs]

theorem mixPoint_keeps (s : State) : KeepsAllBut (mayChange .mixPoint) s (mixPoint s) := by
  have sources : KeepsAllBut (mayChange .mixPoint) s (takeSources (reachMix s)) :=
    forEach_keeps (fun _ _ k => mixSource_keeps k (by decide) (by decide) (by decide))
      (withClock_keeps (reach_keeps .refl (by decide)) (by decide))
  exact sources.trans ((runMix_keeps (reachMix s)).mono (by decide))

theorem sourceStale_keeps {i : Fin 48} (h : KeepsAllBut ps s t) (hs : Part.sources ∈ ps) (he : Part.events ∈ ps)
    (hg : Part.egress ∈ ps) : KeepsAllBut ps s (sourceStale i t) := by
  unfold sourceStale
  repeat' split
  exacts [h, mixSource_keeps h hs he hg, h]

theorem voiceFlagClear_keeps {i : Fin 48} (h : KeepsAllBut ps s t) (hs : Part.sources ∈ ps) :
    KeepsAllBut ps s (voiceFlagClear i t) := by
  unfold voiceFlagClear
  repeat' split
  exacts [h, putSource_keeps h hs, h]

theorem countSilence_keeps_stage0 {slot : Fin 16} (h0 : (t.tour slot).live.stage = 0) (h : KeepsAllBut ps s t)
    (ht : Part.tours ∈ ps) (he : Part.events ∈ ps) (hg : Part.egress ∈ ps) :
    KeepsAllBut ps s (countSilence slot t) := by
  simp only [countSilence, h0, if_true]
  split
  exacts [raiseTour_keeps (putLive_keeps h ht) he hg, putLive_keeps h ht]

theorem hubTimeTick_keeps (h : KeepsAllBut ps s t) (hk : Part.clock ∈ ps) (hm : Part.hubTime ∈ ps)
    (hr : Part.receivers ∈ ps) (he : Part.events ∈ ps) (hg : Part.egress ∈ ps) :
    KeepsAllBut ps s (hubTimeTick t) := by
  have moved := withClock_keeps (x := { (t.reach t.clock.nextSecond).clock with
    nextSecond := t.clock.nextSecond + 1000 }) (reach_keeps (n := t.clock.nextSecond) h hk) hk
  simp only [hubTimeTick]
  split
  · refine judgeDeadlines_keeps (moved.trans fun p hn => ?_) hr he hg
    cases p <;> first | exact absurd hm hn | rfl | simp [Part.same, State.rack]
  · exact moved

theorem spacingExpiry_keeps {r : Fin 12} (h : KeepsAllBut ps s t) (hk : Part.clock ∈ ps) (hl : Part.rackLives ∈ ps)
    (hg : Part.egress ∈ ps) : KeepsAllBut ps s (spacingExpiry r t) := by
  simp only [spacingExpiry]
  repeat' split
  exacts [h, sendPoll_keeps (putRackLive_keeps (reach_keeps h hk) hl) hl hg,
    putRackLive_keeps (reach_keeps h hk) hl]

theorem pollTimeout_keeps {r : Fin 12} (h : KeepsAllBut ps s t) (hk : Part.clock ∈ ps) (hl : Part.rackLives ∈ ps)
    (hc : Part.sched ∈ ps) (hb : Part.bays ∈ ps) (he : Part.events ∈ ps) (hg : Part.egress ∈ ps) :
    KeepsAllBut ps s (pollTimeout r t) := by
  simp only [pollTimeout]
  split
  · exact h
  · exact startSpacing_keeps (ite_keeps
      (rackOffline_keeps (putRackLive_keeps (reach_keeps h hk) hl) hl hb hc he hg)
      (putRackLive_keeps (reach_keeps h hk) hl)) hl

theorem settleExpiry_keeps {b : Fin 288} {x y : Settle} (h : KeepsAllBut ps s t) (hk : Part.clock ∈ ps)
    (hb : Part.bays ∈ ps) : KeepsAllBut ps s (settleExpiry b x y t) := by
  simp only [settleExpiry]
  repeat' split
  exacts [h, putBay_keeps (reach_keeps h hk) hb, h]

theorem cadenceExpiry_keeps {r : Fin 12} (h : KeepsAllBut ps s t) (hk : Part.clock ∈ ps) (hc : Part.sched ∈ ps)
    (hb : Part.bays ∈ ps) (hr : Part.receivers ∈ ps) (he : Part.events ∈ ps) (hs : Part.sender ∈ ps)
    (hg : Part.egress ∈ ps) : KeepsAllBut ps s (cadenceExpiry r t) := by
  unfold cadenceExpiry
  split
  exacts [h, rackSender_keeps (restartCadence_keeps (cadenceAct_keeps (reach_keeps h hk) hc hb hr he hg) hc) hb hs hg]

theorem turnExpiry_keeps {r : Fin 12} {b : Fin 24} (h : KeepsAllBut ps s t) (hk : Part.clock ∈ ps)
    (hc : Part.sched ∈ ps) (hb : Part.bays ∈ ps) (hr : Part.receivers ∈ ps) (hs : Part.sender ∈ ps)
    (hg : Part.egress ∈ ps) : KeepsAllBut ps s (turnExpiry r b t) := by
  unfold turnExpiry
  split
  exacts [h, rackSender_keeps (endTurn_keeps (reach_keeps h hk) hc hb hr) hb hs hg]

end Clock

theorem withEnables_keeps {e : BitVec 31} (h : KeepsAllBut ps s t) (he : Part.enables ∈ ps) :
    KeepsAllBut ps s (t.withEvq { t.evq with enables := e }) :=
  h.trans fun p hn => by cases p <;> first | exact absurd he hn | rfl | simp [Part.same, State.rack]

theorem withHli_keeps {x : Hli} (h : KeepsAllBut ps s t) (hx : x.station = t.hli.station) (hk : Part.link ∈ ps)
    (hg : Part.egress ∈ ps) : KeepsAllBut ps s (t.withHli x) :=
  h.trans fun p hn => by
    cases p <;> first | exact absurd hk hn | exact absurd hg hn | rfl | exact hx | simp [Part.same, State.rack]

theorem guideQuiet_keeps (k : Fin 16) (s : State) :
    KeepsAllBut (.tours :: eventParts) s (if silenceDue s k 0 then countSilence k s else s) := by
  split
  · rename_i hd
    have h0 : (s.tour k).live.stage = 0 := by simp [silenceDue] at hd; exact hd.1.2
    exact countSilence_keeps_stage0 h0 .refl (by decide) (by decide) (by decide)
  · exact .refl

/-! ### Every command -/

/-- The state that a command leaves. -/
def nextState (c : Instr) (s : State) : State :=
  match exec c s with
  | .next t => t
  | .fault _ => s
  | .refused _ => s

/-- Every command has a next state: the hub has no state in which it stops. -/
theorem exec_eq_nextState (c : Instr) (s : State) : exec c s = .next (nextState c s) := by cases c <;> rfl

theorem exec_eq_next_iff {c : Instr} : exec c s = .next t ↔ nextState c s = t := by
  rw [exec_eq_nextState, Host.Outcome.next.injEq]

/-- A property of the state that every command keeps is kept by every step (log 1). -/
theorem step_preserves {P : State → Prop} (h : step s = .next t) (hs : P s)
    (hp : ∀ rest, P s → P (s.withPending rest)) (hc : ∀ c u, P u → P (nextState c u)) : P t := by
  unfold step at h
  split at h
  · cases h; exact hs
  · exact exec_eq_next_iff.mp h ▸ hc _ _ (hp _ hs)

theorem nextState_keeps {c : Instr} (hw : c.wellFormed = true) (s : State) :
    KeepsAllBut (mayChange c) s (nextState c s) := by
  cases c with
  | powerOn x => exact resetHub_keeps x s
  | pinReset x => exact resetHub_keeps x s
  | linkUp => exact withHli_keeps .refl (by simp) (by decide) (by decide)
  | linkDown =>
    exact ite_keeps (dropLink_keeps .refl (by decide) (by decide) (by decide) (by decide) (by decide)) .refl
  | frameRejected f =>
    change KeepsAllBut (audioParts ++ statusParts ++ requestParts) s _
    exact arrive_keeps .refl (by decide) fun k _ => by cases k <;> decide
  | audioUp f => exact arrive_keeps_kind hw rfl
  | bayStatus f => exact arrive_keeps_kind hw rfl
  | dockNotice f => exact arrive_keeps_kind hw rfl
  | mgmtRequest f => exact arrive_keeps_kind hw rfl
  | badRequest => exact badRequest_keeps .refl (by decide) (by decide)
  | replyAccepted => exact acceptHeld_keeps .refl (by decide) (by decide)
  | loadSource =>
    exact serve_keeps (fun _ => loadSource_keeps .refl (by decide)) .refl (by decide) (by decide)
  | readSource =>
    exact serve_keeps (fun _ => readSource_keeps .refl (by decide)) .refl (by decide) (by decide)
  | loadProgram =>
    exact serve_keeps (fun _ => loadProgram_keeps .refl (by decide)) .refl (by decide) (by decide)
  | stageGain =>
    exact serve_keeps (fun _ => stageGain_keeps .refl (by decide)) .refl (by decide) (by decide)
  | applyGains =>
    exact serve_keeps (fun _ => withMxr_keeps .refl (by decide)) .refl (by decide) (by decide)
  | readProgram =>
    exact serve_keeps (fun _ => readProgram_keeps .refl (by decide)) .refl (by decide) (by decide)
  | loadChannel =>
    exact serve_keeps (fun _ => loadChannel_keeps .refl (by decide) (by decide) (by decide) (by decide)
      (by decide)) .refl (by decide) (by decide)
  | readChannel =>
    exact serve_keeps (fun _ => readChannel_keeps .refl (by decide)) .refl (by decide) (by decide)
  | readZone =>
    exact serve_keeps (fun _ => readZone_keeps .refl (by decide)) .refl (by decide) (by decide)
  | loadTourPlan =>
    exact serve_keeps (fun _ => loadTourPlan_keeps .refl (by decide)) .refl (by decide) (by decide)
  | loadTourTiming =>
    exact serve_keeps (fun _ => loadTourTiming_keeps .refl (by decide)) .refl (by decide) (by decide)
  | clearTour =>
    exact serve_keeps (fun _ => clearTour_keeps .refl (by decide)) .refl (by decide) (by decide)
  | readTour =>
    exact serve_keeps (fun _ => readTour_keeps .refl (by decide)) .refl (by decide) (by decide)
  | tourStart =>
    exact serveRacks_keeps (fun _ => tourStart_keeps .refl (by decide) (by decide) (by decide) (by decide)
      (by decide) (by decide) (by decide) (by decide)) .refl (by decide) (by decide) (by decide) (by decide)
  | reserveMore =>
    exact serveRacks_keeps (fun _ => reserveMore_keeps .refl (by decide) (by decide) (by decide)) .refl
      (by decide) (by decide) (by decide) (by decide)
  | tourEnd =>
    exact serveRacks_keeps (fun _ => tourEnd_keeps .refl (by decide) (by decide) (by decide) (by decide)
      (by decide) (by decide) (by decide)) .refl (by decide) (by decide) (by decide) (by decide)
  | tourAbort =>
    exact serveRacks_keeps (fun _ => tourAbort_keeps .refl (by decide) (by decide) (by decide) (by decide)
      (by decide) (by decide) (by decide)) .refl (by decide) (by decide) (by decide) (by decide)
  | enrol =>
    exact serveRacks_keeps (fun _ => enrol_keeps .refl (by decide) (by decide)) .refl (by decide)
      (by decide) (by decide) (by decide)
  | retire =>
    exact serveRacks_keeps (fun _ => retire_keeps .refl (by decide) (by decide) (by decide)) .refl
      (by decide) (by decide) (by decide) (by decide)
  | readReceiver =>
    exact serve_keeps (fun _ => readReceiver_keeps .refl (by decide)) .refl (by decide) (by decide)
  | loadRackConfig =>
    exact serveRacks_keeps (fun _ => loadRackConfig_keeps .refl (by decide) (by decide) (by decide)
      (by decide) (by decide) (by decide)) .refl (by decide) (by decide) (by decide) (by decide)
  | readRack =>
    exact serve_keeps (fun _ => readRack_keeps .refl (by decide)) .refl (by decide) (by decide)
  | readBay =>
    exact serve_keeps (fun _ => readBay_keeps .refl (by decide)) .refl (by decide) (by decide)
  | loadLevelCurve =>
    exact serve_keeps (fun _ => loadLevelCurve_keeps .refl (by decide)) .refl (by decide) (by decide)
  | loadThermalTable =>
    exact serveRacks_keeps (fun _ => loadThermalTable_keeps .refl (by decide) (by decide) (by decide)
      (by decide) (by decide)) .refl (by decide) (by decide) (by decide) (by decide)
  | readThermalTable =>
    exact serve_keeps (fun _ => readAnswer_keeps .refl (by decide)) .refl (by decide) (by decide)
  | readEvents =>
    exact serve_keeps (fun _ => withEvents_keeps .refl rfl rfl (by decide)) .refl (by decide) (by decide)
  | flushEvents =>
    exact serve_keeps (fun _ => withEvents_keeps .refl rfl rfl (by decide)) .refl (by decide) (by decide)
  | enableSet =>
    exact serve_keeps (fun _ => withEnables_keeps .refl (by decide)) .refl (by decide) (by decide)
  | enableClear =>
    exact serve_keeps (fun _ => withEnables_keeps .refl (by decide)) .refl (by decide) (by decide)
  | setHallMode =>
    exact serveRacks_keeps (fun _ => setHallMode_keeps .refl (by decide) (by decide) (by decide)
      (by decide) (by decide) (by decide) (by decide) (by decide) (by decide)) .refl (by decide)
      (by decide) (by decide) (by decide)
  | restart => exact exec_restart_keeps rfl
  | setTime =>
    exact serve_keeps (fun _ => setTime_keeps .refl (by decide) (by decide) (by decide) (by decide)
      (by decide)) .refl (by decide) (by decide)
  | readIdentity => exact serve_keeps (fun _ => .refl) .refl (by decide) (by decide)
  | readCounters => exact serve_keeps (fun _ => .refl) .refl (by decide) (by decide)
  | setHallSettings =>
    exact serve_keeps (fun _ => setHallSettings_keeps .refl (by decide)) .refl (by decide) (by decide)
  | mixPoint => exact mixPoint_keeps s
  | sourceStale i =>
    change KeepsAllBut (.sources :: eventParts) s _
    exact sourceStale_keeps .refl (by decide) (by decide) (by decide)
  | voiceFlagClear i =>
    change KeepsAllBut [.sources] s _
    exact voiceFlagClear_keeps .refl (by decide)
  | windowEnd k =>
    change KeepsAllBut ([.zones, .tours] ++ eventParts) s _
    exact ite_keeps (tickWindow_keeps .refl (by decide) (by decide) (by decide) (by decide)) .refl
  | guideQuiet k => exact guideQuiet_keeps k s
  | fallbackWrite k =>
    change KeepsAllBut ([.tours, .programs] ++ eventParts) s _
    exact ite_keeps (countSilence_keeps .refl (by decide) (by decide) (by decide) (by decide)) .refl
  | closeHoldExpiry k =>
    change KeepsAllBut (closeParts ++ senderParts) s _
    exact ite_keeps (rackSender_keeps (closeTour_keeps .refl (by decide) (by decide) (by decide)
      (by decide) (by decide) (by decide) (by decide)) (by decide) (by decide) (by decide)) .refl
  | closeWaitExpiry k =>
    change KeepsAllBut (closeParts ++ senderParts) s _
    exact ite_keeps (rackSender_keeps (closeTour_keeps .refl (by decide) (by decide) (by decide)
      (by decide) (by decide) (by decide) (by decide)) (by decide) (by decide) (by decide)) .refl
  | hubTimeTick =>
    exact hubTimeTick_keeps .refl (by decide) (by decide) (by decide) (by decide) (by decide)
  | overdue n =>
    change KeepsAllBut (.receivers :: eventParts) s _
    exact overdueOne_keeps .refl (by decide) (by decide) (by decide)
  | spacingTimerExpiry r =>
    change KeepsAllBut [.clock, .rackLives, .egress] s _
    exact spacingExpiry_keeps .refl (by decide) (by decide) (by decide)
  | pollPlaced =>
    refine placedWhen_keeps .refl (by decide) fun o ho => ?_
    cases o with
    | poll r b v => exact (by decide : [Part.rackLives] ⊆ [.rackLives, .egress])
    | _ => cases ho
  | pollTimeout r =>
    change KeepsAllBut ([.clock, .rackLives, .sched, .events] ++ senderParts) s _
    exact rackSender_keeps (pollTimeout_keeps .refl (by decide) (by decide) (by decide) (by decide)
      (by decide) (by decide)) (by decide) (by decide) (by decide)
  | dockSettleExpiry b =>
    change KeepsAllBut [.clock, .bays] s _
    exact settleExpiry_keeps .refl (by decide) (by decide)
  | turnSettleExpiry b =>
    change KeepsAllBut [.clock, .bays] s _
    exact settleExpiry_keeps .refl (by decide) (by decide)
  | bayCommandPlaced =>
    exact rackSender_keeps (placedWhen_keeps .refl (by decide)
      fun o ho => by cases o <;> first | decide | cases ho) (by decide) (by decide) (by decide)
  | framePlaced =>
    refine placedWhen_keeps .refl (by decide) fun o ho => ?_
    cases o with
    | poll r b v => cases ho
    | bayCommand => cases ho
    | _ => exact List.nil_subset _
  | cadenceExpiry r =>
    change KeepsAllBut ([.clock, .sched, .receivers, .events] ++ senderParts) s _
    exact cadenceExpiry_keeps .refl (by decide) (by decide) (by decide) (by decide) (by decide)
      (by decide) (by decide)
  | turnExpiry r b =>
    change KeepsAllBut ([.clock, .sched, .receivers] ++ senderParts) s _
    exact turnExpiry_keeps .refl (by decide) (by decide) (by decide) (by decide) (by decide) (by decide)

/-- Settles O4: each command is its action on one state, and the action's frame is the chain of the frames of the shared
operations it is made of. -/
theorem commandsChangeOnlyTheirParts : Obligations.CommandsChangeOnlyTheirParts :=
  fun _ s _ hw h => exec_eq_next_iff.mp h ▸ nextState_keeps hw s

end Sys2Proof.Machine
end

section
/-! What every step keeps of the zone counts (R44), the queues (R171, R180, R168) and the arbiter (R164, R165): one lemma per
shared operation, in the form of the frame lemmas. -/

namespace Sys2Proof.Machine

open Sys2Proof

variable {s t u : State}

/-- What the invariants of the zone counts, the arbiter and the queues say of the first state holds of the second. -/
structure Steady (s t : State) : Prop where
  counted : ZonesCounted s → ZonesCounted t
  arbiter : ArbiterSettled s → ArbiterSettled t
  queues : QueuesBounded s → QueuesBounded t

namespace Steady

theorem refl : Steady s s := ⟨id, id, id⟩

theorem trans (h : Steady s t) (k : Steady t u) : Steady s u :=
  ⟨k.counted ∘ h.counted, k.arbiter ∘ h.arbiter, k.queues ∘ h.queues⟩

theorem ite {c : Prop} [Decidable c] (h : Steady s t) (k : Steady s u) : Steady s (if c then t else u) := by
  split
  exacts [h, k]

theorem forEach {α : Type} {items : List α} {f : α → State → State} (hf : ∀ x u, Steady s u → Steady s (f x u))
    (h : Steady s t) : Steady s (forEach items f t) := by
  induction items generalizing t with
  | nil => exact h
  | cons x xs ih => exact ih (hf x t h)

end Steady

/-! ### The zone counts -/

theorem zonesCounted_congr (hz : ∀ z, (t.zone z).carried = (s.zone z).carried)
    (hc : ∀ ch, (t.channel ch).zones = (s.channel ch).zones) (h : ZonesCounted s) : ZonesCounted t := fun z => by
  simp only [zoneLoad, hz, hc]
  exact h z

/-- The number of members of a list after the membership of one of its items changes. -/
theorem length_filter_update {α : Type} [DecidableEq α] {xs : List α} (hn : xs.Nodup) {a : α} (ha : a ∈ xs)
    (p q : α → Bool) (hpq : ∀ x, x ≠ a → p x = q x) :
    (xs.filter p).length + (if q a then 1 else 0) = (xs.filter q).length + (if p a then 1 else 0) := by
  induction xs with
  | nil => simp at ha
  | cons x xs ih =>
    obtain ⟨hx, hn⟩ := List.nodup_cons.mp hn
    rcases List.mem_cons.mp ha with rfl | hm
    · have : xs.filter p = xs.filter q := List.filter_congr fun y hy => hpq y fun e => hx (e ▸ hy)
      simp only [List.filter_cons, this]
      by_cases p a <;> by_cases q a <;> simp_all
    · have hxa : x ≠ a := fun e => hx (e ▸ hm)
      have := ih hn hm
      simp only [List.filter_cons, hpq x hxa]
      by_cases hq : q x <;> simp [hq] <;> omega

@[simp] theorem setZones_channel (ch c : Fin 24) (zs : ZoneSet) (s : State) :
    (setZones ch zs s).channel c = if c = ch then { s.channel ch with zones := zs } else s.channel c :=
  Tab.get_set _ _ _ _

@[simp] theorem setZones_zone (ch : Fin 24) (zs : ZoneSet) (s : State) (z : Fin 12) :
    (setZones ch zs s).zone z =
      { s.zone z with carried := (s.zone z).carried + inSet z zs - inSet z (s.channel ch).zones } :=
  Tab.get_mapWith _ _ _

/-- The load of a zone follows the zone set of the one channel that takes another (R44). -/
theorem zoneLoad_setZones (ch : Fin 24) (zs : ZoneSet) (s : State) (z : Fin 12) :
    zoneLoad (setZones ch zs s) z + inSet z (s.channel ch).zones = zoneLoad s z + inSet z zs := by
  have := length_filter_update (List.nodup_finRange 24) (List.mem_finRange ch)
    (fun c => ((setZones ch zs s).channel c).zones.getLsbD z.val) (fun c => (s.channel c).zones.getLsbD z.val)
    fun c hc => by simp [hc]
  simpa [zoneLoad, inSet] using this

theorem zonesCounted_setZones (ch : Fin 24) (zs : ZoneSet) (h : ZonesCounted s) :
    ZonesCounted (setZones ch zs s) := fun z => by
  have := zoneLoad_setZones ch zs s z
  have := h z
  simp only [setZones_zone]
  omega

/-! ### The arbiter -/

/-- The clauses of `QueuesBounded` on the arbiter: class 3 within its capacity, and each class with its own kinds. -/
def LinkBounded (h : Hli) : Prop :=
  class3Held h ≤ Config.class3Capacity ∧ (∀ f ∈ h.class1, ∃ ch, f.origin = .program ch) ∧
  (∀ f ∈ h.class2, f.origin = .bayCommand ∨ ∃ r b v, f.origin = .poll r b v) ∧
  ∀ f ∈ h.class3, f.origin = .reply ∨ f.origin = .attention

theorem queuesBounded_iff : QueuesBounded s ↔ s.evq.queue.length ≤ Config.eventCapacity ∧
    s.mge.requests.length ≤ Config.requestCapacity ∧ LinkBounded s.hli := Iff.rfl

/-- The clauses of `ArbiterSettled` as a property of the Hall Link Interface alone. -/
def LinkSettled (h : Hli) : Prop :=
  (h.placing = none → heldFrames h = []) ∧ (h.linkUp = false → h.placing = none)

theorem arbiterSettled_iff : ArbiterSettled s ↔ LinkSettled s.hli := Iff.rfl

/-- A frame of class 3: a MGMT REPLY or an ATTENTION (Table 8-4). -/
def isClass3 : Origin → Bool
  | .reply | .attention => true
  | .program _ | .poll _ _ _ | .bayCommand => false

theorem class3Held_eq (h : Hli) : class3Held h =
    h.class3.length + (if (h.placing.map fun f => isClass3 f.origin) = some true then 1 else 0) := by
  unfold class3Held
  cases h.placing with
  | none => rfl
  | some f => cases hf : f.origin <;> simp [hf, isClass3]

theorem class3Held_enqueue (f : EgressFrame) (h : Hli) :
    class3Held (enqueue f h) = class3Held h + if isClass3 f.origin then 1 else 0 := by
  cases hf : f.origin <;> simp [enqueue, hf, class3Held_eq, isClass3] <;> omega

/-- A frame that begins to be placed counts in its class as before (log 12). -/
theorem linkBounded_startPlacing {h : Hli} (hb : LinkBounded h) : LinkBounded (startPlacing h) := by
  obtain ⟨hc, h1, h2, h3⟩ := hb
  unfold startPlacing
  split
  · rename_i hfree
    have hp : h.placing = none := by simp at hfree; exact hfree.2
    simp only [class3Held_eq, hp, Option.map_none] at hc
    split
    · rename_i f rest he
      obtain ⟨ch, hf⟩ := h1 f (by simp [he])
      refine ⟨?_, fun g hg => h1 g (by simp [he, hg]), h2, h3⟩
      simpa [class3Held_eq, hf, isClass3] using hc
    split
    · rename_i f rest he
      have hf : isClass3 f.origin = false := by
        obtain hf | ⟨r, b, v, hf⟩ := h2 f (by simp [he]) <;> simp [hf, isClass3]
      refine ⟨?_, h1, fun g hg => h2 g (by simp [he, hg]), h3⟩
      simpa [class3Held_eq, hf] using hc
    split
    · rename_i f rest he
      refine ⟨?_, h1, h2, fun g hg => h3 g (by simp [he, hg])⟩
      simp only [he, class3Held_eq, List.length_cons] at hc ⊢
      split <;> omega
    · exact ⟨by simpa [class3Held_eq, hp] using hc, h1, h2, h3⟩
  · exact ⟨hc, h1, h2, h3⟩

theorem linkBounded_enqueue {h : Hli} {f : EgressFrame} (hb : LinkBounded h)
    (hf : isClass3 f.origin = true → class3Held h < Config.class3Capacity) : LinkBounded (enqueue f h) := by
  obtain ⟨hc, h1, h2, h3⟩ := hb
  have h0 : class3Held (enqueue f h) ≤ Config.class3Capacity := by
    rw [class3Held_enqueue]
    split
    · exact hf ‹_›
    · exact hc
  refine ⟨h0, ?_⟩
  cases ho : f.origin <;>
    simp only [enqueue, ho, List.forall_mem_append, List.forall_mem_singleton]
  exacts [⟨⟨h1, _, rfl⟩, h2, h3⟩, ⟨h1, ⟨h2, .inr ⟨_, _, _, rfl⟩⟩, h3⟩, ⟨h1, ⟨h2, .inl trivial⟩, h3⟩,
    ⟨h1, h2, h3, .inl trivial⟩, ⟨h1, h2, h3, .inr trivial⟩]

theorem linkSettled_startPlacing {h : Hli} (hl : h.linkUp = true) : LinkSettled (startPlacing h) := by
  refine ⟨fun hp => ?_, fun hd => by simp [hl] at hd⟩
  rw [heldFrames_startPlacing]
  rw [placing_startPlacing h hl] at hp
  exact List.head?_eq_none_iff.mp hp

/-! ### Leaves of the chain -/

namespace Steady

/-- An operation outside the zones, the event queue, the arbiter and the request queue. -/
theorem of_keeps {ps : List Part} (h : Steady s t) (k : KeepsAllBut ps t u)
    (hp : ∀ p ∈ [Part.zones, .events, .link, .egress, .requests], p ∉ ps) : Steady s u := by
  have hz : u.zal = t.zal := k .zones (hp _ (by decide))
  obtain ⟨hq, -, -⟩ := k .events (hp _ (by decide))
  have hl : u.hli.linkUp = t.hli.linkUp := k .link (hp _ (by decide))
  obtain ⟨h0, h1, h2, h3, -, -⟩ := k .egress (hp _ (by decide))
  obtain ⟨hr, -⟩ := k .requests (hp _ (by decide))
  refine h.trans ⟨fun hc => ?_, fun ha => ?_, fun hb => ?_⟩
  · exact zonesCounted_congr (fun z => by simp [State.zone, hz]) (fun c => by simp [State.channel, hz]) hc
  · simpa only [ArbiterSettled, heldFrames, h0, h1, h2, h3, hl] using ha
  · simpa only [QueuesBounded, class3Held, hq, hr, h0, h1, h2, h3] using hb

theorem setZones {ch : Fin 24} {zs : ZoneSet} (h : Steady s t) : Steady s (setZones ch zs t) :=
  h.trans ⟨zonesCounted_setZones ch zs, id, id⟩

theorem putChannel {ch : Fin 24} {c : Channel} (h : Steady s t) (hz : c.zones = (t.channel ch).zones) :
    Steady s (t.putChannel ch c) := by
  refine h.trans ⟨zonesCounted_congr (fun _ => rfl) fun c' => ?_, id, id⟩
  rw [State.putChannel_channel]
  split
  · rename_i e; rw [hz, e]
  · rfl

theorem putZone {z : Fin 12} {r : Zone} (h : Steady s t) (hc : r.carried = (t.zone z).carried) :
    Steady s (t.putZone z r) := by
  refine h.trans ⟨zonesCounted_congr (fun z' => ?_) fun _ => rfl, id, id⟩
  rw [State.putZone_zone]
  split
  · rename_i e; rw [hc, e]
  · rfl

/-- A change of the link counters and the transmit pair alone. -/
theorem withHli_counters {x : Hli} (h : Steady s t) (hl : x.linkUp = t.hli.linkUp) (h0 : x.placing = t.hli.placing)
    (h1 : x.class1 = t.hli.class1) (h2 : x.class2 = t.hli.class2) (h3 : x.class3 = t.hli.class3) :
    Steady s (t.withHli x) := by
  refine h.trans ⟨id, fun ha => ?_, fun hb => ?_⟩
  · simpa only [ArbiterSettled, heldFrames, State.withHli_hli, hl, h0, h1, h2, h3] using ha
  · simpa only [QueuesBounded, class3Held, State.withHli_hli, State.withHli_evq, State.withHli_mge, h0, h1, h2, h3]
      using hb

theorem tellSender {o : Origin} (h : Steady s t) : Steady s (tellSender o t) := by
  refine h.of_keeps (tellSender_keeps (ps := [.rackLives, .sender]) .refl ?_) (by decide)
  cases o <;> simp [told]

theorem countDiscard (h : Steady s t) : Steady s (countDiscard t) := h.withHli_counters rfl rfl rfl rfl rfl

theorem discardFrame {f : EgressFrame} (h : Steady s t) : Steady s (discardFrame f t) := h.countDiscard.tellSender

/-- A frame is handed over: one of class 3 needs a place there (R168). -/
theorem handOver {f : EgressFrame} (h : Steady s t)
    (hf : isClass3 f.origin = true → class3Held t.hli < Config.class3Capacity) : Steady s (handOver f t) := by
  unfold Machine.handOver
  split
  · rename_i hl
    refine h.trans ⟨id, fun _ => linkSettled_startPlacing (by simpa using hl), fun hb => ?_⟩
    obtain ⟨hq, hr, hb⟩ := queuesBounded_iff.mp hb
    exact queuesBounded_iff.mpr ⟨hq, hr, linkBounded_startPlacing (linkBounded_enqueue hb hf)⟩
  · exact h.discardFrame

theorem handOverSpare {f : EgressFrame} (h : Steady s t) : Steady s (handOverSpare f t) := by
  unfold Machine.handOverSpare
  split
  · rename_i hc
    exact h.handOver fun _ => by simp [Config.class3Capacity] at hc ⊢; omega
  · exact h.countDiscard

theorem withEvq {x : Evq} (h : Steady s t) (hx : t.evq.queue.length ≤ Config.eventCapacity →
    x.queue.length ≤ Config.eventCapacity) : Steady s (t.withEvq x) :=
  h.trans ⟨id, id, fun ⟨hq, hb⟩ => ⟨hx hq, hb⟩⟩

theorem raiseEvent {k : EventKind} {n d : Nat} {r : Option (BitVec 16)} (h : Steady s t) :
    Steady s (raiseEvent k n r d t) := by
  simp only [Machine.raiseEvent]
  split
  · split
    · rename_i hq
      have queued := h.withEvq (x := { t.evq with queue := t.evq.queue ++ [⟨k, t.mge.hubTime, n, r, d⟩] })
        fun _ => by simp; omega
      refine ite ?_ queued
      unfold sendAttention
      split
      exacts [queued, queued.handOverSpare]
    · exact h.withEvq id
  · exact h

theorem raiseTour {k : EventKind} {slot : Fin 16} {d : Nat} (h : Steady s t) : Steady s (raiseTour k slot d t) :=
  h.raiseEvent

theorem raiseBay {c : Bool} {k : EventKind} {a : Fin 288} {d : Nat} (h : Steady s t) :
    Steady s (raiseBay c k a d t) := ite h.raiseEvent h

theorem putLive {i : Fin 16} {x : TourLive} (h : Steady s t) : Steady s (t.putLive i x) :=
  h.of_keeps (putLive_keeps (ps := [.tours]) .refl (by decide)) (by decide)

theorem putProgram {i : Fin 32} {x : Program} (h : Steady s t) : Steady s (t.putProgram i x) :=
  h.of_keeps (putProgram_keeps (ps := [.programs]) .refl (by decide)) (by decide)

theorem putReceiver {i : Fin 384} {x : Option Receiver} (h : Steady s t) : Steady s (t.putReceiver i x) :=
  h.of_keeps (putReceiver_keeps (ps := [.receivers]) .refl (by decide)) (by decide)

theorem putSource {i : Fin 48} {x : Option Source} (h : Steady s t) : Steady s (t.putSource i x) :=
  h.of_keeps (putSource_keeps (ps := [.sources]) .refl (by decide)) (by decide)

theorem putBay {i : Fin 288} {x : Bay} (h : Steady s t) : Steady s (t.putBay i x) :=
  h.of_keeps (putBay_keeps (ps := [.bays]) .refl (by decide)) (by decide)

theorem putRackLive {i : Fin 12} {x : RackLive} (h : Steady s t) : Steady s (t.putRackLive i x) :=
  h.of_keeps (putRackLive_keeps (ps := [.rackLives]) .refl (by decide)) (by decide)

theorem putSched {i : Fin 12} {x : Sched} (h : Steady s t) : Steady s (t.putSched i x) :=
  h.of_keeps (putSched_keeps (ps := [.sched]) .refl (by decide)) (by decide)

theorem withClock {x : Clock} (h : Steady s t) : Steady s (t.withClock x) :=
  h.of_keeps (withClock_keeps (ps := [.clock]) .refl (by decide)) (by decide)

theorem withFlt {x : Flt} (h : Steady s t) : Steady s (t.withFlt x) := h.trans ⟨id, id, id⟩

/-! ### Zones and handover -/

theorem bindChannel {ch : Fin 24} {ph : ChannelState} {p : Fin 32} {zs : ZoneSet} (h : Steady s t) :
    Steady s (bindChannel ch ph p zs t) :=
  putProgram (setZones (putChannel h rfl))

theorem unbindProgram {p : Fin 32} (h : Steady s t) : Steady s (unbindProgram p t) := h.putProgram

theorem freeChannel {ch : Fin 24} (h : Steady s t) : Steady s (freeChannel ch t) := by
  simp only [Machine.freeChannel]
  refine putChannel (setZones ?_) rfl
  split
  exacts [h.unbindProgram, h]

theorem setTourZones {slot : Fin 16} {zs : ZoneSet} (h : Steady s t) : Steady s (setTourZones slot zs t) :=
  forEach (fun _ _ k => k.setZones) h

theorem dropPrevious {slot : Fin 16} (h : Steady s t) : Steady s (dropPrevious slot t) := by
  simp only [Machine.dropPrevious]
  split
  exacts [h, raiseTour (putLive (forEach (fun _ _ k => k.setZones) h))]

theorem dequeue {slot : Fin 16} {z : Fin 12} (h : Steady s t) : Steady s (dequeue slot z t) := h.putZone rfl

theorem grant {slot : Fin 16} {z : Fin 12} (h : Steady s t) : Steady s (grant slot z t).1 := by
  simp only [Machine.grant]
  split
  · exact h
  split
  exacts [dropPrevious (putLive h.setTourZones.dequeue), putLive h.setTourZones.dequeue]

theorem serveZone {z : Fin 12} {n : Nat} {zs : ZoneSet} (h : Steady s t) :
    Steady s (serveZone z n (t, zs)).1 := by
  induction n generalizing t zs with
  | zero => exact h
  | succ n ih =>
    simp only [Machine.serveZone]
    split
    · exact h
    split
    exacts [ih h.dequeue.grant, h]

theorem serveSet {n : Nat} {zs : ZoneSet} (h : Steady s t) : Steady s (serveSet n zs t) := by
  induction n generalizing t zs with
  | zero => exact h
  | succ n ih =>
    simp only [Machine.serveSet]
    split
    exacts [h, ih h.serveZone]

theorem serveZones {zs : ZoneSet} (h : Steady s t) : Steady s (serveZones zs t) := h.serveSet

theorem requestHandover {slot : Fin 16} {z : Fin 12} (h : Steady s t) : Steady s (requestHandover slot z t) := by
  simp only [Machine.requestHandover]
  split
  · exact h.grant.serveZones
  · exact ite h (raiseTour (putLive (putZone h rfl)))

theorem cutWindow {slot : Fin 16} (h : Steady s t) : Steady s (cutWindow slot t) := by
  unfold Machine.cutWindow
  split
  exacts [h.dropPrevious.serveZones, h]

theorem leaveQueue {slot : Fin 16} (h : Steady s t) : Steady s (leaveQueue slot t).1 := by
  unfold Machine.leaveQueue
  split
  exacts [h, putLive h.dequeue]

theorem takeOut {slot : Fin 16} (h : Steady s t) : Steady s (takeOut slot t) := h.leaveQueue.serveZones

theorem tickWindow {slot : Fin 16} (h : Steady s t) : Steady s (tickWindow slot t) := by
  simp only [Machine.tickWindow]
  split
  · exact h
  · exact ite h.putLive.dropPrevious.serveZones h.putLive

theorem unbindTour {slot : Fin 16} (h : Steady s t) : Steady s (unbindTour slot t).1 :=
  putLive (forEach (fun _ _ k => k.freeChannel) h.leaveQueue)

theorem supersede (h : Steady s t) : Steady s (supersede t) := by
  refine h.trans ⟨id, fun ⟨ha, hd⟩ => ⟨fun hp => ?_, hd⟩, fun ⟨hq, hr, hc, _, hb⟩ => ⟨hq, hr, hc, ?_, hb⟩⟩
  · have := ha hp
    simp_all [heldFrames, Machine.supersede]
  · simp [Machine.supersede]

theorem emitProgram {x : Fin 24 × Frame} (h : Steady s t) : Steady s (emitProgram x t) :=
  handOver (putChannel h rfl) fun hf => by simp [buildProgram, isClass3] at hf

theorem emitPrograms {xs : List (Fin 24 × Frame)} (h : Steady s t) : Steady s (emitPrograms xs t) := by
  unfold Machine.emitPrograms
  split
  exacts [h, forEach (fun _ _ k => k.emitProgram) h.supersede]

/-! ### The rack sender, charging and bands -/

theorem sendCommand {r : Fin 12} {b : Fin 24} (h : Steady s t) : Steady s (sendCommand r b t) := by
  simp only [Machine.sendCommand]
  refine handOver ?_ fun hf => by simp [isClass3] at hf
  exact h.putBay.of_keeps (withSender_keeps (ps := [.sender]) .refl rfl rfl rfl rfl (by decide)) (by decide)

theorem rackSender (h : Steady s t) : Steady s (rackSender t) := by
  have run : ∀ n {u}, Steady s u → Steady s (runSender n u) := by
    intro n
    induction n with
    | zero => exact fun k => k
    | succ n ih =>
      intro u k
      simp only [runSender]
      split
      · exact k
      split
      exacts [k, ih k.sendCommand]
  exact run 289 h

theorem judge {a : Fin 288} (h : Steady s t) : Steady s (judge a t) :=
  h.of_keeps (judge_keeps (ps := [.bays]) .refl (by decide)) (by decide)

theorem resync {r : Fin 12} (h : Steady s t) : Steady s (resync r t) :=
  h.of_keeps (resync_keeps (ps := [.sched, .bays]) .refl (by decide) (by decide)) (by decide)

theorem refreshCapacity {r : Fin 12} (h : Steady s t) : Steady s (refreshCapacity r t) :=
  h.of_keeps (refreshCapacity_keeps (ps := [.sched, .bays]) .refl (by decide) (by decide)) (by decide)

theorem refreshAll (h : Steady s t) : Steady s (refreshAll t) :=
  h.of_keeps (refreshAll_keeps (ps := [.sched, .bays]) .refl (by decide) (by decide)) (by decide)

theorem leaveOnline {r : Fin 12} (h : Steady s t) : Steady s (leaveOnline r t) :=
  h.of_keeps (leaveOnline_keeps (ps := [.sched, .bays]) .refl (by decide) (by decide)) (by decide)

theorem restartCadence {r : Fin 12} (h : Steady s t) : Steady s (restartCadence r t) := h.putSched

theorem startSelected {r : Fin 12} {pay : Sched → Sched} (h : Steady s t) : Steady s (startSelected r pay t) :=
  h.of_keeps (startSelected_keeps (ps := [.sched, .bays, .receivers]) .refl (by decide) (by decide) (by decide))
    (by decide)

theorem endTurn {r : Fin 12} {b : Fin 24} (h : Steady s t) : Steady s (endTurn r b t) :=
  h.of_keeps (endTurn_keeps (ps := [.sched, .bays, .receivers]) .refl (by decide) (by decide) (by decide))
    (by decide)

theorem endOrJudge {a : Fin 288} (h : Steady s t) : Steady s (endOrJudge a t) :=
  h.of_keeps (endOrJudge_keeps (ps := [.sched, .bays, .receivers]) .refl (by decide) (by decide) (by decide))
    (by decide)

theorem cadenceAct {r : Fin 12} (h : Steady s t) : Steady s (cadenceAct r t) := by
  simp only [Machine.cadenceAct]
  repeat' split
  exacts [h.putSched, h, h.startSelected, h, h.putSched, h.putSched.raiseEvent]

theorem changeBand {r : Fin 12} {k : Fin 8} (h : Steady s t) : Steady s (changeBand r k t) := by
  have trimmed (x y : Sched) (n : Nat) : Steady s (trimTurns r n ((t.putSched r x).putSched r y)) :=
    h.putSched.putSched.of_keeps (trimTurns_keeps (ps := [.sched, .bays]) .refl (by decide) (by decide)) (by decide)
  have judged (x y : Sched) (n : Nat) :
      Steady s (Machine.restartCadence r (judgeRack r (trimTurns r n ((t.putSched r x).putSched r y)))) :=
    restartCadence ((trimmed x y n).of_keeps (judgeRack_keeps (ps := [.bays]) .refl (by decide)) (by decide))
  simp only [Machine.changeBand]
  exact ite (judged _ _ _) (raiseEvent (judged _ _ _))

theorem takeTemperature {r : Fin 12} {n : Int} (h : Steady s t) : Steady s (takeTemperature r n t) :=
  ite h h.changeBand

theorem treatRack {r : Fin 12} (h : Steady s t) : Steady s (treatRack r t) := by
  unfold Machine.treatRack
  split
  exacts [h.changeBand, h.changeBand, h]

/-! ### The fleet -/

theorem setAssign {a : Fin 288} {x : Option Assignment} (h : Steady s t) : Steady s (setAssign a x t) := ite h h.putBay

theorem bayEmptied {o : Bay} {a : Fin 288} (h : Steady s t) : Steady s (bayEmptied o a t) :=
  endOrJudge (raiseBay (raiseBay (raiseBay (raiseBay h.putBay))))

theorem clearBay {a : Fin 288} (h : Steady s t) : Steady s (clearBay a t) := h.putBay.setAssign

theorem fleetUndock {a : Fin 288} {n : Fin 384} (h : Steady s t) : Steady s (fleetUndock a n t) := by
  simp only [Machine.fleetUndock]
  split
  · exact h.clearBay
  split
  · exact raiseEvent (putLive (putReceiver h.clearBay))
  · exact raiseEvent (withFlt (putReceiver h.clearBay))
  · exact putReceiver h.clearBay

theorem undockBay {a : Fin 288} (h : Steady s t) : Steady s (undockBay a t) := by
  simp only [Machine.undockBay]
  split
  exacts [h, h.fleetUndock.bayEmptied, h.clearBay.bayEmptied]

theorem placeReceiver {a : Fin 288} {n : Fin 384} {r : Receiver} (h : Steady s t) :
    Steady s (placeReceiver a n r t) := h.putReceiver.putBay

theorem dockKnown {a : Fin 288} {n : Fin 384} {r : Receiver} (h : Steady s t) : Steady s (dockKnown a n r t) := by
  have returned : ∀ u, Steady s u → Steady s
      (match r.phase, r.tour with
        | .issued, some ref => noteReturned ref.slot u
        | _, _ => u) := by
    intro u k
    split
    exacts [k.putLive, k]
  have counted : ∀ u, Steady s u → Steady s (if (decide (r.phase = .due) || decide (r.phase = .overdue)) = true then
      u.withFlt { u.flt with lateReturns := satAdd u.flt.lateReturns 1 } else u) := fun u k => ite k.withFlt k
  have placed := counted _ (returned _ (setAssign (a := a) (x := none) (h.placeReceiver (a := a) (n := n) (r :=
    { r with phase := .docked, tour := none, issueTime := none, deadline := none, short := false, required := none }))))
  simp only [Machine.dockKnown]
  split
  exacts [placed.raiseEvent, placed]

theorem moveReceiver {o a : Fin 288} {n : Fin 384} (h : Steady s t) : Steady s (moveReceiver o a n t) := by
  simp only [Machine.moveReceiver]
  repeat' split
  all_goals first | exact h.clearBay.bayEmptied | exact setAssign (placeReceiver h.clearBay.bayEmptied)

theorem dockUnknown {a : Fin 288} {g : RxTag} (h : Steady s t) : Steady s (dockUnknown a g t) :=
  raiseEvent (withFlt (setAssign h.putBay))

theorem fleetDock {a : Fin 288} {g : RxTag} (h : Steady s t) : Steady s (fleetDock a g t) := by
  have former : Steady s (undockFormer a g t) := by
    unfold undockFormer
    repeat' split
    exacts [h, h.undockBay, h, h, h]
  simp only [Machine.fleetDock]
  split
  · split
    · exact former
    split
    · exact ite former.putBay former.moveReceiver
    · exact former.dockKnown
  · split
    exacts [setAssign former.placeReceiver, former.dockUnknown, former.dockUnknown]

theorem dockBay {a : Fin 288} {g : RxTag} (h : Steady s t) : Steady s (dockBay a g t) :=
  judge (raiseEvent (putBay h.fleetDock))

theorem comparePresence {a : Fin 288} {g : Option RxTag} (h : Steady s t) : Steady s (comparePresence a g t) := by
  unfold Machine.comparePresence
  repeat' split
  exacts [h, h.dockBay, h, h.dockBay, h.dockBay, h, h.undockBay.dockBay, h.undockBay, h.undockBay]

theorem fleetReading {a : Fin 288} (h : Steady s t) : Steady s (fleetReading a t) :=
  h.of_keeps (fleetReading_keeps (ps := [.receivers]) .refl (by decide)) (by decide)

theorem reserve {q : Reservation} (h : Steady s t) : Steady s (reserve q t).2 :=
  h.of_keeps (reserve_keeps (ps := [.receivers, .bays, .tours]) .refl (by decide) (by decide) (by decide)) (by decide)

theorem releaseRun {slot : Fin 16} {run : BitVec 16} (h : Steady s t) : Steady s (releaseRun slot run t) :=
  h.of_keeps (releaseRun_keeps (ps := [.receivers, .bays, .tours]) .refl (by decide) (by decide) (by decide))
    (by decide)

theorem makeDue {slot : Fin 16} {run : BitVec 16} (h : Steady s t) : Steady s (makeDue slot run t) :=
  h.of_keeps (makeDue_keeps (ps := [.receivers]) .refl (by decide)) (by decide)

theorem overdueOne {n : Fin 384} (h : Steady s t) : Steady s (overdueOne n t) := by
  simp only [Machine.overdueOne]
  repeat' split
  exacts [h, raiseEvent h.putReceiver, h, h]

theorem judgeDeadlines (h : Steady s t) : Steady s (judgeDeadlines t) := forEach (fun _ _ k => k.overdueOne) h

/-! ### Tours -/

theorem writeFallback {slot : Fin 16} (h : Steady s t) : Steady s (writeFallback slot t) := by
  simp only [Machine.writeFallback]
  split
  · exact h
  split
  · exact h
  exact raiseTour (putLive (forEach (fun _ _ k => k.putProgram) h))

theorem resetSilence {slot : Fin 16} (h : Steady s t) : Steady s (resetSilence slot t) := by
  simp only [Machine.resetSilence]
  split
  · split
    exacts [raiseTour (forEach (fun _ _ k => k.putProgram) h.putLive), h.putLive.raiseTour]
  · exact h.putLive

theorem countSilence {slot : Fin 16} (h : Steady s t) : Steady s (countSilence slot t) := by
  simp only [Machine.countSilence]
  repeat' split
  exacts [h.putLive.raiseTour, h.putLive, h.putLive.writeFallback, h.putLive, h]

theorem closeActions {q : Bool} {slot : Fin 16} (h : Steady s t) : Steady s (closeActions q slot t).1 := by
  have disowned (es : List (Fin 4 × Entry)) {u} (k : Steady s u) :
      Steady s (Machine.forEach es (fun x => disown x.2.program) u) := forEach (fun _ _ k => k.putProgram) k
  simp only [Machine.closeActions]
  split <;> split
  · exact putLive (unbindTour (disowned _ h.releaseRun.makeDue))
  · exact putLive (unbindTour h.releaseRun.makeDue)
  · exact raiseTour (putLive (unbindTour (disowned _ h.releaseRun.makeDue)))
  · exact raiseTour (putLive (unbindTour h.releaseRun.makeDue))

theorem closeTour {slot : Fin 16} (h : Steady s t) : Steady s (closeTour slot t) :=
  h.closeActions.serveZones.judgeDeadlines

theorem closeAll {q : Bool} (h : Steady s t) : Steady s (closeAll q t) := by
  have held : ∀ (ks : List (Fin 16)) (r : State × ZoneSet), Steady s r.1 →
      Steady s (ks.foldl (fun acc k => closeHeld q k acc) r).1 := by
    intro ks
    induction ks with
    | nil => exact fun _ k => k
    | cons x rest ih =>
      intro r k
      refine ih _ ?_
      simp only [closeHeld]
      split
      exacts [k.closeActions, k]
  exact (held _ (t, 0#12) h).serveZones.judgeDeadlines

theorem tickTour {slot : Fin 16} (h : Steady s t) : Steady s (tickTour slot t) := by
  have silence : Steady s (tickSilence slot t) := ite h.resetSilence h.countSilence
  simp only [Machine.tickTour, tickClose]
  exact ite (ite (ite silence.putLive.closeTour silence.putLive) silence) h

theorem followSettled {slot : Fin 16} (h : Steady s t) : Steady s (followSettled slot t) := by
  unfold Machine.followSettled
  repeat' split
  exacts [h, h.requestHandover, h]

theorem followWaiting {slot : Fin 16} (h : Steady s t) : Steady s (followWaiting slot t) := by
  unfold Machine.followWaiting
  repeat' split
  exacts [h.requestHandover, h.takeOut, h.takeOut.requestHandover, h]

theorem followStop {slot : Fin 16} (h : Steady s t) : Steady s (followStop slot t) := by
  unfold Machine.followStop
  split
  exacts [h.followSettled, h.cutWindow.followSettled, h.followWaiting]

theorem takeAdvance {d : Nat} {slot : Fin 16} (h : Steady s t) : Steady s (takeAdvance d slot t) := by
  have written {u} (k : Steady s u) :
      Steady s (if (u.tour slot).live.stage = 2 then Machine.writeFallback slot u else u) := ite k.writeFallback k
  simp only [Machine.takeAdvance]
  split
  · exact h
  · exact ite h.raiseTour (written (followStop (ite h.putLive.raiseTour.raiseTour h.putLive.raiseTour)))

theorem passAdvance {i : Fin 48} {d : Nat} (h : Steady s t) : Steady s (passAdvance i d t) := by
  unfold Machine.passAdvance
  split
  · split
    exacts [h, h.putSource]
  · exact forEach (fun _ _ k => k.takeAdvance) h

theorem reserveFor {slot : Fin 16} {e : Fin 4} {n : Nat} (h : Steady s t) : Steady s (reserveFor slot e n t).2 := by
  simp only [Machine.reserveFor]
  split
  exacts [h, h.reserve]

theorem startTour {slot : Fin 16} {p : Plan} {z : Fin 12} (h : Steady s t) : Steady s (startTour slot p z t).2 := by
  have parties : ∀ (es : List (Fin 4 × Entry)) {u}, Steady s u → Steady s (reserveParties slot es u).2 := by
    intro es
    induction es with
    | nil => exact fun k => k
    | cons x rest ih => exact fun k => ih k.reserveFor
  exact raiseTour (parties _ (putLive (forEach (fun _ _ k => putLive (putProgram k.bindChannel)) h)))

/-! ### Racks -/

theorem sendPoll {r : Fin 12} (h : Steady s t) : Steady s (sendPoll r t) :=
  handOver h.putRackLive fun hf => by simp [isClass3] at hf

theorem rackOnline {r : Fin 12} {n : Nat} (h : Steady s t) : Steady s (rackOnline r n t) :=
  resync (forEach (fun _ _ k => k.putBay) h.putRackLive.raiseEvent)

theorem rackOffline {r : Fin 12} (h : Steady s t) : Steady s (rackOffline r t) :=
  h.putRackLive.raiseEvent.leaveOnline

/-- The withdrawal of a POLL leaves a frame that is being placed of its kind (R116, R167). -/
theorem withdrawPoll {r : Fin 12} (h : Steady s t) : Steady s (withdrawPoll r t) := by
  have void : ∀ f, isClass3 (voidPoll r f).origin = isClass3 f.origin := fun f => by
    cases hf : f.origin <;> simp only [voidPoll, hf]
    split <;> simp [hf, isClass3]
  refine h.trans ⟨id, fun ⟨ha, hd⟩ => ⟨fun hp => ?_, fun hl => ?_⟩, fun ⟨hq, hr, hc, h1, h2, h3⟩ => ?_⟩
  · have hp : t.hli.placing = none := by simpa [Machine.withdrawPoll] using hp
    have := ha hp
    simp_all [heldFrames, Machine.withdrawPoll]
  · simp [Machine.withdrawPoll, hd hl]
  · refine ⟨hq, hr, ?_, h1, fun f hf => h2 f (List.mem_filter.mp hf).1, h3⟩
    simpa [class3Held_eq, Machine.withdrawPoll, Function.comp_def, void] using hc

theorem disableRack {r : Fin 12} (h : Steady s t) : Steady s (disableRack r t) :=
  ite h.putRackLive.withdrawPoll.leaveOnline h.putRackLive.withdrawPoll

theorem enableRack {r : Fin 12} (h : Steady s t) : Steady s (enableRack r t) := h.putRackLive.sendPoll

theorem rekeyRack {r : Fin 12} (h : Steady s t) : Steady s (rekeyRack r t) :=
  enableRack (ite h.disableRack.raiseEvent h.disableRack)

theorem applyRackConfig {r : Fin 12} {c : RackConfig} (h : Steady s t) : Steady s (applyRackConfig r c t) := by
  have loaded (x : Rack) : Steady s (t.putRack r x) :=
    h.of_keeps (putRack_keeps (ps := [.rackLives, .rackConfigs]) .refl (by decide) (by decide)) (by decide)
  simp only [Machine.applyRackConfig]
  refine refreshCapacity ?_
  split
  · exact loaded _
  · exact (loaded _).enableRack
  · exact (loaded _).disableRack
  · exact ite (loaded _).putRackLive (loaded _).rekeyRack

theorem settlePoll {r : Fin 12} {b : Fin 24} (h : Steady s t) : Steady s (settlePoll r b t) := by
  simp only [Machine.settlePoll, startSpacing]
  split
  · exact putRackLive (ite h.putRackLive.rackOnline h.putRackLive)
  split
  exacts [h.putRackLive, h]

theorem raiseEdges {o n : Bay} {a : Fin 288} (h : Steady s t) : Steady s (raiseEdges o n a t) :=
  raiseBay (raiseBay (raiseBay h))

theorem chargeReading {a : Fin 288} (h : Steady s t) : Steady s (chargeReading a t) := by
  simp only [Machine.chargeReading]
  exact ite (ite h.endTurn h) h.judge

theorem readElectrical {a : Fin 288} {v : Nat} {f : Bool} (h : Steady s t) : Steady s (readElectrical a v f t) := by
  simp only [Machine.readElectrical]
  refine ite h ?_
  split
  exacts [chargeReading (fleetReading (raiseEdges h.putBay)), judge (fleetReading h.putBay), h, h]

theorem takeReading {r : Fin 12} {x : Reading} (h : Steady s t) : Steady s (takeReading r x t) :=
  readElectrical (putBay (comparePresence (takeTemperature h.putRackLive)))

/-! ### Requests -/

theorem takeNext (h : Steady s t) : Steady s (takeNext t) := by
  unfold Machine.takeNext
  split
  · rename_i he
    exact h.trans ⟨id, id, fun ⟨hq, hr, hb⟩ => ⟨hq, by simp [he] at hr; simp; omega, hb⟩⟩
  · exact h
  · exact h
  · exact h

theorem offerReply {r : Reply} (h : Steady s t) : Steady s (offerReply r t) := by
  simp only [Machine.offerReply]
  split
  · rename_i hc
    exact takeNext ((h.handOver fun _ => hc).trans ⟨id, id, id⟩)
  · exact h.trans ⟨id, id, id⟩

theorem serve {code : Nat} {owner : List Byte → State → Answer} (ho : ∀ args, Steady s (owner args t).state)
    (h : Steady s t) : Steady s (serve code owner t) := by
  unfold Machine.serve
  split
  · exact ite (ho _).offerReply h
  · exact h
  · exact h

theorem serveRacks {code : Nat} {owner : List Byte → State → Answer} (ho : ∀ args, Steady s (owner args t).state)
    (h : Steady s t) : Steady s (serveRacks code owner t) := serve (fun args => (ho args).rackSender) h

end Steady

end Sys2Proof.Machine
end

section
/-! The queue of commands, the resets and the first moment of the link: what the tables hold at reset, and the obligations
O1, O2, O3 and O11. -/

namespace Sys2Proof.Machine

open Sys2Proof

/-! ### The tables at reset -/

section Reset
variable (straps : BitVec 4)

@[simp] theorem atReset_source (i : Fin 48) : (State.atReset straps).source i = none := Tab.get_fill _ _
@[simp] theorem atReset_program (i : Fin 32) : (State.atReset straps).program i = .reset := Tab.get_fill _ _
@[simp] theorem atReset_channel (i : Fin 24) : (State.atReset straps).channel i = .reset := Tab.get_fill _ _
@[simp] theorem atReset_zone (i : Fin 12) : (State.atReset straps).zone i = .reset := Tab.get_fill _ _
@[simp] theorem atReset_tour (i : Fin 16) : (State.atReset straps).tour i = .reset := Tab.get_fill _ _
@[simp] theorem atReset_receiver (i : Fin 384) : (State.atReset straps).receiver i = none := Tab.get_fill _ _
@[simp] theorem atReset_rack (i : Fin 12) : (State.atReset straps).rack i = .reset := Tab.get_fill _ _
@[simp] theorem atReset_bay (i : Fin 288) : (State.atReset straps).bay i = .reset := Tab.get_fill _ _
@[simp] theorem atReset_sched (i : Fin 12) : (State.atReset straps).sched i = .reset := Tab.get_fill _ _

theorem zonesCounted_atReset : ZonesCounted (State.atReset straps) := fun z => by
  simp [zoneLoad, Zone.reset, Channel.reset]

theorem tourPlaced_atReset (slot : Fin 16) : TourPlaced (State.atReset straps) slot := by
  simp [TourPlaced, Tour.reset, TourLive.reset, isRunning]

theorem zonesPlaced_atReset : ZonesPlaced (State.atReset straps) :=
  ⟨zonesCounted_atReset straps, fun z => by simp [Zone.reset], tourPlaced_atReset straps,
    fun ch _ => by simp [Channel.reset], fun z w hw => by simp [Zone.reset] at hw⟩

theorem queuesBounded_atReset : QueuesBounded (State.atReset straps) := by
  simp [QueuesBounded, State.atReset, Hli.reset, class3Held]

theorem arbiterSettled_atReset : ArbiterSettled (State.atReset straps) := by
  simp [ArbiterSettled, State.atReset, Hli.reset, heldFrames]

theorem baysSettled_atReset : BaysSettled (State.atReset straps) := fun a => by simp [Bay.reset]

theorem fleetPaired_atReset : FleetPaired (State.atReset straps) :=
  ⟨fun h h' r r' hr => by simp at hr, fun h r a hr => by simp at hr,
    fun a h hp => by simp [Bay.reset] at hp, fun h r hr => by simp at hr⟩

theorem chargeBounded_atReset : ChargeBounded (State.atReset straps) := fun r => by
  simp [capacityOf, bandEntry, Sched.reset]

end Reset

/-- Settles O1: both clauses are the two branches of `step`. -/
theorem stepTakesFrontCommand : Obligations.StepTakesFrontCommand :=
  ⟨fun _ _ _ => rfl, fun s hs => by unfold step; rw [hs]⟩

/-- Settles O3: at reset every table holds one record, which meets each invariant by itself. -/
theorem resetMeetsInvariants : Obligations.ResetMeetsInvariants := fun straps =>
  ⟨zonesPlaced_atReset straps, queuesBounded_atReset straps, arbiterSettled_atReset straps,
    baysSettled_atReset straps, fleetPaired_atReset straps, chargeBounded_atReset straps⟩

/-- The station address of every strap value fits its 16 bits (R159). -/
theorem station_atReset (straps : BitVec 4) :
    (State.atReset straps).hli.station.toNat = 0x0F00 + straps.toNat := by
  have := straps.isLt
  simp [State.atReset, Hli.reset]
  omega

/-- Settles O2: both resets leave `State.atReset` with the model's own fields kept, and each record is read from its
table. -/
theorem resetsLeaveResetValues : Obligations.ResetsLeaveResetValues := by
  intro straps s
  refine ⟨resetHub straps s, rfl, rfl, rfl, rfl, rfl, rfl, station_atReset straps, rfl, rfl, rfl, atReset_source straps,
    fun p => ?_, rfl, atReset_channel straps, atReset_zone straps, fun k => ?_, atReset_receiver straps, rfl, rfl, rfl,
    fun r => ?_, atReset_bay straps, rfl, rfl, rfl, rfl, fun r => Tab.get_fill _ _, atReset_sched straps, rfl, rfl, rfl,
    rfl, rfl, rfl, rfl, rfl⟩
  · change let q := (State.atReset straps).program p
      q.installed = none ∧ q.pendingRec = none ∧ (∀ k, q.staged.get k = none) ∧ q.fallback = none ∧ q.owner = none ∧
        q.binding = none ∧ q.duck = 32768 ∧ q.clipped = 0
    simp [Program.reset, Config.unity]
  · have ht : (resetHub straps s).tour k = .reset := atReset_tour straps k
    simp [ht, Tour.reset, TourLive.reset]
  · have hr : (resetHub straps s).rack r = .reset := atReset_rack straps r
    simp [hr, Rack.reset, RackCounters.zero]

/-- Settles O11: the arbiter of a link that comes UP is the one `startPlacing` leaves. -/
theorem linkUpPlacesOldestFrame : Obligations.LinkUpPlacesOldestFrame := fun s =>
  ⟨_, rfl, by simp, heldFrames_startPlacing _, placing_startPlacing _ rfl, by simp, by simp,
    withHli_keeps .refl (by simp) (by decide) (by decide)⟩

end Sys2Proof.Machine
end

section
/-! Every command keeps the zone counts (O5), the bounds of the queues (O7) and the arbiter (O8): the requests that act on
them, the arriving frames and the clock, in the terms of `Steady`. -/

namespace Sys2Proof.Machine

open Sys2Proof

variable {s t u : State} {a : List Byte}

namespace Steady

/-! ### Owners of requests -/

theorem changeChannel {ch : Fin 24} {p : Option (Fin 32)} {zs : ZoneSet} (h : Steady s t) :
    Steady s (changeChannel ch p zs t) := by
  unfold Machine.changeChannel
  repeat' split
  exacts [h, h.freeChannel, h.setZones, h.unbindProgram.bindChannel, h.bindChannel]

theorem loadChannel (h : Steady s t) : Steady s (loadChannel a t).state := by
  have applied (zs : ZoneSet) (ch : Fin 24) (p : Option (Fin 32)) (ys : ZoneSet) :
      Steady s (Machine.serveZones zs (Machine.changeChannel ch p ys t)) := h.changeChannel.serveZones
  simp only [Machine.loadChannel]
  split
  · exact h
  split
  · exact h
  split
  · exact applied _ _ _ _
  split
  · exact h
  split
  · exact h
  split
  exacts [h, applied _ _ _ _]

theorem tourStart (h : Steady s t) : Steady s (tourStart a t).state := by
  unfold Machine.tourStart
  repeat' split
  exacts [h, h, h.startTour.of_keeps (readAnswer_keeps (ps := [.choices]) .refl (by decide)) (by decide)]

theorem endTour {slot : Fin 16} (h : Steady s t) : Steady s (endTour slot t) := by
  simp only [Machine.endTour]
  exact ite (closeTour (putLive h.releaseRun)) (putLive h.releaseRun)

theorem tourEnd (h : Steady s t) : Steady s (tourEnd a t).state := by
  simp only [Machine.tourEnd, endReply]
  repeat' split
  all_goals dsimp only [refuse_state]
  exacts [h, h, h.endTour, h, h]

theorem tourAbort (h : Steady s t) : Steady s (tourAbort a t).state := by
  simp only [Machine.tourAbort]
  repeat' split
  all_goals dsimp only [refuse_state]
  exacts [h, h.closeTour, h]

theorem loadRackConfig (h : Steady s t) : Steady s (loadRackConfig a t).state := by
  unfold Machine.loadRackConfig
  repeat' split
  exacts [h, h, h.applyRackConfig]

theorem loadThermalTable (h : Steady s t) : Steady s (loadThermalTable a t).state := by
  unfold Machine.loadThermalTable applyBandTable
  split
  all_goals dsimp only [refuse_state, answer_state]
  exacts [h, forEach (fun _ _ k => k.treatRack)
    (h.of_keeps (withTable_keeps (ps := [.bandTable]) .refl (by decide)) (by decide))]

theorem putMode {m : HallMode} (h : Steady s t) : Steady s (putMode m t) :=
  h.of_keeps (withMode_keeps (ps := [.mode]) .refl (by decide)) (by decide)

theorem setHallMode (h : Steady s t) : Steady s (setHallMode a t).state := by
  have closed : Steady s (closeHall t) := by
    unfold closeHall
    exact h.closeAll.putMode.refreshAll
  have opened : Steady s (openHall t) := by
    unfold openHall
    exact refreshAll (h.putMode.of_keeps (withMxr_keeps (ps := [.programs]) .refl (by decide)) (by decide))
  simp only [Machine.setHallMode, modeReply]
  repeat' split
  all_goals dsimp only [refuse_state]
  exacts [h, h, closed, opened]

theorem emptyClass1 (h : Steady s t) : Steady s (emptyClass1 t) := by
  refine h.trans ⟨id, fun ⟨ha, hd⟩ => ⟨fun hp => ?_, hd⟩, fun ⟨hq, hr, hc, _, hb⟩ => ⟨hq, hr, hc, ?_, hb⟩⟩
  · have := ha hp
    simp_all [heldFrames, Machine.emptyClass1]
  · simp [Machine.emptyClass1]

theorem zeroCounters (h : Steady s t) : Steady s (zeroCounters t) :=
  h.trans ⟨id, id, id⟩

theorem restartHub (h : Steady s t) : Steady s (restartHub t) := by
  have emptied := refreshAll (emptyClass1 (putMode (m := .closed) (h.closeAll (q := true))))
  have pending := emptied.of_keeps (markAllPending_keeps (ps := [.bays]) .refl (by decide)) (by decide)
  have sources := pending.of_keeps (restartSources_keeps (ps := [.sources]) .refl (by decide)) (by decide)
  have programs := sources.of_keeps (restartPrograms_keeps (ps := [.programs]) .refl (by decide)) (by decide)
  exact zeroCounters (programs.withEvq fun _ => Nat.zero_le _)

theorem setTime (h : Steady s t) : Steady s (setTime a t).state := by
  simp only [Machine.setTime]
  exact judgeDeadlines (h.trans ⟨id, id, id⟩)

theorem readEvents (h : Steady s t) : Steady s (readEvents a t).state :=
  h.withEvq fun hq => by simp; omega

theorem flushEvents (h : Steady s t) : Steady s (flushEvents a t).state := h.withEvq fun _ => Nat.zero_le _

/-! ### The hall link -/

/-- A placed frame leaves a link that is UP with the next frame begun (R165). -/
theorem completePlacing {f : EgressFrame} (h : Steady s t) (hp : t.hli.placing = some f) :
    Steady s (completePlacing f t) := by
  refine tellSender (h.trans ⟨id, fun ⟨_, hd⟩ => ?_, fun ⟨hq, hr, hc, hb⟩ => ⟨hq, hr, ?_⟩⟩)
  · cases hl : t.hli.linkUp with
    | true => exact linkSettled_startPlacing hl
    | false => simp [hp] at hd; simp [hl] at hd
  · refine linkBounded_startPlacing ⟨?_, hb⟩
    simp only [class3Held_eq, hp] at hc ⊢
    simp only [Option.map_none, reduceCtorEq, if_false]
    omega

theorem placedWhen {kind : Origin → Bool} (h : Steady s t) : Steady s (placedWhen kind t) := by
  unfold Machine.placedWhen
  split
  · rename_i hp
    exact ite (h.completePlacing hp) h
  · exact h

/-- A link that goes DOWN holds no frame (R164). -/
theorem dropLink (h : Steady s t) : Steady s (dropLink t) := by
  refine rackSender (forEach (fun _ _ k => k.discardFrame) (h.trans ⟨id, fun _ => ?_, fun ⟨hq, hr, _⟩ => ⟨hq, hr, ?_⟩⟩))
  · exact ⟨fun _ => rfl, fun _ => rfl⟩
  · simp [class3Held]

theorem linkUp (h : Steady s t) : Steady s (t.withHli (startPlacing { t.hli with linkUp := true })) :=
  h.trans ⟨id, fun _ => linkSettled_startPlacing rfl, fun ⟨hq, hr, hb⟩ =>
    ⟨hq, hr, linkBounded_startPlacing (h := { t.hli with linkUp := true }) hb⟩⟩

theorem putLinkCounters {c : LinkCounters} (h : Steady s t) : Steady s (t.putLinkCounters c) :=
  h.withHli_counters rfl rfl rfl rfl rfl

/-- A request joins the queue while fewer than 4 wait (R180). -/
theorem takeRequest {x : Station} (h : Steady s t) : Steady s (takeRequest x a t) := by
  simp only [Machine.takeRequest]
  split
  · rename_i hn
    refine takeNext (h.trans ⟨id, id, fun ⟨hq, _, hb⟩ => ⟨hq, ?_, hb⟩⟩)
    simp at hn ⊢
    omega
  · exact handOverSpare (h.trans ⟨id, id, id⟩)

theorem takeAudio {x : Station} (h : Steady s t) : Steady s (takeAudio x a t) := by
  have taken (i : Fin 48) (r : Source) : Steady s (takeSourceFrame i r a t) := by
    simp only [takeSourceFrame]
    repeat' split
    exacts [h.putSource, h.putSource, h.putSource, h.putSource.passAdvance, h.putSource]
  simp only [Machine.takeAudio]
  repeat' split
  exacts [h.putLinkCounters, h.putLinkCounters, h.putLinkCounters, taken _ _]

theorem takeStatus {x : Station} (h : Steady s t) : Steady s (takeStatus x a t) := by
  have chosen : Steady s t.useChoice := h.trans ⟨id, id, id⟩
  unfold Machine.takeStatus
  repeat' split
  exacts [h.trans ⟨id, id, id⟩, h.putRackLive, chosen.settlePoll.takeReading.rackSender]

theorem takeNotice {x : Station} (h : Steady s t) : Steady s (takeNotice x a t) := by
  simp only [Machine.takeNotice]
  split
  · exact h.trans ⟨id, id, id⟩
  split
  exacts [h.putRackLive, h.comparePresence.rackSender]

theorem arrive {frame : List Byte} (h : Steady s t) : Steady s (arrive frame t) := by
  unfold Machine.arrive dispatchFrame
  refine ite ?_ h
  split
  · exact h.putLinkCounters
  · have counted : Steady s (countReceived t) := h.putLinkCounters
    split
    exacts [counted.takeAudio, ite counted.takeStatus counted.putLinkCounters,
      ite counted.takeNotice counted.putLinkCounters, counted.takeRequest]

theorem badRequest (h : Steady s t) : Steady s (badRequest t) := by
  unfold Machine.badRequest
  split
  exacts [ite h (offerReply (h.trans ⟨id, id, id⟩)), h, h]

theorem acceptHeld (h : Steady s t) : Steady s (acceptHeld t) := by
  unfold Machine.acceptHeld
  split
  exacts [h.offerReply, h, h]

theorem resetHub (straps : BitVec 4) : Steady s (resetHub straps s) :=
  ⟨fun _ => zonesCounted_atReset straps, fun _ => arbiterSettled_atReset straps,
    fun _ => queuesBounded_atReset straps⟩

/-! ### The hub's clock -/

theorem mixSource {i : Fin 48} (h : Steady s t) : Steady s (mixSource i t) := by
  simp only [Machine.mixSource]
  repeat' split
  exacts [h, h.putSource.raiseEvent, h.putSource]

theorem mixPoint (h : Steady s t) : Steady s (mixPoint t) := by
  have reached : Steady s (reachMix t) := h.trans ⟨id, id, id⟩
  have sources : Steady s (takeSources (reachMix t)) := by
    unfold takeSources
    exact forEach (fun _ _ k => k.mixSource) reached
  have mixed (feed : MixFeed) : Steady s (mixPrograms feed (takeSources (reachMix t))) :=
    sources.of_keeps (withMxr_keeps (ps := [.programs]) .refl (by decide)) (by decide)
  have emitted (xs : List (Fin 24 × Frame)) (feed : MixFeed) :=
    (mixed feed).emitPrograms (xs := xs) |>.of_keeps (useChoice_keeps (ps := [.choices]) .refl (by decide)) (by decide)
  unfold Machine.mixPoint runMix
  refine rackSender (forEach (fun x _ k => ?_) (emitted _ _))
  cases x
  exacts [k.tickWindow, k.tickTour]

theorem hubTimeTick (h : Steady s t) : Steady s (hubTimeTick t) := by
  simp only [Machine.hubTimeTick]
  exact ite (judgeDeadlines (h.trans ⟨id, id, id⟩)) (h.trans ⟨id, id, id⟩)

theorem spacingExpiry {r : Fin 12} (h : Steady s t) : Steady s (spacingExpiry r t) := by
  simp only [Machine.spacingExpiry]
  split
  · exact h
  · exact ite (sendPoll (putRackLive h.withClock)) (putRackLive h.withClock)

theorem pollTimeout {r : Fin 12} (h : Steady s t) : Steady s (pollTimeout r t) := by
  simp only [Machine.pollTimeout]
  split
  · exact h
  · exact putRackLive (ite (rackOffline (putRackLive h.withClock)) (putRackLive h.withClock))

theorem cadenceExpiry {r : Fin 12} (h : Steady s t) : Steady s (cadenceExpiry r t) := by
  unfold Machine.cadenceExpiry
  split
  exacts [h, rackSender (restartCadence (cadenceAct h.withClock))]

theorem turnExpiry {r : Fin 12} {b : Fin 24} (h : Steady s t) : Steady s (turnExpiry r b t) := by
  unfold Machine.turnExpiry
  split
  exacts [h, rackSender (endTurn h.withClock)]

/-! ### Every command -/

/-- A command outside the zones, the event queue, the arbiter and the request queue. -/
theorem of_nextState {c : Instr} (hw : c.wellFormed = true)
    (hp : ∀ p ∈ [Part.zones, .events, .link, .egress, .requests], p ∉ mayChange c) : Steady s (nextState c s) :=
  refl.of_keeps (nextState_keeps hw s) hp

/-- A request whose owner works outside the zones, the event queue, the arbiter and the request queue. -/
theorem serve_of_keeps {ps : List Part} {code : Nat} {owner : List Byte → State → Answer}
    (ho : ∀ args, KeepsAllBut ps s (owner args s).state)
    (hp : ∀ p ∈ [Part.zones, .events, .link, .egress, .requests], p ∉ ps) : Steady s (Machine.serve code owner s) :=
  serve (fun args => refl.of_keeps (ho args) hp) refl

theorem serveRacks_of_keeps {ps : List Part} {code : Nat} {owner : List Byte → State → Answer}
    (ho : ∀ args, KeepsAllBut ps s (owner args s).state)
    (hp : ∀ p ∈ [Part.zones, .events, .link, .egress, .requests], p ∉ ps) :
    Steady s (Machine.serveRacks code owner s) := serveRacks (fun args => refl.of_keeps (ho args) hp) refl

end Steady

theorem nextState_steady (c : Instr) (s : State) : Steady s (nextState c s) := by
  cases c with
  | powerOn x => exact .resetHub x
  | pinReset x => exact .resetHub x
  | linkUp => exact .linkUp .refl
  | linkDown => exact .ite (.dropLink .refl) .refl
  | frameRejected f => exact .arrive .refl
  | audioUp f => exact .arrive .refl
  | bayStatus f => exact .arrive .refl
  | dockNotice f => exact .arrive .refl
  | mgmtRequest f => exact .arrive .refl
  | badRequest => exact .badRequest .refl
  | replyAccepted => exact .acceptHeld .refl
  | loadSource => exact .serve_of_keeps (ps := [.sources]) (fun _ => loadSource_keeps .refl (by decide)) (by decide)
  | readSource => exact .serve_of_keeps (ps := [.choices]) (fun _ => readSource_keeps .refl (by decide)) (by decide)
  | loadProgram =>
    exact .serve_of_keeps (ps := [.programs]) (fun _ => loadProgram_keeps .refl (by decide)) (by decide)
  | stageGain => exact .serve_of_keeps (ps := [.programs]) (fun _ => stageGain_keeps .refl (by decide)) (by decide)
  | applyGains => exact .serve_of_keeps (ps := [.programs]) (fun _ => withMxr_keeps .refl (by decide)) (by decide)
  | readProgram => exact .serve_of_keeps (ps := [.choices]) (fun _ => readProgram_keeps .refl (by decide)) (by decide)
  | loadChannel => exact .serve (fun _ => .loadChannel .refl) .refl
  | readChannel => exact .serve_of_keeps (ps := [.choices]) (fun _ => readChannel_keeps .refl (by decide)) (by decide)
  | readZone => exact .serve_of_keeps (ps := [.choices]) (fun _ => readZone_keeps .refl (by decide)) (by decide)
  | loadTourPlan => exact .serve_of_keeps (ps := [.tours]) (fun _ => loadTourPlan_keeps .refl (by decide)) (by decide)
  | loadTourTiming =>
    exact .serve_of_keeps (ps := [.tours]) (fun _ => loadTourTiming_keeps .refl (by decide)) (by decide)
  | clearTour => exact .serve_of_keeps (ps := [.tours]) (fun _ => clearTour_keeps .refl (by decide)) (by decide)
  | readTour => exact .serve_of_keeps (ps := [.choices]) (fun _ => readTour_keeps .refl (by decide)) (by decide)
  | tourStart => exact .serveRacks (fun _ => .tourStart .refl) .refl
  | reserveMore =>
    exact .serveRacks_of_keeps (ps := [.receivers, .bays, .tours])
      (fun _ => reserveMore_keeps .refl (by decide) (by decide) (by decide)) (by decide)
  | tourEnd => exact .serveRacks (fun _ => .tourEnd .refl) .refl
  | tourAbort => exact .serveRacks (fun _ => .tourAbort .refl) .refl
  | enrol =>
    exact .serveRacks_of_keeps (ps := [.receivers, .bays])
      (fun _ => enrol_keeps .refl (by decide) (by decide)) (by decide)
  | retire =>
    exact .serveRacks_of_keeps (ps := [.receivers, .bays, .sched])
      (fun _ => retire_keeps .refl (by decide) (by decide) (by decide)) (by decide)
  | readReceiver =>
    exact .serve_of_keeps (ps := [.choices]) (fun _ => readReceiver_keeps .refl (by decide)) (by decide)
  | loadRackConfig => exact .serveRacks (fun _ => .loadRackConfig .refl) .refl
  | readRack => exact .serve_of_keeps (ps := [.choices]) (fun _ => readRack_keeps .refl (by decide)) (by decide)
  | readBay => exact .serve_of_keeps (ps := [.choices]) (fun _ => readBay_keeps .refl (by decide)) (by decide)
  | loadLevelCurve =>
    exact .serve_of_keeps (ps := [.curve]) (fun _ => loadLevelCurve_keeps .refl (by decide)) (by decide)
  | loadThermalTable => exact .serveRacks (fun _ => .loadThermalTable .refl) .refl
  | readThermalTable =>
    exact .serve_of_keeps (ps := [.choices]) (fun _ => readAnswer_keeps .refl (by decide)) (by decide)
  | readEvents => exact .serve (fun _ => .readEvents .refl) .refl
  | flushEvents => exact .serve (fun _ => .flushEvents .refl) .refl
  | enableSet => exact .serve_of_keeps (ps := [.enables]) (fun _ => withEnables_keeps .refl (by decide)) (by decide)
  | enableClear => exact .serve_of_keeps (ps := [.enables]) (fun _ => withEnables_keeps .refl (by decide)) (by decide)
  | setHallMode => exact .serveRacks (fun _ => .setHallMode .refl) .refl
  | restart => exact .serveRacks (fun _ => .restartHub .refl) .refl
  | setTime => exact .serve (fun _ => .setTime .refl) .refl
  | readIdentity => exact .serve_of_keeps (ps := []) (fun _ => .refl) (by decide)
  | readCounters => exact .serve_of_keeps (ps := []) (fun _ => .refl) (by decide)
  | setHallSettings =>
    exact .serve_of_keeps (ps := [.settings]) (fun _ => setHallSettings_keeps .refl (by decide)) (by decide)
  | mixPoint => exact .mixPoint .refl
  | sourceStale i =>
    change Steady s (sourceStale i s)
    unfold sourceStale
    split
    exacts [.refl, .ite (.mixSource .refl) .refl]
  | voiceFlagClear i => exact .of_keeps .refl (voiceFlagClear_keeps (ps := [.sources]) .refl (by decide)) (by decide)
  | windowEnd k => exact .ite (.tickWindow .refl) .refl
  | guideQuiet k => exact .ite (.countSilence .refl) .refl
  | fallbackWrite k => exact .ite (.countSilence .refl) .refl
  | closeHoldExpiry k => exact .ite (.rackSender (.closeTour .refl)) .refl
  | closeWaitExpiry k => exact .ite (.rackSender (.closeTour .refl)) .refl
  | hubTimeTick => exact .hubTimeTick .refl
  | overdue n => exact .overdueOne .refl
  | spacingTimerExpiry r => exact .spacingExpiry .refl
  | pollPlaced =>
    simp only [nextState, exec, execPollPlaced]
    exact .placedWhen .refl
  | pollTimeout r => exact .rackSender (.pollTimeout .refl)
  | dockSettleExpiry b =>
    exact .of_keeps .refl (settleExpiry_keeps (ps := [.clock, .bays]) .refl (by decide) (by decide)) (by decide)
  | turnSettleExpiry b =>
    exact .of_keeps .refl (settleExpiry_keeps (ps := [.clock, .bays]) .refl (by decide) (by decide)) (by decide)
  | bayCommandPlaced => exact .rackSender (.placedWhen .refl)
  | framePlaced =>
    simp only [nextState, exec, execFramePlaced]
    exact .placedWhen .refl
  | cadenceExpiry r => exact .cadenceExpiry .refl
  | turnExpiry r b => exact .turnExpiry .refl

/-- Every step is steady. -/
theorem step_steady (h : step s = .next t) : Steady s t :=
  step_preserves (P := Steady s) h .refl (fun _ k => k.trans ⟨id, id, id⟩) fun c u k => k.trans (nextState_steady c u)

/-- Settles O5: every zone set is written by `setZones`, which moves the counts with it. -/
theorem zonesStayCounted : Obligations.ZonesStayCounted := fun _ _ hs h => (step_steady h).counted hs

/-- Settles O7: an event joins a queue of fewer than 64, a request one of fewer than 4, and a frame of class 3 one that has a
place. -/
theorem queuesStayBounded : Obligations.QueuesStayBounded := fun _ _ hs h => (step_steady h).queues hs

/-- Settles O8: every hand-over and every completed placing ends with `startPlacing`, and a link that goes DOWN is
emptied. -/
theorem arbiterStaysSettled : Obligations.ArbiterStaysSettled := fun _ _ hs h => (step_steady h).arbiter hs

end Sys2Proof.Machine
end

section
/-! What a frame says of single records, and what the operations of the charge scheduler do to the scheduler part of the
racks (07). -/

namespace Sys2Proof.Machine

open Sys2Proof

variable {s t u : State} {ps : List Part}

/-! ### Records read through a frame -/

namespace KeepsAllBut

theorem source_eq (k : KeepsAllBut ps s t) (hp : Part.sources ∉ ps) (i : Fin 48) : t.source i = s.source i :=
  congrArg (fun x => x.sources.get i) (k .sources hp)

theorem program_eq (k : KeepsAllBut ps s t) (hp : Part.programs ∉ ps) (i : Fin 32) : t.program i = s.program i :=
  congrArg (fun x => x.programs.get i) (k .programs hp)

theorem channel_eq (k : KeepsAllBut ps s t) (hp : Part.zones ∉ ps) (i : Fin 24) : t.channel i = s.channel i :=
  congrArg (fun x => x.channels.get i) (k .zones hp)

theorem zone_eq (k : KeepsAllBut ps s t) (hp : Part.zones ∉ ps) (i : Fin 12) : t.zone i = s.zone i :=
  congrArg (fun x => x.zones.get i) (k .zones hp)

theorem tour_eq (k : KeepsAllBut ps s t) (hp : Part.tours ∉ ps) (i : Fin 16) : t.tour i = s.tour i :=
  congrArg (fun x => x.tours.get i) (k .tours hp)

theorem receiver_eq (k : KeepsAllBut ps s t) (hp : Part.receivers ∉ ps) (i : Fin 384) : t.receiver i = s.receiver i :=
  congrArg (fun x => x.get i) (k .receivers hp)

theorem bay_eq (k : KeepsAllBut ps s t) (hp : Part.bays ∉ ps) (i : Fin 288) : t.bay i = s.bay i :=
  congrArg (fun x => x.get i) (k .bays hp)

theorem sched_eq (k : KeepsAllBut ps s t) (hp : Part.sched ∉ ps) (i : Fin 12) : t.sched i = s.sched i :=
  congrArg (fun x => x.get i) (k .sched hp)

theorem rack_eq (k : KeepsAllBut ps s t) (hc : Part.rackConfigs ∉ ps) (hl : Part.rackLives ∉ ps) (i : Fin 12) :
    t.rack i = s.rack i := by
  have h1 := k .rackConfigs hc i
  have h2 := k .rackLives hl i
  cases ht : t.rack i
  cases hs : s.rack i
  simp_all

theorem isOnline_eq (k : KeepsAllBut ps s t) (hl : Part.rackLives ∉ ps) (r : Fin 12) : isOnline t r = isOnline s r := by
  simp only [isOnline, k .rackLives hl r]

theorem bandEntry_eq (k : KeepsAllBut ps s t) (hb : Part.bandTable ∉ ps) {r : Fin 12}
    (hr : (t.sched r).band = (s.sched r).band) : bandEntry t r = bandEntry s r := by
  have : t.chs.table = s.chs.table := k .bandTable hb
  simp only [bandEntry, hr, this]

theorem capacityOf_eq (k : KeepsAllBut ps s t) (hb : Part.bandTable ∉ ps) (hm : Part.mode ∉ ps)
    (hc : Part.rackConfigs ∉ ps) {r : Fin 12} (hr : (t.sched r).band = (s.sched r).band) :
    capacityOf t r = capacityOf s r := by
  have h1 : t.mge.mode = s.mge.mode := k .mode hm
  simp only [capacityOf, k.bandEntry_eq hb hr, k .rackConfigs hc r, h1]

end KeepsAllBut

/-- A property that an action establishes for its own index, and keeps for the others, holds for every index after the
actions of all indices. -/
theorem forEach_indices_all {n : Nat} {P : Fin n → State → Prop} {I : State → Prop} {f : Fin n → State → State}
    (hf : ∀ i u, I u → I (f i u) ∧ P i (f i u) ∧ ∀ j, j ≠ i → P j u → P j (f i u)) (hI : I s) (i : Fin n) :
    P i (forEach (indices n) f s) := by
  suffices h : ∀ (is : List (Fin n)) u, I u → (i ∈ is ∨ P i u) → P i (forEach is f u) from
    h _ _ hI (.inl (List.mem_finRange i))
  intro is
  induction is with
  | nil => exact fun u _ h => h.elim (by simp) id
  | cons a as ih =>
    intro u hu h
    obtain ⟨h1, h2, h3⟩ := hf a u hu
    refine ih _ h1 ?_
    by_cases e : i = a
    · exact .inr (e ▸ h2)
    · rcases h with h | h
      · exact .inl ((List.mem_cons.mp h).resolve_left e)
      · exact .inr (h3 i e h)

/-! ### The scheduler part under each operation -/

theorem stopTurn_sched (r r' : Fin 12) (b : Fin 24) (s : State) : (stopTurn r b s).sched r' = if r' = r then
    { s.sched r with active := (s.sched r).active.filter fun x => decide (x.bay ≠ b) } else s.sched r' :=
  ((startTurnSettle_keeps (judge_keeps .refl (List.mem_singleton.mpr rfl)) (List.mem_singleton.mpr rfl)).sched_eq
    (by decide) r').trans (State.putSched_sched _ _ _ _)

theorem forEach_stopTurn_sched (r r' : Fin 12) (ts : List Turn) (s : State) :
    (forEach ts (fun t => stopTurn r t.bay) s).sched r' = if r' = r then
      { s.sched r with active := (s.sched r).active.filter fun x => decide (∀ t ∈ ts, x.bay ≠ t.bay) }
    else s.sched r' := by
  induction ts generalizing s with
  | nil => simp only [forEach, List.foldl_nil]; split <;> simp_all
  | cons t ts ih =>
    have : forEach (t :: ts) (fun t => stopTurn r t.bay) s =
      forEach ts (fun t => stopTurn r t.bay) (stopTurn r t.bay s) := rfl
    rw [this, ih]
    split
    · simp [stopTurn_sched, List.filter_filter, Bool.and_comm]
    · rename_i h
      simp [stopTurn_sched, h]

/-- The turns that a list keeps when those after its first `n` end (R149, R150). -/
def keptTurns (n : Nat) (ts : List Turn) : List Turn :=
  ts.filter fun x => decide (∀ t ∈ ts.drop n, x.bay ≠ t.bay)

theorem trimTurns_sched (r r' : Fin 12) (n : Nat) (s : State) : (trimTurns r n s).sched r' = if r' = r then
    { s.sched r with active := keptTurns n (s.sched r).active } else s.sched r' := by
  simp [trimTurns, forEach_stopTurn_sched, keptTurns]

theorem keptTurns_length_le (n : Nat) (ts : List Turn) : (keptTurns n ts).length ≤ n := by
  have hd : (ts.drop n).filter (fun x => decide (∀ t ∈ ts.drop n, x.bay ≠ t.bay)) = [] :=
    List.filter_eq_nil_iff.mpr fun x hx => by simpa using ⟨x, hx, rfl⟩
  have : keptTurns n ts = (ts.take n).filter fun x => decide (∀ t ∈ ts.drop n, x.bay ≠ t.bay) := by
    unfold keptTurns
    conv_lhs => rw [← List.take_append_drop n ts]
    rw [List.filter_append, List.take_append_drop, hd, List.append_nil]
  rw [this]
  exact (List.length_filter_le _ _).trans (List.length_take_le _ _)

/-- A list of turns on different bays keeps its first `n`. -/
theorem keptTurns_eq_take {n : Nat} {ts : List Turn} (h : (ts.map Turn.bay).Nodup) : keptTurns n ts = ts.take n := by
  have hd : (ts.drop n).filter (fun x => decide (∀ t ∈ ts.drop n, x.bay ≠ t.bay)) = [] :=
    List.filter_eq_nil_iff.mpr fun x hx => by simpa using ⟨x, hx, rfl⟩
  have ht : (ts.take n).filter (fun x => decide (∀ t ∈ ts.drop n, x.bay ≠ t.bay)) = ts.take n := by
    refine List.filter_eq_self.mpr fun x hx => ?_
    rw [← List.take_append_drop n ts, List.map_append, List.nodup_append] at h
    exact decide_eq_true fun t ht => h.2.2 _ (List.mem_map_of_mem hx) _ (List.mem_map_of_mem ht)
  unfold keptTurns
  conv_lhs => rw [← List.take_append_drop n ts]
  rw [List.filter_append, List.take_append_drop, hd, ht, List.append_nil]

/-- The cadence of a rack loaded with the full period, or stopped (R142). -/
def loadedCadence (s : State) (r : Fin 12) : Option Nat :=
  if isOnline s r && decide (0 < (s.sched r).capacity) then some (s.clock.now + cadencePeriod s r) else none

theorem restartCadence_sched (r r' : Fin 12) (s : State) : (restartCadence r s).sched r' = if r' = r then
    { s.sched r with cadenceEnds := loadedCadence s r } else s.sched r' := State.putSched_sched _ _ _ _

theorem newRound_sched (r r' : Fin 12) (s : State) : (newRound r s).sched r' = if r' = r then
    { s.sched r with round := (s.sched r).round + 1 } else s.sched r' := by
  have k : KeepsAllBut [.bays] s (forEach (indices 24)
      (fun b u => u.putBay (bayAddress r b) { u.bay (bayAddress r b) with served := false }) s) :=
    forEach_keeps (fun _ _ k => putBay_keeps k (by decide)) .refl
  simp only [newRound, State.putSched_sched, k.sched_eq (by decide)]

theorem startTurn_sched (r r' : Fin 12) (b : Fin 24) (s : State) : (startTurn r b s).sched r' = if r' = r then
    { s.sched r with
      active := (s.sched r).active ++ [⟨b, s.clock.now + (s.rack r).config.turnLength * 1000⟩]
      counters := { (s.sched r).counters with started := satAdd (s.sched r).counters.started 1 } }
    else s.sched r' := by
  have k (u : State) : KeepsAllBut [.bays, .receivers] u (countTurn (bayAddress r b)
      (startTurnSettle (bayAddress r b) (setMode (bayAddress r b) .fast u))) :=
    countTurn_keeps (startTurnSettle_keeps (setMode_keeps .refl (by decide)) (by decide)) (by decide)
  simp only [startTurn, (k _).sched_eq (by decide), State.putBay_sched, State.putSched_sched]

theorem leaveOnline_sched (r r' : Fin 12) (s : State) : (leaveOnline r s).sched r' = if r' = r then
    { s.sched r with active := keptTurns 0 (s.sched r).active, cadenceEnds := none } else s.sched r' := by
  simp only [leaveOnline, State.putSched_sched, trimTurns_sched, if_true]
  split <;> rfl

theorem keptTurns_zero (ts : List Turn) : keptTurns 0 ts = [] :=
  List.eq_nil_of_length_eq_zero (Nat.le_zero.mp (keptTurns_length_le 0 ts))

theorem judgeRack_sched (r r' : Fin 12) (s : State) : (judgeRack r s).sched r' = s.sched r' :=
  (judgeRack_keeps .refl (List.mem_singleton.mpr rfl)).sched_eq (by decide) r'

theorem resync_sched (r r' : Fin 12) (s : State) : ∃ c, (resync r s).sched r' = if r' = r then
    { s.sched r with round := (s.sched r).round + 1, postponed := 0, pulledIn := 0, cadenceEnds := c }
    else s.sched r' := by
  simp only [resync, restartCadence_sched, judgeRack_sched, State.putSched_sched, newRound_sched, if_true]
  by_cases hr : r' = r
  · simp only [hr, if_true]
    exact ⟨_, rfl⟩
  · simp only [hr, if_false]
    exact ⟨none, trivial⟩

/-- C is computed afresh, and the latest turns beyond it end (R141, R150, R152). -/
theorem refreshCapacity_sched (r r' : Fin 12) (s : State) : ∃ c, (refreshCapacity r s).sched r' = if r' = r then
    { s.sched r with capacity := capacityOf s r, active := keptTurns (capacityOf s r) (s.sched r).active,
                     cadenceEnds := c } else s.sched r' := by
  by_cases hr : r' = r
  · subst hr
    simp only [refreshCapacity]
    split
    · simp only [State.putSched_sched_self, trimTurns_sched, if_true]
      exact ⟨_, rfl⟩
    split
    · simp only [restartCadence_sched, trimTurns_sched, State.putSched_sched_self, if_true]
      exact ⟨_, rfl⟩
    · simp only [trimTurns_sched, State.putSched_sched_self, if_true]
      exact ⟨_, rfl⟩
  · refine ⟨none, ?_⟩
    simp only [refreshCapacity, hr, if_false]
    repeat' split
    all_goals simp only [restartCadence_sched, State.putSched_sched, trimTurns_sched, hr, if_false]

/-- The scheduler part of a rack with a new band and no turn-list change yet (R151, steps 1 to 3). -/
def bandedSched (new : Fin 8) (e : BandEntry) (q : Sched) : Sched :=
  { q with
    band := some new, pulledIn := 0, postponed := min q.postponed e.pMax
    counters := { q.counters with dropped := satAdd q.counters.dropped (q.postponed - e.pMax) } }

/-- The capacity a band gives a rack in the present hall mode (R141). -/
def bandCapacity (s : State) (r : Fin 12) (new : Fin 8) : Nat :=
  min (s.chs.table.entries.get new).cap (match s.mge.mode with
    | .opened => (s.rack r).config.openCap
    | .closed => (s.rack r).config.closedCap)

theorem capacityOf_of_band {r : Fin 12} {k : Fin 8} (h : (s.sched r).band = some k) :
    capacityOf s r = bandCapacity s r k := by
  simp only [capacityOf, bandEntry, h, bandCapacity, Option.map_some] <;> rfl

theorem capacityOf_of_no_band {r : Fin 12} (h : (s.sched r).band = none) : capacityOf s r = 0 := by
  simp [capacityOf, bandEntry, h]

theorem changeBand_sched (r r' : Fin 12) (new : Fin 8) (s : State) : ∃ c, (changeBand r new s).sched r' = if r' = r then
    { bandedSched new (s.chs.table.entries.get new) (s.sched r) with
      capacity := bandCapacity s r new, active := keptTurns (bandCapacity s r new) (s.sched r).active,
      cadenceEnds := c } else s.sched r' := by
  have raised (k : EventKind) (n d : Nat) (u : State) : (raiseEvent k n none d u).sched r' = u.sched r' :=
    (raiseEvent_keeps (ps := [.events, .egress]) .refl (by decide) (by decide)).sched_eq (by decide) r'
  have cap (x : Sched) (hx : x.band = some new) : capacityOf (s.putSched r x) r = bandCapacity s r new := by
    rw [capacityOf_of_band (k := new) (by simp [hx])]; rfl
  simp only [changeBand, apply_ite (fun u : State => u.sched r'), raised, ite_self, restartCadence_sched,
    judgeRack_sched, trimTurns_sched, State.putSched_sched, if_true]
  by_cases hr : r' = r
  · subst hr
    simp only [if_true, cap]
    exact ⟨_, rfl⟩
  · simp only [hr, if_false]
    exact ⟨none, trivial⟩

end Sys2Proof.Machine
end

section
/-! Every command keeps the active turns within C and the turn debts within the band (R141, R146; O10): each operation of the
charge scheduler is judged by what it does to the scheduler part of one rack. -/

namespace Sys2Proof.Machine

open Sys2Proof

variable {s t u : State} {a : List Byte} {ps : List Part}

/-- The clause of `ChargeBounded` on one rack. -/
def RackBounded (s : State) (r : Fin 12) : Prop :=
  (s.sched r).capacity = capacityOf s r ∧ (s.sched r).active.length ≤ (s.sched r).capacity ∧
    ∀ e, bandEntry s r = some e → (s.sched r).postponed ≤ e.pMax ∧ (s.sched r).pulledIn ≤ e.iMax

theorem chargeBounded_iff : ChargeBounded s ↔ ∀ r, RackBounded s r := Iff.rfl

/-- The parts that decide a rack's capacity and limits besides its scheduler part. -/
def capacityParts : List Part := [.bandTable, .mode, .rackConfigs]

/-- A rack whose scheduler part keeps band and capacity, and is within their bounds, stays bounded. -/
theorem RackBounded.update {r : Fin 12} (h : RackBounded s r) (k : KeepsAllBut ps s t)
    (hp : ∀ p ∈ capacityParts, p ∉ ps) (hb : (t.sched r).band = (s.sched r).band)
    (hc : (t.sched r).capacity = (s.sched r).capacity) (ha : (t.sched r).active.length ≤ (s.sched r).capacity)
    (hd : ∀ e, bandEntry s r = some e → (t.sched r).postponed ≤ e.pMax ∧ (t.sched r).pulledIn ≤ e.iMax) :
    RackBounded t r := by
  have ht : Part.bandTable ∉ ps := hp _ (by decide)
  refine ⟨?_, hc ▸ ha, k.bandEntry_eq ht hb ▸ hd⟩
  rw [hc, h.1, k.capacityOf_eq ht (hp _ (by decide)) (hp _ (by decide)) hb]

theorem RackBounded.of_keeps {r : Fin 12} (h : RackBounded s r) (k : KeepsAllBut ps s t)
    (hp : ∀ p ∈ capacityParts, p ∉ ps) (hs : t.sched r = s.sched r) : RackBounded t r :=
  h.update k hp (by rw [hs]) (by rw [hs]) (by rw [hs]; exact h.2.1) (by rw [hs]; exact h.2.2)

namespace ChargeBounded

theorem ite {c : Prop} [Decidable c] (h : ChargeBounded t) (k : ChargeBounded u) : ChargeBounded (if c then t else u) := by
  split
  exacts [h, k]

/-- An operation outside the scheduler and what decides the capacities. -/
theorem of_keeps (h : ChargeBounded s) (k : KeepsAllBut ps s t) (hp : ∀ p ∈ Part.sched :: capacityParts, p ∉ ps) :
    ChargeBounded t := fun r =>
  RackBounded.of_keeps (h r) k (fun p hm => hp p (List.mem_cons_of_mem _ hm)) (k.sched_eq (hp _ (by decide)) r)

/-- An operation on the scheduler part of one rack. -/
theorem of_sched (h : ChargeBounded s) (k : KeepsAllBut ps s t) (hp : ∀ p ∈ capacityParts, p ∉ ps) {r : Fin 12} {x : Sched}
    (hs : ∀ r', t.sched r' = if r' = r then x else s.sched r') (hb : x.band = (s.sched r).band)
    (hc : x.capacity = (s.sched r).capacity) (ha : x.active.length ≤ (s.sched r).capacity)
    (hd : ∀ e, bandEntry s r = some e → x.postponed ≤ e.pMax ∧ x.pulledIn ≤ e.iMax) : ChargeBounded t := fun r' => by
  have hr := hs r'
  by_cases e : r' = r
  · subst e
    rw [if_pos rfl] at hr
    exact RackBounded.update (h r') k hp (hr ▸ hb) (hr ▸ hc) (hr ▸ ha) (hr ▸ hd)
  · rw [if_neg e] at hr
    exact RackBounded.of_keeps (h r') k hp hr

theorem active_le (h : ChargeBounded s) (r : Fin 12) : (s.sched r).active.length ≤ (s.sched r).capacity := (h r).2.1

theorem limits (h : ChargeBounded s) {r : Fin 12} {e : BandEntry} (he : bandEntry s r = some e) :
    (s.sched r).postponed ≤ e.pMax ∧ (s.sched r).pulledIn ≤ e.iMax := (h r).2.2 e he

/-- Fewer or as many turns, and the same debts: the shape of an end of turns (R148). -/
theorem of_active (h : ChargeBounded s) (k : KeepsAllBut ps s t) (hp : ∀ p ∈ capacityParts, p ∉ ps) {r : Fin 12}
    {ts : List Turn} {n : BitVec 16} {c : Option Nat}
    (hs : ∀ r', t.sched r' = if r' = r then { s.sched r with active := ts, round := n, cadenceEnds := c } else s.sched r')
    (ha : ts.length ≤ (s.sched r).capacity) : ChargeBounded t :=
  h.of_sched k hp hs rfl rfl ha fun _ he => h.limits he

/-! ### Turns -/

theorem restartCadence {r : Fin 12} (h : ChargeBounded s) : ChargeBounded (restartCadence r s) :=
  h.of_active (restartCadence_keeps (ps := [.sched]) .refl (by decide)) (by decide)
    (restartCadence_sched r · s) (h.active_le r)

theorem stopTurn {r : Fin 12} {b : Fin 24} (h : ChargeBounded s) : ChargeBounded (stopTurn r b s) :=
  h.of_active (stopTurn_keeps (ps := [.sched, .bays]) .refl (by decide) (by decide)) (by decide)
    (stopTurn_sched r · b s) ((List.length_filter_le _ _).trans (h.active_le r))

theorem leaveOnline {r : Fin 12} (h : ChargeBounded s) : ChargeBounded (leaveOnline r s) :=
  h.of_active (leaveOnline_keeps (ps := [.sched, .bays]) .refl (by decide) (by decide)) (by decide)
    (leaveOnline_sched r · s) (by simp [keptTurns_zero])

theorem newRound {r : Fin 12} (h : ChargeBounded s) : ChargeBounded (newRound r s) :=
  h.of_active (newRound_keeps (ps := [.sched, .bays]) .refl (by decide) (by decide)) (by decide)
    (newRound_sched r · s) (h.active_le r)

theorem judgeRack {r : Fin 12} (h : ChargeBounded s) : ChargeBounded (judgeRack r s) :=
  h.of_keeps (judgeRack_keeps (ps := [.bays]) .refl (by decide)) (by decide)

theorem judge {b : Fin 288} (h : ChargeBounded s) : ChargeBounded (judge b s) :=
  h.of_keeps (judge_keeps (ps := [.bays]) .refl (by decide)) (by decide)

theorem resync {r : Fin 12} (h : ChargeBounded s) : ChargeBounded (resync r s) := by
  simp only [Machine.resync]
  refine restartCadence (judgeRack (h.newRound.of_sched (putSched_keeps (ps := [.sched]) .refl (by decide)) (by decide)
    (State.putSched_sched _ _ · _) rfl rfl (h.newRound.active_le r) fun e _ => ?_))
  exact ⟨Nat.zero_le _, Nat.zero_le _⟩

/-- The choice of a bay may begin a round, and no more (R144). -/
theorem selectBay_cases (r : Fin 12) (s : State) : (selectBay r s).2 = s ∨ (selectBay r s).2 = Machine.newRound r s := by
  unfold selectBay
  repeat' split
  exacts [.inl rfl, .inr rfl, .inl rfl]

/-- A turn started where the list has room, with debts that `pay` leaves within the limits (R145, R146, R148). -/
theorem startSelected {r : Fin 12} {pay : Sched → Sched} (h : ChargeBounded s)
    (hroom : (s.sched r).active.length < (s.sched r).capacity)
    (hpay : ∀ q, (pay q).band = q.band ∧ (pay q).capacity = q.capacity ∧ (pay q).active = q.active)
    (hdebt : ∀ q e, bandEntry s r = some e → q.postponed = (s.sched r).postponed → q.pulledIn = (s.sched r).pulledIn →
      (pay q).postponed ≤ e.pMax ∧ (pay q).pulledIn ≤ e.iMax) : ChargeBounded (startSelected r pay s) := by
  have selected (u : State) (hu : u = s ∨ u = Machine.newRound r s) : ChargeBounded u ∧
      KeepsAllBut [.sched, .bays] s u ∧ (u.sched r).band = (s.sched r).band ∧
      (u.sched r).capacity = (s.sched r).capacity ∧ (u.sched r).active = (s.sched r).active ∧
      (u.sched r).postponed = (s.sched r).postponed ∧ (u.sched r).pulledIn = (s.sched r).pulledIn := by
    rcases hu with rfl | rfl
    · exact ⟨h, .refl, rfl, rfl, rfl, rfl, rfl⟩
    · exact ⟨h.newRound, newRound_keeps .refl (by decide) (by decide), by simp [newRound_sched]⟩
  have chosen := selectBay_cases r s
  unfold Machine.startSelected
  split
  · rename_i b u hu
    rw [hu] at chosen
    obtain ⟨hb, k, hband, hcap, hact, hpost, hpull⟩ := selected u chosen
    refine hb.of_sched (ps := [.sched, .bays, .receivers]) (r := r) (x := pay ((startTurn r b u).sched r)) (putSched_keeps (startTurn_keeps .refl (by decide) (by decide)
      (by decide)) (by decide)) (by decide) (fun r' => ?_) ?_ ?_ ?_ ?_
    · rw [State.putSched_sched]
      split
      · rfl
      · rename_i e
        rw [startTurn_sched, if_neg e]
    · simp [(hpay _).1, startTurn_sched]
    · simp [(hpay _).2.1, startTurn_sched]
    · simp only [(hpay _).2.2, startTurn_sched, if_true, List.length_append, hact, hcap]
      exact hroom
    · intro e he
      rw [k.bandEntry_eq (by decide) hband] at he
      exact hdebt _ e he (by simp [startTurn_sched, hpost]) (by simp [startTurn_sched, hpull])
  · rename_i u hu
    rw [hu] at chosen
    exact (selected u chosen).1

theorem followTurn {r : Fin 12} (h : ChargeBounded s) : ChargeBounded (followTurn r s) := by
  simp only [Machine.followTurn]
  split
  · rename_i hc
    simp only [Bool.and_eq_true, decide_eq_true_eq] at hc
    split
    · refine h.startSelected hc.2 (fun _ => ⟨rfl, rfl, rfl⟩) fun q e he hp hi => ?_
      have := h.limits he
      exact ⟨by simp only [hp]; omega, by simp only [hi]; omega⟩
    split
    · exact h
    · rename_i e he
      split
      · rename_i hl
        refine h.startSelected hc.2 (fun _ => ⟨rfl, rfl, rfl⟩) fun q e' he' hp hi => ?_
        obtain rfl : e = e' := Option.some.inj (he.symm.trans he')
        have := h.limits he
        exact ⟨by simp only [hp]; omega, by simp only [hi]; omega⟩
      · exact h
  · exact h

theorem endTurn {r : Fin 12} {b : Fin 24} (h : ChargeBounded s) : ChargeBounded (endTurn r b s) := h.stopTurn.followTurn

theorem endOrJudge {b : Fin 288} (h : ChargeBounded s) : ChargeBounded (endOrJudge b s) := by
  unfold Machine.endOrJudge
  exact ite h.endTurn h.judge

theorem raiseEvent {k : EventKind} {n d : Nat} {x : Option (BitVec 16)} (h : ChargeBounded s) :
    ChargeBounded (raiseEvent k n x d s) :=
  h.of_keeps (raiseEvent_keeps (ps := [.events, .egress]) .refl (by decide) (by decide)) (by decide)

theorem cadenceAct {r : Fin 12} (h : ChargeBounded s) : ChargeBounded (cadenceAct r s) := by
  have put (x : Sched) := h.of_sched (putSched_keeps (ps := [.sched]) (x := x) .refl (by decide)) (by decide)
    (State.putSched_sched s r · x)
  simp only [Machine.cadenceAct]
  split
  · refine put _ rfl rfl (h.active_le r) fun e he => ?_
    have := h.limits he
    exact ⟨this.1, by simp only; omega⟩
  split
  · exact h
  split
  · rename_i hr
    exact h.startSelected hr (fun _ => ⟨rfl, rfl, rfl⟩) fun q e he hp hi => by
      simpa [hp, hi] using h.limits he
  split
  · exact h
  · rename_i e he
    split
    · rename_i hl
      refine put _ rfl rfl (h.active_le r) fun e' he' => ?_
      obtain rfl : e = e' := Option.some.inj (he.symm.trans he')
      exact ⟨hl, (h.limits he).2⟩
    · exact raiseEvent (put _ rfl rfl (h.active_le r) fun _ he' => h.limits he')

end ChargeBounded

/-! ### Bands and capacities -/

/-- The band-change action bounds its rack, whatever it was before (R151). -/
theorem rackBounded_changeBand (r : Fin 12) (new : Fin 8) (s : State) : RackBounded (changeBand r new s) r := by
  obtain ⟨c, hs⟩ := changeBand_sched r r new s
  rw [if_pos rfl] at hs
  have k : KeepsAllBut [.sched, .bays, .events, .egress] s (changeBand r new s) :=
    changeBand_keeps .refl (by decide) (by decide) (by decide) (by decide)
  have hband : ((changeBand r new s).sched r).band = some new := by rw [hs]; rfl
  have htable : (changeBand r new s).chs.table = s.chs.table := k .bandTable (by decide)
  have hmode : (changeBand r new s).mge.mode = s.mge.mode := k .mode (by decide)
  have hcap : capacityOf (changeBand r new s) r = bandCapacity s r new := by
    rw [capacityOf_of_band hband]
    simp only [bandCapacity, htable, hmode, k .rackConfigs (by decide) r]
  refine ⟨by rw [hs, hcap], by rw [hs]; exact keptTurns_length_le _ _, fun e he => ?_⟩
  obtain rfl : s.chs.table.entries.get new = e := by
    simpa only [bandEntry, hband, Option.map_some, htable, Option.some.injEq] using he
  rw [hs]
  exact ⟨Nat.min_le_right _ _, Nat.zero_le _⟩

theorem changeBand_sched_ne {r r' : Fin 12} (hr : r' ≠ r) (new : Fin 8) (s : State) :
    (changeBand r new s).sched r' = s.sched r' := by
  obtain ⟨c, hs⟩ := changeBand_sched r r' new s
  rw [hs, if_neg hr]

namespace ChargeBounded

theorem changeBand {r : Fin 12} {k : Fin 8} (h : ChargeBounded s) : ChargeBounded (changeBand r k s) := fun r' => by
  by_cases e : r' = r
  · exact e ▸ rackBounded_changeBand r k s
  · exact RackBounded.of_keeps (h r') (changeBand_keeps (ps := [.sched, .bays, .events, .egress]) .refl (by decide)
      (by decide) (by decide) (by decide)) (by decide) (changeBand_sched_ne e k s)

theorem takeTemperature {r : Fin 12} {n : Int} (h : ChargeBounded s) : ChargeBounded (takeTemperature r n s) := by
  unfold Machine.takeTemperature
  exact ite h h.changeBand

end ChargeBounded

theorem treatRack_cases (r : Fin 12) (s : State) :
    ((s.sched r).band = none ∧ treatRack r s = s) ∨ ∃ k, treatRack r s = changeBand r k s := by
  unfold treatRack
  split
  · exact .inr ⟨_, rfl⟩
  · exact .inr ⟨_, rfl⟩
  · exact .inl ⟨‹_›, rfl⟩

/-- A new Thermal Band Table leaves every rack bounded: one with a band is treated, and one without has C 0 (R139). -/
theorem chargeBounded_applyBandTable (table : BandTable) (h : ChargeBounded s) :
    ChargeBounded (applyBandTable table s) := by
  have kept (r : Fin 12) (u : State) : KeepsAllBut [.sched, .bays, .events, .egress] u (treatRack r u) :=
    treatRack_keeps .refl (by decide) (by decide) (by decide) (by decide)
  have other {r r' : Fin 12} (hr : r' ≠ r) (u : State) : (treatRack r u).sched r' = u.sched r' := by
    rcases treatRack_cases r u with ⟨-, e⟩ | ⟨k, e⟩ <;> rw [e]
    exact changeBand_sched_ne hr k u
  refine forEach_indices_all (P := fun r u => RackBounded u r)
    (I := fun u => ∀ r, (u.sched r).band = none → RackBounded u r) (fun r u hu => ?_)
    fun r hr => ⟨?_, (h r).2.1, fun e he => by simp [bandEntry, hr] at he⟩
  · have others (j : Fin 12) (hj : j ≠ r) (hb : RackBounded u j) : RackBounded (treatRack r u) j :=
      hb.of_keeps (kept r u) (by decide) (other hj u)
    have mine : RackBounded (treatRack r u) r := by
      rcases treatRack_cases r u with ⟨hn, e⟩ | ⟨k, e⟩ <;> rw [e]
      exacts [hu r hn, rackBounded_changeBand r k u]
    refine ⟨fun j hj => ?_, mine, others⟩
    by_cases e : j = r
    · exact e ▸ mine
    · exact others j e (hu j (other e u ▸ hj))
  · have hr' : (s.sched r).band = none := hr
    exact ((h r).1.trans (capacityOf_of_no_band hr')).trans (capacityOf_of_no_band hr).symm

/-- The clause of `ChargeBounded` on the debts of one rack: it rests on the band alone. -/
def DebtsBounded (s : State) (r : Fin 12) : Prop :=
  ∀ e, bandEntry s r = some e → (s.sched r).postponed ≤ e.pMax ∧ (s.sched r).pulledIn ≤ e.iMax

/-- C computed afresh bounds a rack whose debts are bounded, and leaves the others (R141, R150). -/
theorem rackBounded_refreshCapacity {r : Fin 12} (h : DebtsBounded s r) : RackBounded (refreshCapacity r s) r := by
  obtain ⟨c, hs⟩ := refreshCapacity_sched r r s
  rw [if_pos rfl] at hs
  have k : KeepsAllBut [.sched, .bays] s (refreshCapacity r s) := refreshCapacity_keeps .refl (by decide) (by decide)
  have hband : ((refreshCapacity r s).sched r).band = (s.sched r).band := by rw [hs]
  refine ⟨?_, by rw [hs]; exact keptTurns_length_le _ _, fun e he => ?_⟩
  · rw [k.capacityOf_eq (by decide) (by decide) (by decide) hband, hs]
  · rw [k.bandEntry_eq (by decide) hband] at he
    rw [hs]
    exact h e he

theorem refreshCapacity_sched_ne {r r' : Fin 12} (hr : r' ≠ r) (s : State) :
    (refreshCapacity r s).sched r' = s.sched r' := by
  obtain ⟨c, hs⟩ := refreshCapacity_sched r r' s
  rw [hs, if_neg hr]

/-- The C of every rack computed afresh bounds a state whose debts are bounded (R152, R155). -/
theorem chargeBounded_refreshAll (h : ∀ r, DebtsBounded s r) : ChargeBounded (refreshAll s) := by
  have refreshed : ChargeBounded (forEach (indices 12) refreshCapacity s) := by
    refine forEach_indices_all (P := fun r u => RackBounded u r) (I := fun u => ∀ r, DebtsBounded u r) (fun r u hu => ?_) h
    have k : KeepsAllBut [.sched, .bays] u (refreshCapacity r u) := refreshCapacity_keeps .refl (by decide) (by decide)
    refine ⟨fun j => ?_, rackBounded_refreshCapacity (hu r), fun j hj hb =>
      hb.of_keeps k (by decide) (refreshCapacity_sched_ne hj u)⟩
    by_cases e : j = r
    · exact e ▸ (rackBounded_refreshCapacity (hu r)).2.2
    · intro x hx
      rw [k.bandEntry_eq (by decide) (by rw [refreshCapacity_sched_ne e])] at hx
      rw [refreshCapacity_sched_ne e]
      exact hu j x hx
  have each : ∀ (rs : List (Fin 12)) u, ChargeBounded u →
      ChargeBounded (forEach rs (fun r u => if (u.rack r).config.enabled then resync r u else u) u) := by
    intro rs
    induction rs with
    | nil => exact fun _ k => k
    | cons r rs ih => exact fun u k => ih _ (k.resync.ite k)
  exact each _ _ refreshed

/-- The debts of every rack rest on band and table alone. -/
theorem ChargeBounded.debts_of_keeps (h : ChargeBounded s) (k : KeepsAllBut ps s t) (hb : Part.bandTable ∉ ps)
    (hc : Part.sched ∉ ps) (r : Fin 12) : DebtsBounded t r := fun e he => by
  rw [k.bandEntry_eq hb (by rw [k.sched_eq hc])] at he
  rw [k.sched_eq hc]
  exact h.limits he

end Sys2Proof.Machine
end

section
/-! The rest of the chain for the bounds of charging (O10): the bays and racks, the requests, the rack frames and the timers
that reach the charge scheduler. -/

namespace Sys2Proof.Machine

open Sys2Proof

variable {s t u : State} {a : List Byte} {ps : List Part}

namespace ChargeBounded

/-! ### Bays and the fleet -/

theorem putBay {b : Fin 288} {x : Bay} (h : ChargeBounded s) : ChargeBounded (s.putBay b x) :=
  h.of_keeps (putBay_keeps (ps := [.bays]) .refl (by decide)) (by decide)

theorem putRackLive {r : Fin 12} {x : RackLive} (h : ChargeBounded s) : ChargeBounded (s.putRackLive r x) :=
  h.of_keeps (putRackLive_keeps (ps := [.rackLives]) .refl (by decide)) (by decide)

theorem putReceiver {n : Fin 384} {x : Option Receiver} (h : ChargeBounded s) : ChargeBounded (s.putReceiver n x) :=
  h.of_keeps (putReceiver_keeps (ps := [.receivers]) .refl (by decide)) (by decide)

theorem bayEmptied {o : Bay} {b : Fin 288} (h : ChargeBounded s) : ChargeBounded (bayEmptied o b s) := by
  have raised {c : Bool} {k : EventKind} {d : Nat} {u : State} (hu : ChargeBounded u) :
      ChargeBounded (raiseBay c k b d u) := ite hu.raiseEvent hu
  exact endOrJudge (raised (raised (raised (raised h.putBay))))

theorem clearBay {b : Fin 288} (h : ChargeBounded s) : ChargeBounded (clearBay b s) :=
  h.of_keeps (clearBay_keeps (ps := [.bays]) .refl (by decide)) (by decide)

theorem undockBay {b : Fin 288} (h : ChargeBounded s) : ChargeBounded (undockBay b s) := by
  have undocked (n : Fin 384) : ChargeBounded (fleetUndock b n s) :=
    h.of_keeps (fleetUndock_keeps (ps := [.bays, .receivers, .tours, .fleetCounters, .events, .egress]) .refl (by decide)
      (by decide) (by decide) (by decide) (by decide) (by decide)) (by decide)
  simp only [Machine.undockBay]
  split
  exacts [h, (undocked _).bayEmptied, h.clearBay.bayEmptied]

theorem moveReceiver {o b : Fin 288} {n : Fin 384} (h : ChargeBounded s) : ChargeBounded (moveReceiver o b n s) := by
  have emptied : ChargeBounded (Machine.bayEmptied (s.bay o) o (Machine.clearBay o s)) := h.clearBay.bayEmptied
  have placed (r : Receiver) (x : Option Assignment) :
      ChargeBounded (setAssign b x (placeReceiver b n r (Machine.bayEmptied (s.bay o) o (Machine.clearBay o s)))) :=
    emptied.of_keeps (setAssign_keeps (ps := [.bays, .receivers]) (placeReceiver_keeps .refl (by decide) (by decide))
      (by decide)) (by decide)
  simp only [Machine.moveReceiver]
  split
  · exact emptied
  split
  exacts [placed _ _, placed _ _]

theorem fleetDock {b : Fin 288} {g : RxTag} (h : ChargeBounded s) : ChargeBounded (fleetDock b g s) := by
  have former : ChargeBounded (undockFormer b g s) := by
    unfold undockFormer
    repeat' split
    exacts [h, h.undockBay, h, h, h]
  simp only [Machine.fleetDock]
  split
  · split
    · exact former
    split
    · exact ite former.putBay former.moveReceiver
    · exact former.of_keeps (dockKnown_keeps (ps := [.bays, .receivers, .tours, .fleetCounters, .events, .egress]) .refl
        (by decide) (by decide) (by decide) (by decide) (by decide) (by decide)) (by decide)
  · split
    · exact former.of_keeps (enrolInto_keeps (ps := [.bays, .receivers]) .refl (by decide) (by decide)) (by decide)
    all_goals exact former.of_keeps (dockUnknown_keeps (ps := [.bays, .fleetCounters, .events, .egress]) .refl
      (by decide) (by decide) (by decide) (by decide)) (by decide)

theorem dockBay {b : Fin 288} {g : RxTag} (h : ChargeBounded s) : ChargeBounded (dockBay b g s) :=
  judge (raiseEvent (putBay h.fleetDock))

theorem comparePresence {b : Fin 288} {g : Option RxTag} (h : ChargeBounded s) :
    ChargeBounded (comparePresence b g s) := by
  unfold Machine.comparePresence
  repeat' split
  exacts [h, h.dockBay, h, h.dockBay, h.dockBay, h, h.undockBay.dockBay, h.undockBay, h.undockBay]

theorem rackSender (h : ChargeBounded s) : ChargeBounded (rackSender s) :=
  h.of_keeps (rackSender_keeps (ps := senderParts) .refl (by decide) (by decide) (by decide)) (by decide)

/-! ### Racks -/

theorem rackOffline {r : Fin 12} (h : ChargeBounded s) : ChargeBounded (rackOffline r s) :=
  h.putRackLive.raiseEvent.leaveOnline

theorem settlePoll {r : Fin 12} {b : Fin 24} (h : ChargeBounded s) : ChargeBounded (settlePoll r b s) := by
  have onlined (u : State) (n : Nat) (hu : ChargeBounded u) : ChargeBounded (rackOnline r n u) :=
    resync (hu.putRackLive.raiseEvent.of_keeps (markRackPending_keeps (ps := [.bays]) .refl (by decide)) (by decide))
  simp only [Machine.settlePoll, startSpacing]
  split
  · exact putRackLive (ite (onlined _ _ h.putRackLive) h.putRackLive)
  split
  exacts [h.putRackLive, h]

theorem chargeReading {b : Fin 288} (h : ChargeBounded s) : ChargeBounded (chargeReading b s) := by
  simp only [Machine.chargeReading]
  exact ite (ite h.endTurn h) h.judge

theorem readElectrical {b : Fin 288} {v : Nat} {f : Bool} (h : ChargeBounded s) :
    ChargeBounded (readElectrical b v f s) := by
  have fleet {u : State} (hu : ChargeBounded u) : ChargeBounded (fleetReading b u) :=
    hu.of_keeps (fleetReading_keeps (ps := [.receivers]) .refl (by decide)) (by decide)
  have raised {c : Bool} {k : EventKind} {d : Nat} {u : State} (hu : ChargeBounded u) :
      ChargeBounded (raiseBay c k b d u) := ite hu.raiseEvent hu
  simp only [Machine.readElectrical]
  refine ite h ?_
  split
  exacts [chargeReading (fleet (raised (raised (raised h.putBay)))), judge (fleet h.putBay), h, h]

theorem takeReading {r : Fin 12} {x : Reading} (h : ChargeBounded s) : ChargeBounded (takeReading r x s) :=
  readElectrical (putBay (comparePresence (takeTemperature h.putRackLive)))

/-! ### Arriving frames and requests -/

theorem takeStatus {x : Station} (h : ChargeBounded s) : ChargeBounded (takeStatus x a s) := by
  have chosen : ChargeBounded s.useChoice :=
    h.of_keeps (useChoice_keeps (ps := [.choices]) .refl (by decide)) (by decide)
  unfold Machine.takeStatus
  repeat' split
  exacts [h.of_keeps (countUnroutedRack_keeps (ps := [.unroutedRack]) .refl (by decide)) (by decide), h.putRackLive,
    chosen.settlePoll.takeReading.rackSender]

theorem takeNotice {x : Station} (h : ChargeBounded s) : ChargeBounded (takeNotice x a s) := by
  simp only [Machine.takeNotice]
  split
  · exact h.of_keeps (countUnroutedRack_keeps (ps := [.unroutedRack]) .refl (by decide)) (by decide)
  split
  exacts [h.putRackLive, h.comparePresence.rackSender]

theorem arrive {frame : List Byte} (h : ChargeBounded s) : ChargeBounded (arrive frame s) := by
  have counted (c : LinkCounters) : ChargeBounded (s.putLinkCounters c) :=
    h.of_keeps (putLinkCounters_keeps (ps := [.egress]) .refl (by decide)) (by decide)
  have length (u : State) (hu : ChargeBounded u) : ChargeBounded (countRackLength u) :=
    hu.of_keeps (putLinkCounters_keeps (ps := [.egress]) .refl (by decide)) (by decide)
  unfold Machine.arrive
  refine ite ?_ h
  split
  · exact counted _
  · rename_i k x p _
    cases k with
    | audioUp =>
      exact (counted _).of_keeps (dispatchFrame_keeps (ps := audioParts) .refl (List.Subset.refl _)) (by decide)
    | bayStatus => exact ite (counted _).takeStatus (length _ (counted _))
    | dockNotice => exact ite (counted _).takeNotice (length _ (counted _))
    | mgmtRequest =>
      exact (counted _).of_keeps (dispatchFrame_keeps (ps := requestParts) .refl (List.Subset.refl _)) (by decide)

theorem serve {code : Nat} {owner : List Byte → State → Answer} (ho : ∀ args, ChargeBounded (owner args s).state)
    (h : ChargeBounded s) : ChargeBounded (serve code owner s) := by
  unfold Machine.serve
  split
  · exact ite ((ho _).of_keeps (offerReply_keeps (ps := replyParts) .refl (by decide) (by decide)) (by decide)) h
  · exact h
  · exact h

theorem serveRacks {code : Nat} {owner : List Byte → State → Answer} (ho : ∀ args, ChargeBounded (owner args s).state)
    (h : ChargeBounded s) : ChargeBounded (serveRacks code owner s) := serve (fun args => (ho args).rackSender) h

theorem retire (h : ChargeBounded s) : ChargeBounded (retire a s).state := by
  unfold Machine.retire
  repeat' split
  all_goals dsimp only [refuse_state, answer_state]
  · exact h
  · exact h
  · exact h
  · unfold retireRecord
    split
    exacts [endOrJudge (putBay h.putReceiver), h.putReceiver]

end ChargeBounded

/-! ### A rack's loaded fields -/

theorem RackBounded.congr {r : Fin 12} (h : RackBounded s r) (ht : t.chs.table = s.chs.table)
    (hm : t.mge.mode = s.mge.mode) (hc : (t.rack r).config = (s.rack r).config) (hs : t.sched r = s.sched r) :
    RackBounded t r := by
  simp only [RackBounded, capacityOf, bandEntry, ht, hm, hc, hs]
  exact h

theorem DebtsBounded.congr {r : Fin 12} (h : DebtsBounded s r) (ht : t.chs.table = s.chs.table)
    (hb : (t.sched r).band = (s.sched r).band) (hp : (t.sched r).postponed = (s.sched r).postponed)
    (hi : (t.sched r).pulledIn = (s.sched r).pulledIn) : DebtsBounded t r := by
  simp only [DebtsBounded, bandEntry, ht, hb, hp, hi]
  exact h

/-- The scheduler part of a rack and of the others, where an action may only end turns of that rack (R149). -/
def OnlyTurnsEnd (r : Fin 12) (s t : State) : Prop :=
  ∃ ts c, ∀ r', t.sched r' = if r' = r then { s.sched r with active := ts, cadenceEnds := c } else s.sched r'

theorem onlyTurnsEnd_of_keeps {r : Fin 12} (k : KeepsAllBut ps s t) (hp : Part.sched ∉ ps) : OnlyTurnsEnd r s t :=
  ⟨(s.sched r).active, (s.sched r).cadenceEnds, fun r' => by
    rw [k.sched_eq hp]
    split
    · rename_i e; rw [e]
    · rfl⟩

theorem OnlyTurnsEnd.trans {r : Fin 12} (h : OnlyTurnsEnd r s t) (k : OnlyTurnsEnd r t u) : OnlyTurnsEnd r s u := by
  obtain ⟨ts, c, h⟩ := h
  obtain ⟨ts', c', k⟩ := k
  refine ⟨ts', c', fun r' => ?_⟩
  rw [k, h r, if_pos rfl, h r']
  split <;> rfl

theorem onlyTurnsEnd_disableRack (r : Fin 12) (s : State) : OnlyTurnsEnd r s (disableRack r s) := by
  have withdrawn (x : RackLive) : OnlyTurnsEnd r s (withdrawPoll r (s.putRackLive r x)) :=
    onlyTurnsEnd_of_keeps (withdrawPoll_keeps (ps := [.rackLives, .egress]) (putRackLive_keeps .refl (by decide))
      (by decide)) (by decide)
  simp only [disableRack]
  split
  · exact (withdrawn _).trans ⟨_, _, (leaveOnline_sched r · _)⟩
  · exact withdrawn _

theorem onlyTurnsEnd_rekeyRack (r : Fin 12) (s : State) : OnlyTurnsEnd r s (rekeyRack r s) := by
  have enabled (u : State) : OnlyTurnsEnd r u (enableRack r u) :=
    onlyTurnsEnd_of_keeps (enableRack_keeps (ps := [.rackLives, .egress]) .refl (by decide) (by decide)) (by decide)
  have raised (u : State) (d : Nat) : OnlyTurnsEnd r u (raiseEvent .rackOffline r.val none d u) :=
    onlyTurnsEnd_of_keeps (raiseEvent_keeps (ps := [.events, .egress]) .refl (by decide) (by decide)) (by decide)
  have disabled := onlyTurnsEnd_disableRack r s
  simp only [rekeyRack]
  split
  exacts [(disabled.trans (raised _ _)).trans (enabled _), disabled.trans (enabled _)]

/-- LOAD RACK CONFIG ends with C computed afresh for its rack, and reaches no other rack's capacity (R114, R152). -/
theorem ChargeBounded.applyRackConfig {r : Fin 12} {c : RackConfig} (h : ChargeBounded s) :
    ChargeBounded (applyRackConfig r c s) := by
  have loaded : ∃ x, x.config = c ∧ s.putRack r { s.rack r with config := c } = s.putRack r x := ⟨_, rfl, rfl⟩
  have refreshed (u : State) (k : KeepsAllBut [.rackLives, .sched, .bays, .events, .egress]
      (s.putRack r { s.rack r with config := c }) u) (hu : OnlyTurnsEnd r (s.putRack r { s.rack r with config := c }) u) :
      ChargeBounded (refreshCapacity r u) := by
    obtain ⟨ts, e, hu⟩ := hu
    have ht : u.chs.table = s.chs.table := k .bandTable (by decide)
    have hm : u.mge.mode = s.mge.mode := k .mode (by decide)
    intro r'
    by_cases hr : r' = r
    · subst hr
      have hs := hu r'
      rw [if_pos rfl] at hs
      exact rackBounded_refreshCapacity (DebtsBounded.congr (s := s) (h r').2.2 ht (by rw [hs]; rfl) (by rw [hs]; rfl)
        (by rw [hs]; rfl))
    · have hs := hu r'
      rw [if_neg hr] at hs
      refine RackBounded.of_keeps (s := u) ?_ (refreshCapacity_keeps (ps := [.sched, .bays]) .refl (by decide) (by decide))
        (by decide) (refreshCapacity_sched_ne hr u)
      refine RackBounded.congr (h r') ht hm ?_ hs
      rw [k .rackConfigs (by decide) r', State.putRack_rack, if_neg hr]
  simp only [Machine.applyRackConfig]
  split
  · exact refreshed _ .refl (onlyTurnsEnd_of_keeps .refl List.not_mem_nil)
  · exact refreshed _ (enableRack_keeps .refl (by decide) (by decide)) (onlyTurnsEnd_of_keeps
      (enableRack_keeps (ps := [.rackLives, .egress]) .refl (by decide) (by decide)) (by decide))
  · exact refreshed _ (disableRack_keeps .refl (by decide) (by decide) (by decide) (by decide))
      (onlyTurnsEnd_disableRack r _)
  · split
    · exact refreshed _ (putRackLive_keeps .refl (by decide)) (onlyTurnsEnd_of_keeps
        (putRackLive_keeps (ps := [.rackLives]) .refl (by decide)) (by decide))
    · refine refreshed _ ?_ (onlyTurnsEnd_rekeyRack r _)
      have disabled (v : State) : KeepsAllBut [.rackLives, .sched, .bays, .events, .egress] v (disableRack r v) :=
        disableRack_keeps .refl (by decide) (by decide) (by decide) (by decide)
      exact enableRack_keeps (ite_keeps (raiseEvent_keeps (disabled _) (by decide) (by decide)) (disabled _))
        (by decide) (by decide)

/-! ### Every command -/

theorem chargeBounded_setHallMode (h : ChargeBounded s) : ChargeBounded (setHallMode a s).state := by
  have closed : ChargeBounded (closeHall s) := by
    unfold closeHall
    exact chargeBounded_refreshAll (h.debts_of_keeps (ps := .mode :: closeParts) (withMode_keeps (closeAll_keeps .refl
      (by decide) (by decide) (by decide) (by decide) (by decide) (by decide) (by decide)) (by decide)) (by decide)
      (by decide))
  have opened : ChargeBounded (openHall s) := by
    unfold openHall airPrograms
    exact chargeBounded_refreshAll (h.debts_of_keeps (ps := [.mode, .programs]) (withMxr_keeps
      (withMode_keeps .refl (by decide)) (by decide)) (by decide) (by decide))
  simp only [setHallMode, modeReply]
  repeat' split
  all_goals dsimp only [refuse_state]
  exacts [h, h, closed, opened]

theorem zeroCounters_sched (s : State) (r : Fin 12) :
    (zeroCounters s).sched r = { s.sched r with counters := .zero } :=
  Tab.get_map _ _ _

theorem ChargeBounded.zeroCounters (h : ChargeBounded s) : ChargeBounded (zeroCounters s) := by
  have kept : KeepsAllBut [.fleetCounters, .rackLives, .unroutedRack, .sched, .egress, .requests] s
      (Machine.zeroCounters s) := zeroCounters_keeps .refl (by decide) (by decide) (by decide) (by decide) (by decide)
    (by decide)
  intro r
  have hs := zeroCounters_sched s r
  refine RackBounded.update (h r) kept (by decide) (by rw [hs]) (by rw [hs]) (by rw [hs]; exact h.active_le r)
    fun e he => ?_
  have hd := (h r).2.2 e he
  rw [hs]
  exact hd

theorem chargeBounded_restartHub (h : ChargeBounded s) : ChargeBounded (restartHub s) := by
  have refreshed := chargeBounded_refreshAll (h.debts_of_keeps (ps := .mode :: closeParts) (emptyClass1_keeps
    (putMode_keeps (m := .closed) (closeAll_keeps (q := true) .refl (by decide) (by decide) (by decide) (by decide)
    (by decide) (by decide) (by decide)) (by decide)) (by decide)) (by decide) (by decide))
  exact ChargeBounded.zeroCounters (refreshed.of_keeps (ps := [.bays, .sources, .programs, .events])
    (restartEvents_keeps (restartPrograms_keeps (restartSources_keeps (markAllPending_keeps .refl (by decide))
      (by decide)) (by decide)) (by decide)) (by decide))

/-- A well-formed command outside the scheduler and what decides the capacities. -/
theorem ChargeBounded.of_nextState {c : Instr} (h : ChargeBounded s) (hw : c.wellFormed = true)
    (hp : ∀ p ∈ Part.sched :: capacityParts, p ∉ mayChange c) : ChargeBounded (nextState c s) :=
  h.of_keeps (nextState_keeps hw s) hp

theorem chargeBounded_nextState (c : Instr) (h : ChargeBounded s) : ChargeBounded (nextState c s) := by
  have reached (n : Nat) : ChargeBounded (s.reach n) :=
    h.of_keeps (reach_keeps (ps := [.clock]) .refl (by decide)) (by decide)
  cases c with
  | powerOn x => exact chargeBounded_atReset x
  | pinReset x => exact chargeBounded_atReset x
  | frameRejected f => exact h.arrive
  | audioUp f => exact h.arrive
  | bayStatus f => exact h.arrive
  | dockNotice f => exact h.arrive
  | mgmtRequest f => exact h.arrive
  | retire => exact .serveRacks (fun _ => h.retire) h
  | loadRackConfig =>
    refine .serveRacks (fun args => ?_) h
    unfold loadRackConfig
    repeat' split
    exacts [h, h, h.applyRackConfig]
  | loadThermalTable =>
    refine .serveRacks (fun args => ?_) h
    unfold loadThermalTable
    split
    all_goals dsimp only [refuse_state, answer_state]
    exacts [h, chargeBounded_applyBandTable _ h]
  | setHallMode => exact .serveRacks (fun _ => chargeBounded_setHallMode h) h
  | restart => exact .serveRacks (fun _ => chargeBounded_restartHub h) h
  | pollTimeout r =>
    refine .rackSender (s := pollTimeout r s) ?_
    simp only [pollTimeout, startSpacing]
    split
    · exact h
    · exact .putRackLive (.ite (reached _).putRackLive.rackOffline (reached _).putRackLive)
  | cadenceExpiry r =>
    change ChargeBounded (cadenceExpiry r s)
    unfold cadenceExpiry
    split
    exacts [h, (reached _).cadenceAct.restartCadence.rackSender]
  | turnExpiry r b =>
    change ChargeBounded (turnExpiry r b s)
    unfold turnExpiry
    split
    exacts [h, (reached _).endTurn.rackSender]
  | _ => exact h.of_nextState rfl (by simp [mayChange, capacityParts, replyParts, senderParts, closeParts, eventParts])

/-- Settles O10: turns start only where the list has room, debts rise only below the limits of the band, and wherever C or the
band changes the list is cut and the debts are capped with it. -/
theorem chargeStaysBounded : Obligations.ChargeStaysBounded := fun _ _ hs h =>
  step_preserves h hs (fun _ k => k) fun c _ k => chargeBounded_nextState c k

end Sys2Proof.Machine
end

section
/-! Management requests: the reply a request is answered with, the request queue, and the obligations on them (R180, R181). -/

namespace Sys2Proof.Machine

open Sys2Proof

variable {s t : State}

/-! ### Serving -/

/-- A command that serves its request offers its owner's answer as the reply (R181). -/
theorem exec_serving {c : Instr} {code : Nat} {owner : List Byte → State → Answer} {req : Request} {x : Answer}
    (hc : exec c s = .next (serve code owner s)) (h : Serving s code req) (hx : owner (requestArgs req) s = x) :
    exec c s = .next (offerReply (replyTo req x.status x.data) x.state) := by
  rw [hc, serve_serving _ h, hx]

/-- As `exec_serving`, for a command after which the rack sender acts (log 10). -/
theorem exec_servingRacks {c : Instr} {code : Nat} {owner : List Byte → State → Answer} {req : Request} {x : Answer}
    (hc : exec c s = .next (serveRacks code owner s)) (h : Serving s code req) (hx : owner (requestArgs req) s = x) :
    exec c s = .next (offerReply (replyTo req x.status x.data) (rackSender x.state)) := by
  rw [hc, serveRacks_serving _ h, hx]

/-! ### Encoded bytes -/

theorem enc8_byteAt (bs : List Byte) (i : Nat) : enc8 (byteAt bs i) = [bs.getD i 0#8] := by
  simp [enc8, byteAt]

theorem enc16_wordAt (bs : List Byte) (i : Nat) : enc16 (wordAt bs i) = [bs.getD i 0#8, bs.getD (i + 1) 0#8] := by
  have high : wordAt bs i / 256 = byteAt bs i := by
    have := (bs.getD (i + 1) 0#8).isLt
    simp only [wordAt, byteAt]
    omega
  have low : BitVec.ofNat 8 (wordAt bs i) = bs.getD (i + 1) 0#8 := by
    apply BitVec.eq_of_toNat_eq
    have := (bs.getD (i + 1) 0#8).isLt
    simp only [wordAt, byteAt, BitVec.toNat_ofNat]
    omega
  simp [enc16, high, low, byteAt]

theorem replyTo_eq (req : Request) (status : Status) (data : List Byte) : replyTo req status data =
    { dest := req.source
      payload := [req.payload.getD 0 0#8, req.payload.getD 1 0#8, req.payload.getD 2 0#8,
        BitVec.ofNat 8 (statusCode status)] ++ data } := by
  simp only [replyTo, requestCode, enc16_wordAt, enc8_byteAt]
  rfl

/-! ### Replies and ATTENTION frames at the arbiter -/

theorem handOver_linkUp {f : EgressFrame} (h : s.hli.linkUp = true) :
    handOver f s = s.withHli (startPlacing (enqueue f s.hli)) := by
  simp [handOver, h]

theorem handOver_class3_linkDown {f : EgressFrame} (hf : f.origin = .reply ∨ f.origin = .attention)
    (h : s.hli.linkUp = false) : handOver f s = countDiscard s := by
  obtain hf | hf := hf <;> simp [handOver, h, discardFrame, tellSender, hf]

theorem countDiscard_hli (s : State) : (countDiscard s).hli = { s.hli with
    counters := { s.hli.counters with discards := min (s.hli.counters.discards + 1) 4294967295 } } := rfl

/-- What a reply or an ATTENTION handed to a link that is UP leaves: it is the last frame held (R165). -/
theorem handOver_class3_hli {f : EgressFrame} (hf : f.origin = .reply ∨ f.origin = .attention)
    (h : s.hli.linkUp = true) :
    heldFrames (handOver f s).hli = heldFrames s.hli ++ [f] ∧ (handOver f s).hli.counters = s.hli.counters ∧
      (handOver f s).hli.placing = (heldFrames s.hli ++ [f]).head? := by
  simp only [handOver_linkUp h, State.withHli_hli, heldFrames_startPlacing, heldFrames_enqueue_class3 _ hf,
    startPlacing_counters, enqueue_counters, true_and]
  rw [placing_startPlacing _ (by simpa using h), heldFrames_enqueue_class3 _ hf]

theorem handOver_class3_mge {f : EgressFrame} (hf : f.origin = .reply ∨ f.origin = .attention) :
    (handOver f s).mge = s.mge := by
  cases h : s.hli.linkUp with
  | true => rw [handOver_linkUp h, State.withHli_mge]
  | false => rw [handOver_class3_linkDown hf h]; rfl

/-! ### The queue of requests -/

/-- With nothing in service the oldest waiting request is taken (R181). -/
theorem takeNext_of_idle (h : s.mge.service = .idle) : takeNext s = s.withMge { s.mge with
    service := (match s.mge.requests with | [] => .idle | q :: _ => .taken q), requests := s.mge.requests.tail } := by
  unfold takeNext
  cases hr : s.mge.requests with
  | nil =>
    simp only [h, List.tail_nil]
    rw [← h, ← hr]
    rfl
  | cons q rest => simp only [h]; rfl

theorem takeNext_of_busy (h : s.mge.service ≠ .idle) : takeNext s = s := by
  unfold takeNext
  split <;> simp_all

theorem offerReply_full {r : Reply} (h : 8 ≤ class3Held s.hli) :
    offerReply r s = s.withMge { s.mge with service := .held r } := by
  simp [offerReply, Config.class3Capacity, Nat.not_lt.2 h]

theorem offerReply_mge {r : Reply} (h : class3Held s.hli < 8) : (offerReply r s).mge = { s.mge with
    service := (match s.mge.requests with | [] => .idle | q :: _ => .taken q), requests := s.mge.requests.tail } := by
  simp only [offerReply, Config.class3Capacity, h, if_true]
  rw [takeNext_of_idle (by simp)]
  simp [handOver_class3_mge (f := replyFrame r) (s := s) (.inl rfl)]

theorem offerReply_hli {r : Reply} (h : class3Held s.hli < 8) :
    (offerReply r s).hli = (handOver (replyFrame r) s).hli := by
  simp only [offerReply, Config.class3Capacity, h, if_true]
  rw [takeNext_of_idle (by simp)]
  rfl

/-- Settles O27: the two outcomes of offering a reply, and REPLY_ACCEPTED offers the held one. -/
theorem servedReplyOfferedOrHeld : Obligations.ServedReplyOfferedOrHeld := by
  refine ⟨replyTo_eq, fun r s => ⟨fun h => ⟨offerReply_mge h, fun hl => ?_, fun hl => ?_⟩, offerReply_full,
    offerReply_keeps .refl (by decide) (by decide)⟩, fun r s h => ?_⟩
  · rw [offerReply_hli h]
    exact handOver_class3_hli (.inl rfl) hl
  · rw [offerReply_hli h, handOver_class3_linkDown (.inl rfl) hl, countDiscard_hli]
  · change Host.Outcome.next (acceptHeld s) = _
    simp only [acceptHeld, h]

/-! ### The form of a request (Table 8-8) -/

/-- The argument lengths of Table 8-8, but for LOAD TOUR PLAN, whose length follows from its stop count. -/
theorem argumentLength_eq_some {code n : Nat} {args : List Byte} : argumentLength code args = some n ↔
    (code, n) ∈ [(0x01, 13), (0x02, 1), (0x08, 33), (0x09, 4), (0x0A, 0), (0x0B, 1), (0x10, 4), (0x11, 1),
      (0x12, 1), (0x19, 11), (0x1A, 1), (0x1B, 1), (0x1C, 1), (0x1D, 3), (0x1E, 1), (0x1F, 1), (0x20, 3), (0x21, 2),
      (0x22, 4), (0x28, 15), (0x29, 1), (0x2A, 2), (0x2B, 24), (0x30, 47), (0x31, 0), (0x38, 0), (0x39, 0), (0x3A, 4),
      (0x3B, 4), (0x40, 1), (0x41, 0), (0x42, 4), (0x43, 0), (0x44, 0), (0x45, 5)] ∨
    (code = 0x18 ∧ 24 < args.length ∧ n = 25 + 5 * byteAt args 24) := by
  unfold argumentLength
  split
  case h_10 => split <;> simp [eq_comm] <;> omega
  all_goals simp_all [eq_comm]

theorem wellFormedRequest_iff {req : Request} : wellFormedRequest req = true ↔ 3 ≤ req.payload.length ∧
    argumentLength (byteAt req.payload 2) (req.payload.drop 3) = some (req.payload.drop 3).length := by
  simp [wellFormedRequest, requestCode, requestArgs]

/-- Settles O26: the form that the command judges is the one of Table 8-8. -/
theorem badRequestAnswered : Obligations.BadRequestAnswered := by
  intro s req hs code args good
  have good_iff : good ↔ wellFormedRequest req = true := by
    rw [wellFormedRequest_iff, argumentLength_eq_some]
  have run : exec .badRequest s = .next (if wellFormedRequest req then s else offerReply (replyTo req .badRequest [])
      (s.withMge { s.mge with badRequests := min (s.mge.badRequests + 1) 4294967295 })) := by
    change Host.Outcome.next (badRequest s) = _
    simp only [badRequest, hs]
    rfl
  exact ⟨fun h => by rw [run, if_pos (good_iff.1 h)], fun h => by rw [run, if_neg (mt good_iff.2 h)]⟩

/-! ### Taking a request (R180) -/

theorem handOverSpare_room {f : EgressFrame} (h : class3Held s.hli < 7) : handOverSpare f s = handOver f s := by
  simp [handOverSpare, Config.class3Capacity, h]

theorem handOverSpare_full {f : EgressFrame} (h : 7 ≤ class3Held s.hli) : handOverSpare f s = countDiscard s := by
  simp [handOverSpare, Config.class3Capacity, Nat.not_lt.2 h]

theorem handOverSpare_mge {f : EgressFrame} (hf : f.origin = .reply ∨ f.origin = .attention) :
    (handOverSpare f s).mge = s.mge := by
  rcases Nat.lt_or_ge (class3Held s.hli) 7 with h | h
  · rw [handOverSpare_room h, handOver_class3_mge hf]
  · rw [handOverSpare_full h]; rfl

/-- The state in which a request has joined the queue. -/
def joinRequest (source : Station) (payload : List Byte) (s : State) : State :=
  (s.withEvq { s.evq with desk := some source }).withMge
    { s.mge with received := satAdd s.mge.received 1, requests := s.mge.requests ++ [⟨source, payload⟩] }

/-- The state in which a request has been turned away. -/
def turnAwayRequest (source : Station) (s : State) : State :=
  (s.withEvq { s.evq with desk := some source }).withMge
    { s.mge with received := satAdd s.mge.received 1, busyReplies := satAdd s.mge.busyReplies 1 }

theorem takeRequest_queued {source : Station} {payload : List Byte} (h : s.mge.requests.length < 4) :
    takeRequest source payload s = takeNext (joinRequest source payload s) := by
  simp only [takeRequest, State.withMge_mge, Config.requestCapacity, h, if_true, joinRequest, State.withMge_withMge]

theorem takeRequest_busy {source : Station} {payload : List Byte} (h : 4 ≤ s.mge.requests.length) :
    takeRequest source payload s = handOverSpare (replyFrame (replyTo ⟨source, payload⟩ .busy []))
      (turnAwayRequest source s) := by
  simp only [takeRequest, State.withMge_mge, Config.requestCapacity, Nat.not_lt.2 h, if_false, turnAwayRequest,
    State.withMge_withMge]

theorem exec_mgmtRequest {frame : List Byte} {source : Station} {payload : List Byte}
    (h : Arrives s frame .mgmtRequest source payload) :
    exec (.mgmtRequest frame) s = .next (takeRequest source payload (countReceived s)) :=
  congrArg Host.Outcome.next (arrive_accepted h)

theorem takeNext_requests (s : State) : (takeNext s).hli = s.hli ∧ (takeNext s).evq = s.evq ∧
    (takeNext s).mge.received = s.mge.received ∧ (takeNext s).mge.busyReplies = s.mge.busyReplies ∧
    (takeNext s).mge.badRequests = s.mge.badRequests := by
  by_cases h : s.mge.service = .idle
  · rw [takeNext_of_idle h]
    exact ⟨rfl, rfl, rfl, rfl, rfl⟩
  · rw [takeNext_of_busy h]
    exact ⟨rfl, rfl, rfl, rfl, rfl⟩

theorem handOverSpare_evq {f : EgressFrame} (s : State) : (handOverSpare f s).evq = s.evq := by
  unfold handOverSpare handOver discardFrame tellSender
  repeat' split
  all_goals rfl

/-- Settles O25: a request that finds room is queued and the oldest may come into service; one that finds none is answered
at once, if class 3 has a place to spare. -/
theorem requestTakenOrBusy : Obligations.RequestTakenOrBusy := by
  intro s frame source payload ha up m waiting c
  refine ⟨_, exec_mgmtRequest ha, ?_⟩
  have kept : KeepsAllBut [.desk, .requests, .egress] s (takeRequest source payload (countReceived s)) :=
    takeRequest_keeps (putLinkCounters_keeps .refl (by decide)) (by decide) (by decide) (by decide)
  rcases Nat.lt_or_ge s.mge.requests.length 4 with h | h
  · rw [takeRequest_queued (s := countReceived s) h] at kept ⊢
    obtain ⟨hhli, hevq, hrec, hbusy, hbad⟩ := takeNext_requests (joinRequest source payload (countReceived s))
    refine ⟨congrArg Evq.desk hevq, hrec, hbad, fun _ => ⟨hbusy, fun hi => ?_, fun hb => ?_, hhli⟩,
      fun h' => absurd h (Nat.not_lt.2 h'), kept⟩
    · rw [takeNext_of_idle (s := joinRequest source payload (countReceived s)) hi]
      change some (match waiting with | [] => Service.idle | q :: _ => .taken q) = _ ∧ waiting.tail = _
      cases hw : waiting with
      | nil => simp [waiting] at hw
      | cons q rest => exact ⟨rfl, rfl⟩
    · rw [takeNext_of_busy (s := joinRequest source payload (countReceived s)) hb]
      exact ⟨rfl, rfl⟩
  · rw [takeRequest_busy (s := countReceived s) h] at kept ⊢
    have reply : (replyFrame (replyTo ⟨source, payload⟩ .busy [])).origin = .reply ∨
      (replyFrame (replyTo ⟨source, payload⟩ .busy [])).origin = .attention := .inl rfl
    have hmge := handOverSpare_mge (s := turnAwayRequest source (countReceived s)) reply
    rw [handOverSpare_evq, hmge]
    refine ⟨rfl, rfl, rfl, fun h' => absurd h' (Nat.not_lt.2 h),
      fun _ => ⟨rfl, rfl, rfl, fun hr => ?_, fun hf => ?_⟩, kept⟩
    · rw [handOverSpare_room (s := turnAwayRequest source (countReceived s)) hr]
      obtain ⟨held, counters, -⟩ := handOver_class3_hli (s := turnAwayRequest source (countReceived s)) reply ha.1
      rw [held, counters, replyTo_eq]
      exact ⟨rfl, rfl⟩
    · rw [handOverSpare_full (s := turnAwayRequest source (countReceived s)) hf]
      exact ⟨rfl, rfl⟩

end Sys2Proof.Machine
end

section
/-! The simpler requests of settings and tables: their operand forms, their outcomes, and the obligations on the Event Queue,
the Level Curve, the hall settings, staged gains and tour timings (R25, R26, R65, R66, R128, R175 to R178, R186). -/

namespace Sys2Proof.Machine

open Sys2Proof

variable {s t : State}

/-! ### Operand values -/

theorem byteAt_lt (bs : List Byte) (i : Nat) : byteAt bs i < 256 := (bs.getD i 0#8).isLt

theorem wordAt_lt (bs : List Byte) (i : Nat) : wordAt bs i < 65536 := by
  have := byteAt_lt bs i
  have := byteAt_lt bs (i + 1)
  unfold wordAt
  omega

theorem flagOfCode_eq_none {n : Nat} : flagOfCode n = none ↔ 1 < n := by
  unfold flagOfCode
  split_ifs <;> simp <;> omega

theorem flagOfCode_eq_some {n : Nat} {b : Bool} : flagOfCode n = some b ↔ n = if b then 1 else 0 := by
  unfold flagOfCode
  cases b <;> split_ifs <;> simp_all

/-! ### Event records (R175 to R178) -/

theorem raiseEvent_disabled {k : EventKind} {n d : Nat} {r : Option (BitVec 16)}
    (h : ¬ s.evq.enables.getLsbD k.code = true) : raiseEvent k n r d s = s := by
  simp [raiseEvent, h]

/-- The state in which an event has been queued. -/
def queueEvent (x : EventRecord) (s : State) : State := s.withEvq { s.evq with queue := s.evq.queue ++ [x] }

/-- An enabled event that finds room is queued, and brings an ATTENTION where it is the 32nd (R176). -/
theorem raiseEvent_enabled {k : EventKind} {n d : Nat} {r : Option (BitVec 16)}
    (h : s.evq.enables.getLsbD k.code = true) (hq : s.evq.queue.length < 64) : raiseEvent k n r d s =
      if s.evq.queue.length = 31 then sendAttention (queueEvent ⟨k, s.mge.hubTime, n, r, d⟩ s)
      else queueEvent ⟨k, s.mge.hubTime, n, r, d⟩ s := by
  simp [raiseEvent, h, hq, Config.eventCapacity, Config.attentionAt, queueEvent]

theorem raiseEvent_hli_of_not_rises {k : EventKind} {n d : Nat} {r : Option (BitVec 16)}
    (h : ¬ (s.evq.enables.getLsbD k.code = true ∧ s.evq.queue.length = 31)) : (raiseEvent k n r d s).hli = s.hli := by
  by_cases he : s.evq.enables.getLsbD k.code = true
  · by_cases hq : s.evq.queue.length < 64
    · rw [raiseEvent_enabled he hq, if_neg fun h' => h ⟨he, h'⟩]
      rfl
    · simp [raiseEvent, he, hq, Config.eventCapacity]
  · rw [raiseEvent_disabled he]

/-- The ATTENTION frame that an event brings which finds 31 records queued (R176, Table 8-7). -/
def attentionFrame (desk : Station) (s : State) : EgressFrame :=
  { dest := desk, origin := .attention
    payload := [32#8, if s.evq.overflow then 1#8 else 0#8] ++ enc32 s.mge.hubTime }

theorem raiseEvent_rises {k : EventKind} {n d : Nat} {r : Option (BitVec 16)} {desk : Station}
    (h : s.evq.enables.getLsbD k.code = true) (hq : s.evq.queue.length = 31) (hd : s.evq.desk = some desk) :
    raiseEvent k n r d s =
      handOverSpare (attentionFrame desk s) (queueEvent ⟨k, s.mge.hubTime, n, r, d⟩ s) := by
  rw [raiseEvent_enabled h (by omega), if_pos hq]
  have flag : encFlag s.evq.overflow = [if s.evq.overflow then 1#8 else 0#8] := by cases s.evq.overflow <;> rfl
  simp [sendAttention, queueEvent, hd, attentionFrame, hq, flag, enc8]

/-- What an ATTENTION does to the arbiter (R168, R176). -/
theorem attention_hli {k : EventKind} {n d : Nat} {r : Option (BitVec 16)} {desk : Station}
    (h : s.evq.enables.getLsbD k.code = true) (hq : s.evq.queue.length = 31) (hd : s.evq.desk = some desk) :
    (s.hli.linkUp = true → class3Held s.hli < 7 → (raiseEvent k n r d s).hli.counters = s.hli.counters ∧
      heldFrames (raiseEvent k n r d s).hli = heldFrames s.hli ++ [attentionFrame desk s]) ∧
    (s.hli.linkUp = false ∨ 7 ≤ class3Held s.hli → (raiseEvent k n r d s).hli = { s.hli with
      counters := { s.hli.counters with discards := min (s.hli.counters.discards + 1) 4294967295 } }) := by
  rw [raiseEvent_rises h hq hd]
  generalize (⟨k, s.mge.hubTime, n, r, d⟩ : EventRecord) = x
  have kind : (attentionFrame desk s).origin = .reply ∨ (attentionFrame desk s).origin = .attention := .inr rfl
  refine ⟨fun hl hc => ?_, fun hno => ?_⟩
  · rw [handOverSpare_room (s := queueEvent x s) hc]
    obtain ⟨held, counters, -⟩ := handOver_class3_hli (s := queueEvent x s) kind hl
    exact ⟨counters, held⟩
  · rcases Nat.lt_or_ge (class3Held s.hli) 7 with hc | hc
    · rw [handOverSpare_room (s := queueEvent x s) hc,
        handOver_class3_linkDown (s := queueEvent x s) kind (hno.resolve_right (Nat.not_le.2 hc))]
      rfl
    · rw [handOverSpare_full (s := queueEvent x s) hc]
      rfl

theorem recordBytes_eq (x : EventRecord) : recordBytes x =
    [BitVec.ofNat 8 x.kind.code, if x.run.isSome then 1#8 else 0#8] ++ enc32 x.time ++ enc16 x.subject ++
      (match x.run with | some n => enc16 n.toNat | none => [0#8, 0#8]) ++ enc16 x.detail := by
  unfold recordBytes encFlag enc8
  cases x.run <;> rfl

/-- Settles O45: what raising one event does, and the two requests that empty the queue. -/
theorem eventsReadAndFlushed : Obligations.EventsReadAndFlushed := by
  refine ⟨fun k n r d s => ⟨EventsTaken.raise k n r d s, raiseEvent_keeps .refl (by decide) (by decide), ?_, ?_⟩, ?_⟩
  · rintro (h | h)
    · exact raiseEvent_hli_of_not_rises h
    · by_cases rises : s.evq.enables.getLsbD k.code = true ∧ s.evq.queue.length = 31
      · rw [raiseEvent_enabled rises.1 (by omega), if_pos rises.2]
        simp [sendAttention, queueEvent, h]
      · exact raiseEvent_hli_of_not_rises rises
  · rintro desk ⟨he, hq⟩ hd
    exact attention_hli he hq hd
  · intro s req q flag two four bytes
    have record : bytes = recordBytes := funext fun x => (recordBytes_eq x).symm
    refine ⟨fun h => ?_, fun h => exec_serving (owner := flushEvents) rfl h rfl⟩
    rw [exec_serving rfl h rfl, record]
    simp only [readEvents, Config.eventsPerReply, List.length_take, List.length_drop]
    cases s.evq.overflow <;> rfl

/-! ### The Level Curve and the hall settings (R128, R186) -/

theorem pairwise_items_ofFn {α : Type} {n : Nat} {R : α → α → Prop} {f : Fin n → α} :
    (Tab.ofFn f).items.Pairwise R ↔ ∀ ⦃i j : Fin n⦄, i < j → R (f i) (f j) := List.pairwise_ofFn

theorem forall_items_ofFn {α : Type} {n : Nat} {p : α → Prop} {f : Fin n → α} :
    (∀ x ∈ (Tab.ofFn f).items, p x) ↔ ∀ i, p (f i) := by
  simp [Tab.ofFn, List.mem_ofFn]

/-- The points of a LOAD LEVEL CURVE are acceptable when each stands in order with the next (R128). -/
theorem curveValid_iff {a : List Byte} : curveValid (parseCurve a) = true ↔
    (∀ k < 7, wordAt a (3 * k) < wordAt a (3 * k + 3) ∧ byteAt a (3 * k + 2) ≤ byteAt a (3 * k + 5)) ∧
      byteAt a 23 ≤ 100 := by
  have volts : (∀ ⦃i j : Fin 8⦄, i < j → wordAt a (3 * i.val) < wordAt a (3 * j.val)) ↔
      ∀ k : Fin 7, wordAt a (3 * k.val) < wordAt a (3 * k.val + 3) :=
    Fin.strictMono_iff_lt_succ (f := fun i : Fin 8 => wordAt a (3 * i.val))
  have levels : (∀ ⦃i j : Fin 8⦄, i ≤ j → byteAt a (3 * i.val + 2) ≤ byteAt a (3 * j.val + 2)) ↔
      ∀ k : Fin 7, byteAt a (3 * k.val + 2) ≤ byteAt a (3 * k.val + 5) :=
    Fin.monotone_iff_le_succ (f := fun i : Fin 8 => byteAt a (3 * i.val + 2))
  simp only [curveValid, parseCurve, Bool.and_eq_true, List.all_eq_true, decide_eq_true_eq, forall_items_ofFn,
    List.pairwise_map, pairwise_items_ofFn]
  rw [volts]
  constructor
  · rintro ⟨⟨range, hv⟩, hl⟩
    have hl' := levels.1 fun i j hij => hij.lt_or_eq.elim (@hl i j) fun e => by rw [e]
    exact ⟨fun k hk => ⟨hv ⟨k, hk⟩, hl' ⟨k, hk⟩⟩, (range 7).2⟩
  · rintro ⟨order, top⟩
    have hl := levels.2 fun k => (order k k.isLt).2
    exact ⟨⟨fun i => ⟨Nat.le_of_lt_succ (wordAt_lt a _), (hl (Fin.le_last i)).trans top⟩,
      fun k => (order k k.isLt).1⟩, fun i j hij => hl hij.le⟩

theorem clampSettings_ne_iff {x : Settings} : clampSettings x ≠ x ↔
    100 < x.ready ∨ 100 < x.full ∨ x.full < min x.ready 100 ∨ x.grace = 0 ∨ 240 < x.grace := by
  have fields : clampSettings x = x ↔ min x.ready 100 = x.ready ∧ max (min x.full 100) (min x.ready 100) = x.full ∧
      clampTo 1 240 x.grace = x.grace := by
    cases x
    simp [clampSettings]
  rw [Ne, fields]
  unfold clampTo
  omega

/-- Settles O42: both requests parse their operands once, and refuse or replace the table whole. -/
theorem levelCurveAndSettingsLoaded : Obligations.LevelCurveAndSettingsLoaded := by
  intro s req a
  refine ⟨fun h => ?_, fun h => ?_⟩
  · intro valid
    exact ⟨fun hv => exec_serving rfl h (owner := loadLevelCurve) (if_neg (mt curveValid_iff.1 hv)), fun hv =>
      ⟨parseCurve a, exec_serving rfl h (owner := loadLevelCurve) (if_pos (curveValid_iff.2 hv)), fun k => Tab.get_ofFn _ k⟩⟩
  intro ready full grace auto
  refine ⟨fun hbad => exec_serving rfl h (owner := setHallSettings) (x := refuse .badArgument s) ?_, fun hok => ?_⟩
  · have none : parseSettings a = none := by
      simp only [parseSettings, Option.map_eq_none_iff]
      exact flagOfCode_eq_none.2 hbad
    simp only [setHallSettings, none, a]
  · intro x
    have some : parseSettings a = some ⟨ready, full, grace, decide (auto = 1)⟩ := by
      have code : flagOfCode auto = some (decide (auto = 1)) := by
        rw [flagOfCode_eq_some]
        split_ifs <;> simp_all
        omega
      exact congrArg (Option.map _) code
    rw [exec_serving (owner := setHallSettings) rfl h rfl]
    simp only [setHallSettings]
    rw [show parseSettings (requestArgs req) = _ from some]
    simp only [settingsBytes, appliedStatus, decide_eq_true_eq, clampSettings_ne_iff]
    have flag : encFlag (decide (auto = 1)) = [BitVec.ofNat 8 auto] := by
      obtain h0 | h1 : auto = 0 ∨ auto = 1 := by omega
      · rw [h0]; rfl
      · rw [h1]; rfl
    simp only [clampSettings, flag, x]
    rfl

/-! ### Staged gains (R25, R26) -/

theorem programLoaded_iff {p : Program} : programLoaded p = true ↔ ¬ (p.installed = none ∧ p.pendingRec = none) := by
  unfold programLoaded
  cases p.installed <;> cases p.pendingRec <;> simp

theorem stageGain_badArgument {a : List Byte} (h : 32 ≤ byteAt a 0 ∨ 5 ≤ byteAt a 1) :
    stageGain a s = refuse .badArgument s := by
  unfold stageGain
  split
  · rename_i id k hid hk
    have := toId_eq_some.1 hid
    have := toId_eq_some.1 hk
    omega
  · rfl

/-- The state in which one gain is staged (R25). -/
def stageOne (id : Fin 32) (k : Fin 5) (gain : Nat) (s : State) : State :=
  s.putProgram id { s.program id with staged := (s.program id).staged.set k (some gain) }

theorem stageGain_eq {a : List Byte} {id : Fin 32} {k : Fin 5} (hid : byteAt a 0 = id.val) (hk : byteAt a 1 = k.val) :
    stageGain a s = if programLoaded (s.program id) then answer .done (stageOne id k (wordAt a 2) s)
      else refuse .notFound s := by
  simp only [stageGain, toId_val id hid, toId_val k hk]
  rfl

/-- Settles O31: STAGE GAIN writes one staged gain of a loaded program, and APPLY GAINS the request alone. -/
theorem gainsStagedUntilApplied : Obligations.GainsStagedUntilApplied := by
  intro s req a refused
  refine ⟨fun h => ⟨fun hbad => exec_serving (owner := stageGain) rfl h (stageGain_badArgument hbad),
    fun id k hid hk => ⟨fun hn => ?_, fun hl => ⟨stageOne id k (wordAt a 2) s, ?_, ?_, fun j => ?_, fun j hj => ?_, rfl,
      withMxr_keeps .refl (by decide)⟩⟩⟩, fun h => exec_serving (owner := applyGains) rfl h rfl⟩
  · exact exec_serving (owner := stageGain) rfl h
      ((stageGain_eq hid hk).trans (if_neg fun hl => programLoaded_iff.1 hl hn))
  · exact exec_serving (owner := stageGain) rfl h ((stageGain_eq hid hk).trans (if_pos (programLoaded_iff.2 hl)))
  · simp [stageOne]
  · simp [stageOne, Tab.get_set]
  · rw [stageOne, State.putProgram_program, if_neg hj]

/-! ### Tour timings (R65, R66) -/

theorem clampTiming_ne_iff {x : Timing} : clampTiming x ≠ x ↔ (x.q1 = 0 ∨ 600 < x.q1) ∨ (x.q2 = 0 ∨ 600 < x.q2) ∨
    60 < x.closeHold ∨ (x.maxWait = 0 ∨ 600 < x.maxWait) ∨ 10000 < x.window := by
  have fields : clampTiming x = x ↔ clampTo 1 600 x.q1 = x.q1 ∧ clampTo 1 600 x.q2 = x.q2 ∧
      min x.closeHold 60 = x.closeHold ∧ clampTo 1 600 x.maxWait = x.maxWait ∧ min x.window 10000 = x.window := by
    cases x
    simp [clampTiming]
  rw [Ne, fields]
  unfold clampTo
  omega

theorem loadTourTiming_badArgument {a : List Byte} (h : 16 ≤ byteAt a 0) :
    loadTourTiming a s = refuse .badArgument s := by
  simp only [loadTourTiming, toId_eq_none.2 h]

theorem loadTourTiming_eq {a : List Byte} {slot : Fin 16} (h : byteAt a 0 = slot.val) :
    loadTourTiming a s = if (s.tour slot).live.phase = .free then refuse .wrongState s else
      answer (appliedStatus (decide (clampTiming (parseTiming a) ≠ parseTiming a)))
        (s.putTour slot { s.tour slot with timing := some (roundWindow (clampTiming (parseTiming a))) }) := by
  simp only [loadTourTiming, toId_val slot h]

theorem clearTour_badArgument {a : List Byte} (h : 16 ≤ byteAt a 0) : clearTour a s = refuse .badArgument s := by
  simp only [clearTour, toId_eq_none.2 h]

theorem clearTour_eq {a : List Byte} {slot : Fin 16} (h : byteAt a 0 = slot.val) :
    clearTour a s = if (s.tour slot).live.phase = .planned then answer .done (s.putTour slot
      { plan := none, timing := none, live := { TourLive.reset with run := (s.tour slot).live.run } })
      else refuse .wrongState s := by
  simp only [clearTour, toId_val slot h]

/-- Settles O34: the timing is parsed, clamped and rounded; a PLANNED slot is cleared. -/
theorem timingLoadedAndSlotCleared : Obligations.TimingLoadedAndSlotCleared := by
  intro s req a refused
  refine ⟨fun h => ?_, fun h => ⟨fun hbad => exec_serving (owner := clearTour) rfl h (clearTour_badArgument hbad),
    fun slot hslot => ⟨fun hp => ?_, fun hp => ?_⟩⟩⟩
  · intro q1 q2 hold wait window outside
    refine ⟨fun hbad => exec_serving (owner := loadTourTiming) rfl h (loadTourTiming_badArgument hbad),
      fun slot hslot => ⟨fun hf => ?_, fun hf => ⟨(min window 10000 + 3) / 4 * 4, ?_, by omega, by omega, by omega⟩⟩⟩
    · exact exec_serving (owner := loadTourTiming) rfl h ((loadTourTiming_eq hslot).trans (if_pos hf))
    · rw [exec_serving (owner := loadTourTiming) rfl h ((loadTourTiming_eq hslot).trans (if_neg hf))]
      simp only [answer_status, answer_data, answer_state, appliedStatus, decide_eq_true_eq, clampTiming_ne_iff]
      rfl
  · exact exec_serving (owner := clearTour) rfl h ((clearTour_eq hslot).trans (if_neg hp))
  · exact exec_serving (owner := clearTour) rfl h ((clearTour_eq hslot).trans (if_pos hp))

end Sys2Proof.Machine
end

section
/-! LOAD PROGRAM and LOAD TOUR PLAN: lists of parsed operands, what malformed operands are, and the two obligations
(R22, R23, R63, R64). -/

namespace Sys2Proof.Machine

open Sys2Proof

variable {s t : State}

/-! ### Lists of parsed operands -/

section Lists
variable {α β : Type} {n : Nat}

theorem allPresent_eq_none {l : List (Option α)} (h : none ∈ l) : allPresent l = none := by
  induction l with
  | nil => simp at h
  | cons x rest ih =>
    cases x with
    | none => rfl
    | some x => simp only [allPresent, ih (by simpa using h), Option.map_none]

theorem allPresent_map {l : List β} {f : β → Option α} {g : β → α} (h : ∀ x ∈ l, f x = some (g x)) :
    allPresent (l.map f) = some (l.map g) := by
  induction l with
  | nil => rfl
  | cons x rest ih =>
    simp only [List.map_cons, h x (by simp), allPresent, ih fun y hy => h y (by simp [hy]), Option.map_some]

theorem allPresent_indices_eq_none {f : Fin n → Option α} {k : Fin n} (h : f k = none) :
    allPresent ((indices n).map f) = none :=
  allPresent_eq_none (List.mem_map.2 ⟨k, List.mem_finRange k, h⟩)

theorem allPresent_indices {f : Fin n → Option α} {g : Fin n → α} (h : ∀ k, f k = some (g k)) :
    allPresent ((indices n).map f) = some ((indices n).map g) :=
  allPresent_map fun k _ => h k

/-- A table filled from the parsed list holds the parsed values. -/
theorem get_ofFn_parsed (g : Fin n → α) (x : α) (k : Fin n) :
    (Tab.ofFn fun i : Fin n => (((indices n).map g)[i.val]?).getD x).get k = g k := by
  rw [Tab.get_ofFn]
  simp

/-- Values that are present at some indices are all different. -/
theorem nodup_filterMap_indices {f : Fin n → Option α} :
    ((indices n).filterMap f).Nodup ↔ ∀ j k x, f j = some x → f k = some x → j = k := by
  rw [List.Nodup, List.pairwise_filterMap, show indices n = List.ofFn id from (List.ofFn_id n).symm, List.pairwise_ofFn]
  constructor
  · intro h j k x hj hk
    rcases lt_trichotomy j k with hlt | heq | hgt
    · exact absurd rfl (h hlt x hj x hk)
    · exact heq
    · exact absurd rfl (h hgt x hk x hj)
  · intro h j k hlt x hj y hk hxy
    exact hlt.ne (h j k x hj (hxy ▸ hk))

end Lists

/-! ### The members of a program -/

theorem classOfCode_eq_none {n : Nat} : classOfCode n = none ↔ 1 < n := by
  unfold classOfCode
  split_ifs <;> simp <;> omega

theorem classOfCode_eq_some {n : Nat} {c : MemberClass} : classOfCode n = some c ↔ n = c.code := by
  unfold classOfCode
  cases c <;> split_ifs <;> simp_all [MemberClass.code]

/-- The operand bytes of member slot `k` break the form of R22. -/
def MemberMalformed (a : List Byte) (k : Fin 5) : Prop :=
  1 < byteAt a (2 + 5 * k.val) ∨ (byteAt a (2 + 5 * k.val) = 1 ∧
    (48 ≤ byteAt a (2 + 5 * k.val + 1) ∨ 1 < byteAt a (2 + 5 * k.val + 4)))

/-- The member that well-formed operand bytes name. -/
structure NamesMember (a : List Byte) (k : Fin 5) (m : Member) : Prop where
  source : m.source.val = byteAt a (2 + 5 * k.val + 1)
  gain : m.gain = wordAt a (2 + 5 * k.val + 2)
  cls : m.cls.code = byteAt a (2 + 5 * k.val + 4)

theorem parseMember_eq_none {a : List Byte} {k : Fin 5} (h : MemberMalformed a k) : parseMember a k = none := by
  unfold parseMember
  rcases h with h | ⟨h1, h⟩
  · simp only [flagOfCode_eq_none.2 h]
  · simp only [show flagOfCode (byteAt a (2 + 5 * k.val)) = some true from flagOfCode_eq_some.2 h1]
    split
    · rename_i i c hi hc
      have hi' := toId_eq_some.1 hi
      have hc' : ¬ 1 < byteAt a (2 + 5 * k.val + 4) := fun hn => by simp [classOfCode_eq_none.2 hn] at hc
      omega
    · rfl

theorem exists_parseMember {a : List Byte} {k : Fin 5} (h : ¬ MemberMalformed a k) : ∃ x, parseMember a k = some x ∧
    (byteAt a (2 + 5 * k.val) ≠ 1 → x = none) ∧
    (byteAt a (2 + 5 * k.val) = 1 → ∃ m, x = some m ∧ NamesMember a k m) := by
  simp only [MemberMalformed, not_or, not_and_or, not_lt, not_le] at h
  unfold parseMember
  by_cases h1 : byteAt a (2 + 5 * k.val) = 1
  · simp only [show flagOfCode (byteAt a (2 + 5 * k.val)) = some true from flagOfCode_eq_some.2 h1]
    obtain ⟨hs, hc⟩ := h.2.resolve_left (not_not_intro h1)
    obtain ⟨c, hc⟩ : ∃ c, classOfCode (byteAt a (2 + 5 * k.val + 4)) = some c :=
      Option.ne_none_iff_exists'.1 fun hn => Nat.not_lt.2 hc (classOfCode_eq_none.1 hn)
    simp only [toId_val (⟨_, hs⟩ : Fin 48) rfl, hc]
    exact ⟨_, rfl, fun hn => absurd h1 hn, fun _ => ⟨_, rfl, rfl, rfl, (classOfCode_eq_some.1 hc).symm⟩⟩
  · simp only [show flagOfCode (byteAt a (2 + 5 * k.val)) = some false from flagOfCode_eq_some.2 (by simp; omega)]
    exact ⟨none, rfl, fun _ => rfl, fun hn => absurd hn h1⟩

theorem distinctSources_iff {g : Fin 5 → Option Member} : distinctSources ((indices 5).map g) = true ↔
    ∀ j k x y, g j = some x → g k = some y → x.source = y.source → j = k := by
  simp only [distinctSources, decide_eq_true_eq, List.filterMap_map, nodup_filterMap_indices, Function.comp_apply,
    Option.map_eq_some_iff]
  constructor
  · intro h j k x y hj hk hxy
    exact h j k _ ⟨x, hj, rfl⟩ ⟨y, hk, hxy.symm⟩
  · rintro h j k _ ⟨x, hj, rfl⟩ ⟨y, hk, hxy⟩
    exact h j k x y hj hk hxy.symm

/-! ### LOAD PROGRAM -/

/-- The operands of LOAD PROGRAM break check 1 of R22. -/
def ProgramMalformed (a : List Byte) : Prop :=
  32 ≤ byteAt a 1 ∨ (∃ k, MemberMalformed a k) ∨
    ∃ j k : Fin 5, j ≠ k ∧ byteAt a (2 + 5 * j.val) = 1 ∧ byteAt a (2 + 5 * k.val) = 1 ∧
      byteAt a (2 + 5 * j.val + 1) = byteAt a (2 + 5 * k.val + 1)

/-- The fields that well-formed operands of LOAD PROGRAM name, before the clamps. -/
structure NamesProgram (a : List Byte) (x : ProgramFields) : Prop where
  absent : ∀ k : Fin 5, byteAt a (2 + 5 * k.val) ≠ 1 → x.members.get k = none
  present : ∀ k : Fin 5, byteAt a (2 + 5 * k.val) = 1 → ∃ m, x.members.get k = some m ∧ NamesMember a k m
  duckDepth : x.duckDepth = if bitAt a 0 0 then 8192 else wordAt a 27
  attack : x.attack = if bitAt a 0 1 then 8192 else wordAt a 29
  release : x.release = if bitAt a 0 2 then 1024 else wordAt a 31

theorem parseProgram_eq_none {a : List Byte} (h : ProgramMalformed a) : parseProgram a = none := by
  by_cases members : ∃ k, MemberMalformed a k
  · obtain ⟨k, hk⟩ := members
    unfold parseProgram
    rw [allPresent_indices_eq_none (parseMember_eq_none hk)]
    cases toId 32 (byteAt a 1) <;> rfl
  · rw [not_exists] at members
    choose g hg habsent hpresent using fun k => exists_parseMember (members k)
    unfold parseProgram
    rw [allPresent_indices hg]
    rcases h with h | ⟨k, h⟩ | ⟨j, k, hne, hj, hk, heq⟩
    · rw [toId_eq_none.2 h]
    · exact absurd h (members k)
    · obtain ⟨x, hx, nx⟩ := hpresent j hj
      obtain ⟨y, hy, ny⟩ := hpresent k hk
      have same : ¬ distinctSources ((indices 5).map g) = true := fun hd =>
        hne (distinctSources_iff.1 hd j k x y hx hy (Fin.ext (by rw [nx.source, ny.source, heq])))
      cases toId 32 (byteAt a 1) with
      | none => rfl
      | some id => exact if_neg same

theorem exists_parseProgram {a : List Byte} {id : Fin 32} (hid : byteAt a 1 = id.val) (h : ¬ ProgramMalformed a) :
    ∃ x, parseProgram a = some (id, x) ∧ NamesProgram a x := by
  simp only [ProgramMalformed, not_or, not_exists] at h
  obtain ⟨-, members, distinct⟩ := h
  choose g hg habsent hpresent using fun k => exists_parseMember (members k)
  have ok : distinctSources ((indices 5).map g) = true := by
    refine distinctSources_iff.2 fun j k x y hx hy hxy => by_contra fun hne => ?_
    have present {k : Fin 5} {x : Member} (hk : g k = some x) : byteAt a (2 + 5 * k.val) = 1 :=
      by_contra fun hn => by simp [habsent k hn] at hk
    obtain ⟨x', hx', nx⟩ := hpresent j (present hx)
    obtain ⟨y', hy', ny⟩ := hpresent k (present hy)
    obtain rfl : x' = x := Option.some_inj.1 (hx'.symm.trans hx)
    obtain rfl : y' = y := Option.some_inj.1 (hy'.symm.trans hy)
    exact distinct j k ⟨hne, present hx, present hy, by rw [← nx.source, ← ny.source, hxy]⟩
  have parsed : parseProgram a = some (id,
      { members := Tab.ofFn fun k => (((indices 5).map g)[k.val]?).getD none
        duckDepth := orDefault (bitAt a 0 0) 8192 (wordAt a 27)
        attack := orDefault (bitAt a 0 1) 8192 (wordAt a 29)
        release := orDefault (bitAt a 0 2) 1024 (wordAt a 31) }) := by
    unfold parseProgram
    rw [allPresent_indices hg, toId_val id hid]
    exact if_pos ok
  refine ⟨_, parsed, ?_, ?_, rfl, rfl, rfl⟩
  · exact fun k hk => (get_ofFn_parsed g none k).trans (habsent k hk)
  · exact fun k hk => (hpresent k hk).imp fun m hm => ⟨(get_ofFn_parsed g none k).trans hm.1, hm.2⟩

theorem clampProgram_ne_iff {x : ProgramFields} : clampProgram x ≠ x ↔
    32768 < x.duckDepth ∨ x.attack = 0 ∨ 32768 < x.attack ∨ x.release = 0 ∨ 32768 < x.release := by
  have fields : clampProgram x = x ↔ min x.duckDepth 32768 = x.duckDepth ∧ clampTo 1 32768 x.attack = x.attack ∧
      clampTo 1 32768 x.release = x.release := by
    cases x
    simp [clampProgram]
  rw [Ne, fields]
  unfold clampTo
  omega

/-- The state in which a record is pending (R23). -/
def pendRecord (id : Fin 32) (x : ProgramFields) (s : State) : State :=
  s.putProgram id { s.program id with pendingRec := some x }

theorem loadProgram_eq {a : List Byte} {id : Fin 32} {x : ProgramFields} (h : parseProgram a = some (id, x)) :
    loadProgram a s = if (s.program id).owner.isSome then refuse .wrongState s else
      answer (appliedStatus (decide (clampProgram x ≠ x))) (pendRecord id (clampProgram x) s) := by
  simp only [loadProgram, h]
  rfl

theorem loadProgram_badArgument {a : List Byte} (h : ProgramMalformed a) : loadProgram a s = refuse .badArgument s := by
  simp only [loadProgram, parseProgram_eq_none h]

theorem programMalformed_iff {a : List Byte} : ProgramMalformed a ↔
    32 ≤ byteAt a 1 ∨ (∃ k : Fin 5, 1 < byteAt a (2 + 5 * k.val)) ∨
      (∃ k : Fin 5, byteAt a (2 + 5 * k.val) = 1 ∧
        (48 ≤ byteAt a (2 + 5 * k.val + 1) ∨ 1 < byteAt a (2 + 5 * k.val + 4))) ∨
      ∃ j k : Fin 5, j ≠ k ∧ byteAt a (2 + 5 * j.val) = 1 ∧ byteAt a (2 + 5 * k.val) = 1 ∧
        byteAt a (2 + 5 * j.val + 1) = byteAt a (2 + 5 * k.val + 1) := by
  simp only [ProgramMalformed, MemberMalformed, exists_or, or_assoc]

/-- Settles O30: malformed operands are refused; the record that well-formed ones name is clamped and pends. -/
theorem loadProgramPends : Obligations.LoadProgramPends := by
  intro s req h a refused at_ present bad depth attack release
  have bad_iff : ProgramMalformed a ↔ bad := programMalformed_iff
  refine ⟨fun hb => exec_serving (owner := loadProgram) rfl h (loadProgram_badArgument (bad_iff.2 hb)),
    fun hb id hid => ?_⟩
  obtain ⟨x, hx, nx⟩ := exists_parseProgram hid (mt bad_iff.1 hb)
  refine ⟨fun ho => exec_serving (owner := loadProgram) rfl h ((loadProgram_eq hx).trans (if_pos ho)), fun ho =>
    ⟨pendRecord id (clampProgram x) s, clampProgram x, ?_, ?_, fun j hj => ?_, rfl, withMxr_keeps .refl (by decide), ?_, ?_,
      ?_, fun k => ⟨nx.absent k, fun hk => ?_⟩⟩⟩
  · rw [exec_serving (owner := loadProgram) rfl h ((loadProgram_eq hx).trans (if_neg (by simp [ho])))]
    simp only [answer_status, answer_data, answer_state, appliedStatus, decide_eq_true_eq, clampProgram_ne_iff,
      nx.duckDepth, nx.attack, nx.release]
    rfl
  · simp [pendRecord]
  · rw [pendRecord, State.putProgram_program, if_neg hj]
  · simp only [clampProgram, nx.duckDepth, depth, a]
  · simp only [clampProgram, clampTo, nx.attack, attack, a]
  · simp only [clampProgram, clampTo, nx.release, release, a]
  · obtain ⟨m, hm, nm⟩ := nx.present k hk
    exact ⟨m, hm, nm.source, nm.gain, nm.cls⟩

end Sys2Proof.Machine
end

section
/-! LOAD TOUR PLAN (R63, R64): its operand form, its consistency check, the clamps of the parties, and the obligation on it. -/

namespace Sys2Proof.Machine

open Sys2Proof

variable {s t : State}

/-! ### Optional source identifiers -/

/-- A byte that names a source or none. -/
def SourceByte (n : Nat) : Prop := n < 48 ∨ n = 255

theorem optSource_eq_none {n : Nat} (h : ¬ SourceByte n) : optSource n = none := by
  simp only [SourceByte, not_or, not_lt] at h
  simp [optSource, h.2, toId_eq_none.2 h.1]

theorem exists_optSource {n : Nat} (h : SourceByte n) :
    ∃ x, optSource n = some x ∧ x.map Fin.val = if n = 255 then none else some n := by
  by_cases h255 : n = 255
  · exact ⟨none, by simp [optSource, h255], by simp [h255]⟩
  · have hn := h.resolve_right h255
    exact ⟨some ⟨n, hn⟩, by simp [optSource, h255, toId_val (⟨n, hn⟩ : Fin 48) rfl], by simp [h255]⟩

/-! ### The entries -/

/-- The operand bytes of entry `e` break the form of R63. -/
def EntryMalformed (a : List Byte) (e : Fin 4) : Prop :=
  1 < byteAt a (4 + 5 * e.val) ∨ (byteAt a (4 + 5 * e.val) = 1 ∧
    (16 ≤ byteAt a (4 + 5 * e.val + 1) ∨ 32 ≤ byteAt a (4 + 5 * e.val + 2) ∨
      (e ≠ 0 ∧ ¬ SourceByte (byteAt a (4 + 5 * e.val + 4)))))

/-- The entry that well-formed operand bytes name, before the clamps. -/
structure NamesEntry (a : List Byte) (e : Fin 4) (x : Entry) : Prop where
  language : x.language = byteAt a (4 + 5 * e.val + 1)
  program : x.program.val = byteAt a (4 + 5 * e.val + 2)
  party : x.party = byteAt a (4 + 5 * e.val + 3)
  interpreter : x.interpreter.map Fin.val = if e = 0 ∨ byteAt a (4 + 5 * e.val + 4) = 255 then none
    else some (byteAt a (4 + 5 * e.val + 4))

theorem parseEntry_eq_none {a : List Byte} {e : Fin 4} (h : EntryMalformed a e) : parseEntry a e = none := by
  unfold parseEntry
  rcases h with h | ⟨h1, h⟩
  · simp only [flagOfCode_eq_none.2 h]
  · simp only [show flagOfCode (byteAt a (4 + 5 * e.val)) = some true from flagOfCode_eq_some.2 h1]
    rcases h with h | h | ⟨he, h⟩
    · simp only [toId_eq_none.2 h]
    · simp only [toId_eq_none.2 h]
      split <;> simp_all
    · simp only [if_neg he, optSource_eq_none h]
      split <;> simp_all

theorem exists_parseEntry {a : List Byte} {e : Fin 4} (h : ¬ EntryMalformed a e) : ∃ x, parseEntry a e = some x ∧
    (byteAt a (4 + 5 * e.val) ≠ 1 → x = none) ∧
    (byteAt a (4 + 5 * e.val) = 1 → ∃ y, x = some y ∧ NamesEntry a e y) := by
  simp only [EntryMalformed, not_or, not_and_or, not_lt, not_le, not_not] at h
  unfold parseEntry
  by_cases h1 : byteAt a (4 + 5 * e.val) = 1
  · simp only [show flagOfCode (byteAt a (4 + 5 * e.val)) = some true from flagOfCode_eq_some.2 h1]
    obtain ⟨hl, hp, hi⟩ := h.2.resolve_left (not_not_intro h1)
    obtain ⟨i, hi, hival⟩ : ∃ i : Option (Fin 48),
        (if e = 0 then some none else optSource (byteAt a (4 + 5 * e.val + 4))) = some i ∧
        i.map Fin.val = if e = 0 ∨ byteAt a (4 + 5 * e.val + 4) = 255 then none
          else some (byteAt a (4 + 5 * e.val + 4)) := by
      by_cases he : e = 0
      · exact ⟨none, if_pos he, by simp [he]⟩
      · obtain ⟨i, hi, hival⟩ := exists_optSource (hi.resolve_left he)
        exact ⟨i, (if_neg he).trans hi, by simp [hival, he]⟩
    simp only [toId_val (⟨_, hl⟩ : Fin 16) rfl, toId_val (⟨_, hp⟩ : Fin 32) rfl, hi]
    exact ⟨_, rfl, fun hn => absurd h1 hn, fun _ => ⟨_, rfl, rfl, rfl, rfl, hival⟩⟩
  · simp only [show flagOfCode (byteAt a (4 + 5 * e.val)) = some false from flagOfCode_eq_some.2 (by simp; omega)]
    exact ⟨none, rfl, fun _ => rfl, fun hn => absurd hn h1⟩

/-! ### The stops -/

/-- The operand bytes of stop `k` break the form of R63. -/
def StopMalformed (a : List Byte) (k : Nat) : Prop :=
  12 ≤ byteAt a (25 + 5 * k) ∨ ∃ e : Fin 4, ¬ SourceByte (byteAt a (26 + 5 * k + e.val))

/-- The stop that well-formed operand bytes name. -/
structure NamesStop (a : List Byte) (k : Nat) (st : Stop) : Prop where
  zone : st.zone.val = byteAt a (25 + 5 * k)
  fallback : ∀ e : Fin 4, (st.fallback.get e).map Fin.val = if byteAt a (26 + 5 * k + e.val) = 255 then none
    else some (byteAt a (26 + 5 * k + e.val))

theorem fallbackByte (k e : Nat) : 25 + 5 * k + 1 + e = 26 + 5 * k + e := by omega

theorem parseStop_eq_none {a : List Byte} {k : Nat} (h : StopMalformed a k) : parseStop a k = none := by
  unfold parseStop
  simp only [fallbackByte]
  rcases h with h | ⟨e, h⟩
  · simp only [toId_eq_none.2 h]
  · rw [allPresent_indices_eq_none (k := e) (optSource_eq_none h)]
    cases toId 12 (byteAt a (25 + 5 * k)) <;> rfl

theorem exists_parseStop {a : List Byte} {k : Nat} (h : ¬ StopMalformed a k) :
    ∃ st, parseStop a k = some st ∧ NamesStop a k st := by
  simp only [StopMalformed, not_or, not_le, not_exists, not_not] at h
  choose g hg hval using fun e => exists_optSource (h.2 e)
  refine ⟨⟨⟨_, h.1⟩, Tab.ofFn fun e => (((indices 4).map g)[e.val]?).getD none⟩, ?_, rfl, fun e => ?_⟩
  · unfold parseStop
    simp only [fallbackByte]
    rw [allPresent_indices hg, toId_val (⟨_, h.1⟩ : Fin 12) rfl]
  · rw [get_ofFn_parsed g none e, hval e]

/-! ### The plan -/

/-- The operands of LOAD TOUR PLAN break check 1 of R63. -/
def PlanMalformed (a : List Byte) : Prop :=
  16 ≤ byteAt a 0 ∨ 48 ≤ byteAt a 2 ∨ (∃ e, EntryMalformed a e) ∨ ∃ k < byteAt a 24, StopMalformed a k

/-- The plan that well-formed operands of LOAD TOUR PLAN name, before the clamps. -/
structure NamesPlan (a : List Byte) (p : Plan) : Prop where
  guide : p.guide.val = byteAt a 2
  absent : ∀ e : Fin 4, byteAt a (4 + 5 * e.val) ≠ 1 → p.entries.get e = none
  present : ∀ e : Fin 4, byteAt a (4 + 5 * e.val) = 1 → ∃ x, p.entries.get e = some x ∧ NamesEntry a e x
  stops : p.route.length = byteAt a 24
  stop : ∀ k st, p.route[k]? = some st → NamesStop a k st
  requiredLevel : p.requiredLevel = if bitAt a 1 0 then 60 else byteAt a 3

theorem parsePlan_eq_none {a : List Byte} (h : PlanMalformed a) : parsePlan a = none := by
  unfold parsePlan
  rcases h with h | h | ⟨e, h⟩ | ⟨k, hk, h⟩
  · simp only [toId_eq_none.2 h]
  · simp only [toId_eq_none.2 h]
    split <;> simp_all
  · rw [allPresent_indices_eq_none (parseEntry_eq_none h)]
    split <;> simp_all
  · rw [allPresent_eq_none (l := (List.range (byteAt a 24)).map (parseStop a))
      (List.mem_map.2 ⟨k, List.mem_range.2 hk, parseStop_eq_none h⟩)]
    split <;> simp_all

theorem exists_parsePlan {a : List Byte} {slot : Fin 16} (hslot : byteAt a 0 = slot.val) (h : ¬ PlanMalformed a) :
    ∃ p, parsePlan a = some (slot, p) ∧ NamesPlan a p := by
  simp only [PlanMalformed, not_or, not_le, not_exists, not_and] at h
  obtain ⟨-, hguide, entries, stops⟩ := h
  choose g hg habsent hpresent using fun e => exists_parseEntry (entries e)
  have stop (k : Nat) : ∃ st, k < byteAt a 24 → parseStop a k = some st ∧ NamesStop a k st := by
    by_cases hk : k < byteAt a 24
    · exact (exists_parseStop (stops k hk)).imp fun _ hst _ => hst
    · exact ⟨⟨0, .fill 4 none⟩, fun hk' => absurd hk' hk⟩
  choose st hst using stop
  have parsed : parsePlan a = some (slot,
      { guide := ⟨_, hguide⟩, entries := Tab.ofFn fun e => (((indices 4).map g)[e.val]?).getD none
        route := (List.range (byteAt a 24)).map st, requiredLevel := orDefault (bitAt a 1 0) 60 (byteAt a 3) }) := by
    unfold parsePlan
    rw [allPresent_indices hg, toId_val slot hslot, toId_val (⟨_, hguide⟩ : Fin 48) rfl,
      allPresent_map fun k hk => (hst k (List.mem_range.1 hk)).1]
  refine ⟨_, parsed, rfl, fun e he => ?_, fun e he => ?_, by simp, fun k x hx => ?_, rfl⟩
  · exact (get_ofFn_parsed g none e).trans (habsent e he)
  · exact (hpresent e he).imp fun x hx => ⟨(get_ofFn_parsed g none e).trans hx.1, hx.2⟩
  · obtain ⟨hk, rfl⟩ := List.getElem?_eq_some_iff.1 hx
    rw [List.length_map, List.length_range] at hk
    rw [List.getElem_map, List.getElem_range]
    exact (hst k hk).2

/-! ### The consistency check (R63) -/

/-- Check 3 of R63, on the operand bytes. -/
def PlanInconsistent (a : List Byte) : Prop :=
  ¬ byteAt a 4 = 1 ∨
  (∃ e : Fin 4, e ≠ 0 ∧ byteAt a (4 + 5 * e.val) = 1 ∧ byteAt a (4 + 5 * e.val + 4) = 255) ∨
  (∃ e f : Fin 4, e ≠ f ∧ byteAt a (4 + 5 * e.val) = 1 ∧ byteAt a (4 + 5 * f.val) = 1 ∧
    byteAt a (4 + 5 * e.val + 2) = byteAt a (4 + 5 * f.val + 2)) ∨
  byteAt a 24 = 0 ∨ 24 < byteAt a 24 ∨
  ∃ k < byteAt a 24, ∃ e : Fin 4, ¬ byteAt a (4 + 5 * e.val) = 1 ∧ byteAt a (26 + 5 * k + e.val) ≠ 255

section
variable {a : List Byte} {p : Plan}

theorem NamesPlan.isSome_iff (h : NamesPlan a p) (e : Fin 4) :
    (p.entries.get e).isSome = true ↔ byteAt a (4 + 5 * e.val) = 1 := by
  by_cases he : byteAt a (4 + 5 * e.val) = 1
  · obtain ⟨x, hx, -⟩ := h.present e he
    simp [hx, he]
  · simp [h.absent e he, he]

theorem NamesPlan.entry (h : NamesPlan a p) {e : Fin 4} {x : Entry} (hx : p.entries.get e = some x) :
    byteAt a (4 + 5 * e.val) = 1 ∧ NamesEntry a e x := by
  have he := (h.isSome_iff e).1 (by rw [hx]; rfl)
  obtain ⟨y, hy, ny⟩ := h.present e he
  obtain rfl : x = y := Option.some_inj.1 (hx.symm.trans hy)
  exact ⟨he, ny⟩

theorem nodup_planEntries_iff : ((planEntries p).map fun x => x.2.program).Nodup ↔
    ∀ e f x y, p.entries.get e = some x → p.entries.get f = some y → x.program = y.program → e = f := by
  unfold planEntries
  rw [List.map_filterMap, nodup_filterMap_indices]
  simp only [Option.map_map, Option.map_eq_some_iff, Function.comp_apply]
  constructor
  · intro h e f x y hx hy hxy
    exact h e f _ ⟨x, hx, rfl⟩ ⟨y, hy, hxy.symm⟩
  · rintro h e f _ ⟨x, hx, rfl⟩ ⟨y, hy, hxy⟩
    exact h e f x y hx hy hxy.symm

/-- The model's check, clause by clause. -/
theorem planConsistent_iff : planConsistent p = true ↔ (p.entries.get 0).isSome = true ∧
    (∀ e x, p.entries.get e = some x → e = 0 ∨ x.interpreter.isSome = true) ∧
    (∀ e f x y, p.entries.get e = some x → p.entries.get f = some y → x.program = y.program → e = f) ∧
    1 ≤ p.route.length ∧ p.route.length ≤ 24 ∧
    ∀ st ∈ p.route, ∀ e, st.fallback.get e = none ∨ (p.entries.get e).isSome = true := by
  simp only [planConsistent, Bool.and_eq_true, List.all_eq_true, Bool.or_eq_true, decide_eq_true_eq,
    nodup_planEntries_iff, Prod.forall, mem_planEntries_iff, List.mem_finRange, true_implies, Option.isNone_iff_eq_none,
    and_assoc]

theorem NamesPlan.interpreter_isSome_iff (h : NamesPlan a p) {e : Fin 4} {x : Entry} (hx : p.entries.get e = some x) :
    e = 0 ∨ x.interpreter.isSome = true ↔ ¬ (e ≠ 0 ∧ byteAt a (4 + 5 * e.val + 4) = 255) := by
  have hi := (h.entry hx).2.interpreter
  by_cases he : e = 0
  · simp [he]
  · by_cases hb : byteAt a (4 + 5 * e.val + 4) = 255
    · simp only [he, hb, or_true, if_true, Option.map_eq_none_iff] at hi
      simp [he, hb, hi]
    · simp only [he, hb, or_self, if_false, Option.map_eq_some_iff] at hi
      obtain ⟨i, hi, -⟩ := hi
      simp [he, hb, hi]

theorem NamesPlan.fallback_eq_none_iff (h : NamesPlan a p) {k : Nat} {st : Stop} (hst : p.route[k]? = some st)
    (e : Fin 4) : st.fallback.get e = none ↔ byteAt a (26 + 5 * k + e.val) = 255 := by
  rw [← Option.map_eq_none_iff (f := Fin.val), (h.stop k st hst).fallback e]
  split <;> simp_all

/-- The check on the parsed plan is the one on the operand bytes. -/
theorem NamesPlan.consistent_iff (h : NamesPlan a p) : planConsistent p = true ↔ ¬ PlanInconsistent a := by
  rw [planConsistent_iff, PlanInconsistent]
  simp only [not_or, not_exists, not_and, not_not, h.stops]
  refine and_congr (h.isSome_iff 0) (and_congr ?_ (and_congr ?_ (and_congr (by omega) (and_congr (by omega) ?_))))
  · constructor
    · intro hi e he hp hb
      obtain ⟨x, hx, -⟩ := h.present e hp
      exact ((h.interpreter_isSome_iff hx).1 (hi e x hx)) ⟨he, hb⟩
    · intro hi e x hx
      exact (h.interpreter_isSome_iff hx).2 fun ⟨he, hb⟩ => hi e he (h.entry hx).1 hb
  · constructor
    · intro hd e f hne he hf hb
      obtain ⟨x, hx, nx⟩ := h.present e he
      obtain ⟨y, hy, ny⟩ := h.present f hf
      exact hne (hd e f x y hx hy (Fin.ext (by rw [nx.program, ny.program, hb])))
    · intro hd e f x y hx hy hxy
      by_contra hne
      refine hd e f hne (h.entry hx).1 (h.entry hy).1 ?_
      rw [← (h.entry hx).2.program, ← (h.entry hy).2.program, hxy]
  · constructor
    · intro hf k hk e he
      obtain ⟨st, hst⟩ : ∃ st, p.route[k]? = some st := ⟨_, List.getElem?_eq_getElem (by rw [h.stops]; exact hk)⟩
      exact (h.fallback_eq_none_iff hst e).1 ((hf st (List.mem_of_getElem? hst) e).resolve_right (mt (h.isSome_iff e).1 he))
    · intro hf st hst e
      obtain ⟨k, hst⟩ := List.mem_iff_getElem?.1 hst
      have hk : k < byteAt a 24 := h.stops ▸ (List.getElem?_eq_some_iff.1 hst).1
      by_cases he : byteAt a (4 + 5 * e.val) = 1
      · exact .inr ((h.isSome_iff e).2 he)
      · exact .inl ((h.fallback_eq_none_iff hst e).2 (hf k hk e he))

end

/-! ### The clamps (R64) -/

/-- The party of an entry, 0 where it is absent. -/
def partyOf (x : Option Entry) : Nat := (x.map Entry.party).getD 0

/-- Each party is clamped to 96 and to what the clamped parties before it leave. -/
theorem getElem?_clampParties (left : Nat) (l : List (Option Entry)) (i : Nat) : (clampParties left l)[i]? =
    l[i]?.map (Option.map fun x => { x with
      party := min (min x.party 96) (left - (((clampParties left l).take i).map partyOf).sum) }) := by
  induction l generalizing left i with
  | nil => simp [clampParties]
  | cons x rest ih =>
    cases x with
    | none => cases i <;> simp [clampParties, ih, partyOf]
    | some x => cases i <;> simp [clampParties, ih, partyOf, Nat.sub_sub, Config.entryLimit]

theorem length_clampParties (left : Nat) (l : List (Option Entry)) : (clampParties left l).length = l.length := by
  induction l generalizing left with
  | nil => rfl
  | cons x rest ih => cases x <;> simp [clampParties, ih]

/-- Parties stay as they are when each is at most 96 and all fit in what is left. -/
theorem clampParties_eq_self_iff {left : Nat} {l : List (Option Entry)} : clampParties left l = l ↔
    (∀ x, some x ∈ l → x.party ≤ 96) ∧ (l.map fun o => min (partyOf o) 96).sum ≤ left := by
  induction l generalizing left with
  | nil => simp [clampParties]
  | cons o rest ih =>
    cases o with
    | none => simp [clampParties, ih, partyOf]
    | some x =>
      have same : ({ x with party := min (min x.party 96) left } : Entry) = x ↔ x.party ≤ 96 ∧ x.party ≤ left := by
        cases x
        simp
      simp only [clampParties, Config.entryLimit, List.cons.injEq, Option.some_inj, same, ih, List.mem_cons, forall_eq_or_imp,
        List.map_cons, List.sum_cons, partyOf, Option.map_some, Option.getD_some]
      constructor
      · rintro ⟨⟨h96, hleft⟩, hrest, hsum⟩
        rw [min_eq_left h96, min_eq_left hleft] at hsum
        exact ⟨⟨h96, hrest⟩, by rw [min_eq_left h96]; omega⟩
      · rintro ⟨⟨h96, hrest⟩, hsum⟩
        rw [min_eq_left h96] at hsum ⊢
        have hleft : x.party ≤ left := by omega
        rw [min_eq_left hleft]
        exact ⟨⟨h96, hleft⟩, hrest, by omega⟩

theorem items_ofFn_getElem? {α : Type} {n : Nat} {l : List α} (h : l.length = n) (x : α) :
    (Tab.ofFn fun e : Fin n => (l[e.val]?).getD x).items = l := by
  subst h
  apply List.ext_getElem (by simp [Tab.ofFn])
  intro i h1 h2
  simp [Tab.ofFn]

theorem clampPlan_entries_items (p : Plan) : (clampPlan p).entries.items = clampParties 192 p.entries.items :=
  items_ofFn_getElem? ((length_clampParties _ _).trans p.entries.size_eq) none

theorem Tab.items_getElem? {α : Type} {n : Nat} (t : Tab α n) (i : Fin n) : t.items[i.val]? = some (t.get i) := by
  rw [Tab.get_eq]
  exact List.getElem?_eq_getElem _

theorem take_indices_four : ∀ e : Fin 4, (indices 4).take e.val = (indices 4).filter (· < e) := by decide

/-- Each entry of the clamped plan is the one named, with its party clamped. -/
theorem clampPlan_entries (p : Plan) (e : Fin 4) : (clampPlan p).entries.get e = (p.entries.get e).map fun x => { x with
    party := min (min x.party 96)
      (192 - (((indices 4).filter (· < e)).map fun f => partyOf ((clampPlan p).entries.get f)).sum) } := by
  have h := getElem?_clampParties 192 p.entries.items e.val
  rw [← clampPlan_entries_items, Tab.items_getElem?, Tab.items_getElem?, Option.map_some, Option.some_inj] at h
  rw [h, Tab.items_eq (clampPlan p).entries, ← List.map_take, take_indices_four, List.map_map]
  rfl

theorem clampPlan_ne_iff {p : Plan} : clampPlan p ≠ p ↔ 100 < p.requiredLevel ∨
    (∃ e x, p.entries.get e = some x ∧ 96 < x.party) ∨
    192 < ((indices 4).map fun e => min (partyOf (p.entries.get e)) 96).sum := by
  have fields : clampPlan p = p ↔ min p.requiredLevel 100 = p.requiredLevel ∧
      clampParties 192 p.entries.items = p.entries.items := by
    rw [← clampPlan_entries_items]
    constructor
    · intro h
      exact ⟨congrArg Plan.requiredLevel h, by rw [h]⟩
    · rintro ⟨hl, he⟩
      have entries : (clampPlan p).entries = p.entries := by
        cases hx : (clampPlan p).entries
        cases hy : p.entries
        simp_all
      have level : (clampPlan p).requiredLevel = p.requiredLevel := hl
      cases p
      cases hc : clampPlan _
      simp_all [clampPlan]
  have member {x : Entry} : some x ∈ p.entries.items ↔ ∃ e, p.entries.get e = some x := by
    rw [Tab.items_eq]
    simp
  rw [Ne, fields, clampParties_eq_self_iff, Tab.items_eq, List.map_map]
  simp only [← Tab.items_eq, member]
  have parties : (∀ x, (∃ e, p.entries.get e = some x) → x.party ≤ 96) ↔
      ¬ ∃ e x, p.entries.get e = some x ∧ 96 < x.party := by
    simp only [not_exists, not_and, not_lt, forall_exists_index]
    exact forall_comm
  rw [parties]
  have level : min p.requiredLevel 100 = p.requiredLevel ↔ ¬ 100 < p.requiredLevel := by omega
  rw [level, ← not_lt]
  simp only [Function.comp_def, not_and_or, not_not]

/-! ### The obligation -/

theorem planMalformed_iff {a : List Byte} : PlanMalformed a ↔
    16 ≤ byteAt a 0 ∨ 48 ≤ byteAt a 2 ∨ (∃ e : Fin 4, 1 < byteAt a (4 + 5 * e.val)) ∨
      (∃ e : Fin 4, byteAt a (4 + 5 * e.val) = 1 ∧ (16 ≤ byteAt a (4 + 5 * e.val + 1) ∨
        32 ≤ byteAt a (4 + 5 * e.val + 2) ∨ (e ≠ 0 ∧ ¬ SourceByte (byteAt a (4 + 5 * e.val + 4))))) ∨
      ∃ k < byteAt a 24, 12 ≤ byteAt a (25 + 5 * k) ∨ ∃ e : Fin 4, ¬ SourceByte (byteAt a (26 + 5 * k + e.val)) := by
  simp only [PlanMalformed, EntryMalformed, StopMalformed, exists_or, or_assoc]

/-- The tour slot that LOAD TOUR PLAN leaves (R64). -/
def plannedTour (p : Plan) (old : Tour) : Tour :=
  { plan := some p, timing := if old.live.phase = .free then some .reset else old.timing, live := plannedLive p old.live }

theorem loadTourPlan_badArgument {a : List Byte} (h : PlanMalformed a) : loadTourPlan a s = refuse .badArgument s := by
  simp only [loadTourPlan, parsePlan_eq_none h]

theorem loadTourPlan_eq {a : List Byte} {slot : Fin 16} {p : Plan} (h : parsePlan a = some (slot, p)) :
    loadTourPlan a s = if isRunning (s.tour slot) then refuse .wrongState s
      else if planConsistent p then answer (appliedStatus (decide (clampPlan p ≠ p)))
        (s.putTour slot (plannedTour (clampPlan p) (s.tour slot)))
      else refuse .badPlan s := by
  simp only [loadTourPlan, h, plannedTour]
  cases planConsistent p <;> rfl

/-- The clamped party that the operand bytes of entry `e` give. -/
def givenParty (a : List Byte) (e : Fin 4) : Nat :=
  if byteAt a (4 + 5 * e.val) = 1 then min (byteAt a (4 + 5 * e.val + 3)) 96 else 0

section
variable {a : List Byte} {p : Plan}

theorem NamesPlan.givenParty_eq (h : NamesPlan a p) (e : Fin 4) :
    min (partyOf (p.entries.get e)) 96 = givenParty a e := by
  unfold givenParty
  split
  next he =>
    obtain ⟨x, hx, nx⟩ := h.present e he
    simp [hx, partyOf, nx.party]
  next he => simp [h.absent e he, partyOf]

theorem NamesPlan.clamped_iff (h : NamesPlan a p) : clampPlan p ≠ p ↔
    100 < (if bitAt a 1 0 then 60 else byteAt a 3) ∨
      (∃ e : Fin 4, byteAt a (4 + 5 * e.val) = 1 ∧ 96 < byteAt a (4 + 5 * e.val + 3)) ∨
      192 < ((indices 4).map (givenParty a)).sum := by
  have parties : (∃ e x, p.entries.get e = some x ∧ 96 < x.party) ↔
      ∃ e : Fin 4, byteAt a (4 + 5 * e.val) = 1 ∧ 96 < byteAt a (4 + 5 * e.val + 3) := by
    refine exists_congr fun e => ⟨?_, ?_⟩
    · rintro ⟨x, hx, hp⟩
      exact ⟨(h.entry hx).1, (h.entry hx).2.party ▸ hp⟩
    · rintro ⟨he, hp⟩
      obtain ⟨x, hx, nx⟩ := h.present e he
      exact ⟨x, hx, nx.party ▸ hp⟩
  rw [clampPlan_ne_iff, parties, h.requiredLevel]
  simp only [h.givenParty_eq]

/-- A present entry of the clamped plan, by its operand bytes. -/
theorem NamesPlan.clamped_entry (h : NamesPlan a p) (consistent : ¬ PlanInconsistent a) {e : Fin 4}
    (he : byteAt a (4 + 5 * e.val) = 1) : ∃ x, (clampPlan p).entries.get e = some x ∧
      x.language = byteAt a (4 + 5 * e.val + 1) ∧ x.program.val = byteAt a (4 + 5 * e.val + 2) ∧
      x.interpreter.map Fin.val = (if e = 0 then none else some (byteAt a (4 + 5 * e.val + 4))) ∧
      x.party = min (givenParty a e) (192 - (((indices 4).filter (· < e)).map fun f =>
        (((clampPlan p).entries.get f).map Entry.party).getD 0).sum) := by
  obtain ⟨x, hx, nx⟩ := h.present e he
  refine ⟨_, (clampPlan_entries p e).trans (congrArg (Option.map _) hx), nx.language, nx.program, ?_, ?_⟩
  · refine nx.interpreter.trans ?_
    by_cases h0 : e = 0
    · simp [h0]
    · have hb : byteAt a (4 + 5 * e.val + 4) ≠ 255 := fun hb => consistent (.inr (.inl ⟨e, h0, he, hb⟩))
      simp [h0, hb]
  · rw [← h.givenParty_eq, hx]
    rfl

end

/-- Settles O33: malformed operands and inconsistent plans are refused; the plan that the others name is clamped, and the
slot follows it. -/
theorem tourPlanLoaded : Obligations.TourPlanLoaded := by
  intro s req h a refused n at_ present source level bad inconsistent given clamped
  have bad_iff : PlanMalformed a ↔ bad := planMalformed_iff
  refine ⟨fun hb => exec_serving (owner := loadTourPlan) rfl h (loadTourPlan_badArgument (bad_iff.2 hb)),
    fun hb slot hslot => ?_⟩
  obtain ⟨p, hp, np⟩ := exists_parsePlan hslot (mt bad_iff.1 hb)
  intro old running
  have running_iff : running ↔ isRunning (s.tour slot) = true := isRunning_iff.symm
  refine ⟨fun hr => ?_, fun hr hi => ?_, fun hr hi => ⟨s.putTour slot (plannedTour (clampPlan p) old), clampPlan p, ?_⟩⟩
  · exact exec_serving (owner := loadTourPlan) rfl h ((loadTourPlan_eq hp).trans (if_pos (running_iff.1 hr)))
  · exact exec_serving (owner := loadTourPlan) rfl h ((loadTourPlan_eq hp).trans ((if_neg (mt running_iff.2 hr)).trans
      (if_neg fun hc => np.consistent_iff.1 hc hi)))
  have clamped_iff : clampPlan p ≠ p ↔ clamped := np.clamped_iff
  have ran := exec_serving (c := .loadTourPlan) (owner := loadTourPlan) rfl h ((loadTourPlan_eq hp).trans
    ((if_neg (mt running_iff.2 hr)).trans (if_pos (np.consistent_iff.2 hi))))
  simp only [answer_status, answer_data, answer_state, appliedStatus, decide_eq_true_eq, clamped_iff] at ran
  have written : (s.putTour slot (plannedTour (clampPlan p) old)).tour slot = plannedTour (clampPlan p) old := by
    rw [State.putTour_tour, if_pos rfl]
  rw [written]
  refine ⟨fun hc => ran.trans (by rw [if_pos hc]), fun hc => ran.trans (by rw [if_neg hc]), rfl, np.guide,
    congrArg (min · 100) np.requiredLevel, fun e he => ?_, fun e he => np.clamped_entry hi he, np.stops, fun k st hst => ?_,
    fun hf => ?_, fun hpl => ?_, fun k hk => by rw [State.putTour_tour, if_neg hk], putTour_keeps .refl (by decide)⟩
  · rw [clampPlan_entries, np.absent e he, Option.map_none]
  · exact ⟨(np.stop k st hst).zone, (np.stop k st hst).fallback⟩
  · simp only [plannedTour, plannedLive, hf, if_true]
    exact ⟨rfl, trivial⟩
  · have notFree : old.live.phase ≠ .free := by rw [hpl]; decide
    simp only [plannedTour, plannedLive, notFree, if_false, lastStop]
    exact ⟨trivial, congrArg (fun k => { old.live with stop := min old.live.stop (k - 1) }) np.stops⟩

end Sys2Proof.Machine
end

section
/-! The reads: what each answers, and the obligation on them (R5, R39, R47, R60, R67, R108, R134, R138, R157, R187). -/

namespace Sys2Proof.Machine

open Sys2Proof

variable {s t : State}

/-- A read offers the fields its owner answers, and uses one free value (R181, log 18). -/
theorem exec_reading {c : Instr} {code : Nat} {owner : List Byte → State → Answer} {req : Request} {fields : List Field}
    (hc : exec c s = .next (serve code owner s)) (h : Serving s code req)
    (hx : owner (requestArgs req) s = readAnswer fields s) : exec c s = .next (offerReply
      (replyTo req .done (layoutFrom s.choices 0 fields)) (s.withChoices (s.choices + 1))) :=
  exec_serving hc h hx

/-! ### Bay addresses -/

@[simp] theorem rackOf_bayAddress (r : Fin 12) (b : Fin 24) : rackOf (bayAddress r b) = r := by
  apply Fin.ext
  simp only [rackOf, bayAddress]
  omega

@[simp] theorem bayNumber_bayAddress (r : Fin 12) (b : Fin 24) : bayNumber (bayAddress r b) = b := by
  apply Fin.ext
  simp only [bayNumber, bayAddress]
  omega

@[simp] theorem bayAddress_rackOf (a : Fin 288) : bayAddress (rackOf a) (bayNumber a) = a := by
  apply Fin.ext
  simp only [rackOf, bayNumber, bayAddress]
  omega

theorem bayAddress_inj {r r' : Fin 12} {b b' : Fin 24} : bayAddress r b = bayAddress r' b' ↔ r = r' ∧ b = b' := by
  constructor
  · intro h
    exact ⟨by rw [← rackOf_bayAddress r b, h, rackOf_bayAddress], by rw [← bayNumber_bayAddress r b, h, bayNumber_bayAddress]⟩
  · rintro ⟨rfl, rfl⟩
    rfl

/-! ### Encodings -/

theorem encFlag_eq (b : Bool) : encFlag b = if b then [1#8] else [0#8] := by
  cases b <;> rfl

/-- The saturating sum is the sum, saturated. -/
theorem satSum_eq (ns : List Nat) : satSum ns = min ns.sum 4294967295 := by
  have fold (acc : Nat) : ns.foldl satAdd (min acc 4294967295) = min (acc + ns.sum) 4294967295 := by
    induction ns generalizing acc with
    | nil => simp
    | cons n rest ih =>
      have step : satAdd (min acc 4294967295) n = min (acc + n) 4294967295 := by
        simp only [satAdd, Config.max32]
        omega
      rw [List.foldl_cons, step, ih, List.sum_cons, Nat.add_assoc]
  simpa [satSum] using fold 0

/-! ### The record a tag names -/

theorem findTag_eq_none {tag : RxTag} (h : ∀ h r, s.receiver h = some r → r.tag ≠ tag) : findTag tag s = none := by
  simp only [findTag, List.find?_eq_none]
  intro k _
  cases hk : s.receiver k with
  | none => simp
  | some r => simpa using h k r hk

theorem findTag_eq_some {tag : RxTag} {k : Fin 384} {r : Receiver} (hr : s.receiver k = some r) (ht : r.tag = tag)
    (unique : ∀ h r, s.receiver h = some r → r.tag = tag → h = k) : findTag tag s = some k := by
  simp only [findTag]
  cases hf : (indices 384).find? (fun h => match s.receiver h with
      | some r => decide (r.tag = tag)
      | none => false) with
  | none =>
    rw [List.find?_eq_none] at hf
    exact absurd (by simp [hr, ht]) (hf k (List.mem_finRange k))
  | some j =>
    have found := List.find?_some hf
    cases hj : s.receiver j with
    | none => simp [hj] at found
    | some x => rw [unique j x hj (by simpa [hj] using found)]

theorem tripleAt_lt (bs : List Byte) (i : Nat) : tripleAt bs i < 16777216 := by
  have := byteAt_lt bs i
  have := wordAt_lt bs (i + 1)
  unfold tripleAt
  omega

theorem tag_eq_ofNat_iff {tag : RxTag} {n : Nat} (h : n < 16777216) : tag = BitVec.ofNat 24 n ↔ tag.toNat = n := by
  constructor
  · rintro rfl
    simp only [BitVec.toNat_ofNat]
    omega
  · rintro rfl
    simp

/-! ### The owners' answers -/

section Owners
variable {a : List Byte}

theorem readSource_badArgument (h : 48 ≤ byteAt a 0) : readSource a s = refuse .badArgument s := by
  simp only [readSource, toId_eq_none.2 h]

theorem readSource_eq {id : Fin 48} (h : byteAt a 0 = id.val) : readSource a s = match s.source id with
    | none => refuse .notFound s
    | some r => readAnswer (sourceFields r) s := by
  simp only [readSource, toId_val id h] <;> rfl

theorem readProgram_badArgument (h : 32 ≤ byteAt a 0) : readProgram a s = refuse .badArgument s := by
  simp only [readProgram, toId_eq_none.2 h]

theorem readProgram_eq {id : Fin 32} (h : byteAt a 0 = id.val) : readProgram a s =
    if programLoaded (s.program id) then readAnswer (programFields s (s.program id)) s else refuse .notFound s := by
  simp only [readProgram, toId_val id h]

theorem readChannel_badArgument (h : 24 ≤ byteAt a 0) : readChannel a s = refuse .badArgument s := by
  simp only [readChannel, toId_eq_none.2 h]

theorem readChannel_eq {ch : Fin 24} (h : byteAt a 0 = ch.val) :
    readChannel a s = readAnswer (channelFields s (s.channel ch)) s := by
  simp only [readChannel, toId_val ch h]

theorem readZone_badArgument (h : 12 ≤ byteAt a 0) : readZone a s = refuse .badArgument s := by
  simp only [readZone, toId_eq_none.2 h]

theorem readZone_eq {z : Fin 12} (h : byteAt a 0 = z.val) : readZone a s = readAnswer (zoneFields s z) s := by
  simp only [readZone, toId_val z h]

theorem readTour_badArgument (h : 16 ≤ byteAt a 0) : readTour a s = refuse .badArgument s := by
  simp only [readTour, toId_eq_none.2 h]

theorem readTour_free {k : Fin 16} (h : byteAt a 0 = k.val) (hp : (s.tour k).live.phase = .free) :
    readTour a s = readAnswer [.known (enc8 0 ++ enc16 (s.tour k).live.run.toNat)] s := by
  simp only [readTour, toId_val k h, hp, TourState.code]

theorem readTour_planned {k : Fin 16} {p : Plan} (h : byteAt a 0 = k.val) (hp : (s.tour k).live.phase ≠ .free)
    (hplan : (s.tour k).plan = some p) : readTour a s =
      readAnswer (planFields p ++ timingFields (timingOf (s.tour k)) ++ liveFields (s.tour k).live) s := by
  simp only [readTour, toId_val k h, hplan]

theorem readRack_badArgument (h : 12 ≤ byteAt a 0) : readRack a s = refuse .badArgument s := by
  simp only [readRack, toId_eq_none.2 h]

theorem readRack_eq {r : Fin 12} (h : byteAt a 0 = r.val) : readRack a s = readAnswer
    (rackConfigFields (s.rack r).config ++ rackLiveFields s (s.rack r).live ++ schedFields s (s.sched r)) s := by
  simp only [readRack, toId_val r h]

theorem readBay_badArgument (h : 288 ≤ wordAt a 0) : readBay a s = refuse .badArgument s := by
  simp only [readBay, toId_eq_none.2 h]

theorem readBay_eq {r : Fin 12} {n : Fin 24} (h : wordAt a 0 = r.val * 24 + n.val) :
    readBay a s = readAnswer (bayFields s (bayAddress r n) (s.bay (bayAddress r n))) s := by
  simp only [readBay, toId_val (bayAddress r n) h]

theorem readReceiver_badArgument
    (h : 1 < byteAt a 0 ∨ (byteAt a 0 = 0 ∧ 384 ≤ tripleAt a 1) ∨ (byteAt a 0 = 1 ∧ tripleAt a 1 = 0)) :
    readReceiver a s = refuse .badArgument s := by
  have named : namedReceiver a s = .error .badArgument := by
    unfold namedReceiver
    rcases h with h | ⟨h0, h⟩ | ⟨h1, h⟩
    · rw [if_neg (by omega), if_neg (by omega)]
    · rw [if_pos h0, toId_eq_none.2 h]
    · rw [if_neg (by omega), if_pos h1, if_pos h]
  simp only [readReceiver, named]

theorem readReceiver_absent {h : Fin 384} (h0 : byteAt a 0 = 0) (hn : tripleAt a 1 = h.val) (hr : s.receiver h = none) :
    readReceiver a s = refuse .notFound s := by
  simp only [readReceiver, namedReceiver, h0, if_true, toId_val h hn, hr]

theorem readReceiver_noTag (h1 : byteAt a 0 = 1) (hn : tripleAt a 1 ≠ 0)
    (ht : ∀ h r, s.receiver h = some r → r.tag.toNat ≠ tripleAt a 1) : readReceiver a s = refuse .notFound s := by
  have none : findTag (BitVec.ofNat 24 (tripleAt a 1)) s = none :=
    findTag_eq_none fun h r hr => mt (tag_eq_ofNat_iff (tripleAt_lt a 1)).1 (ht h r hr)
  simp only [readReceiver, namedReceiver, h1, one_ne_zero, if_false, if_true, hn, none]

theorem readReceiver_found {h : Fin 384} {r : Receiver} (hr : s.receiver h = some r)
    (named : byteAt a 0 = 0 ∧ tripleAt a 1 = h.val ∨ byteAt a 0 = 1 ∧ tripleAt a 1 = r.tag.toNat ∧ r.tag ≠ 0#24 ∧
      ∀ h' r', s.receiver h' = some r' → r'.tag = r.tag → h' = h) :
    readReceiver a s = readAnswer (receiverFields h r) s := by
  have found : namedReceiver a s = .ok h := by
    unfold namedReceiver
    rcases named with ⟨h0, hn⟩ | ⟨h1, hn, ht, unique⟩
    · rw [if_pos h0, toId_val h hn]
    · have tag : BitVec.ofNat 24 (tripleAt a 1) = r.tag := by rw [hn]; simp
      have nonzero : tripleAt a 1 ≠ 0 := fun hz => ht (by rw [← tag, hz])
      rw [if_neg (by omega), if_pos h1, if_neg nonzero, tag, findTag_eq_some hr rfl unique]
  simp only [readReceiver, found, hr]

end Owners

/-- Settles O28: each owner's answer is its record's fields, which are those the statement writes out. -/
theorem readsChangeNothing : Obligations.ReadsChangeNothing := by
  refine ⟨fun _ _ => rfl, fun _ _ _ _ => rfl, fun _ _ _ _ => rfl, ?_⟩
  intro s req a refused told one two three four signed flag optional named left
  have flag_eq : flag = encFlag := funext fun b => (encFlag_eq b).symm
  have optional_eq : optional = optField := funext fun n => funext fun x => by cases x <;> rfl
  have named_eq {n : Nat} (x : Option (Fin n)) : named (x.map Fin.val) = optId x := by cases x <;> rfl
  have answered {c : Instr} {code : Nat} {owner : List Byte → State → Answer} {fs gs : List Field}
      (hc : exec c s = .next (serve code owner s)) (h : Serving s code req) (hx : owner a s = readAnswer fs s)
      (hf : fs = gs) : exec c s = told gs := hf ▸ exec_reading hc h hx
  refine ⟨fun h => ⟨fun hb => exec_serving (owner := readSource) rfl h (readSource_badArgument hb), fun id hid => ⟨fun hn => ?_,
      fun r hr => ?_⟩⟩, fun h => ⟨fun hb => exec_serving (owner := readProgram) rfl h (readProgram_badArgument hb),
      fun id hid => ?_⟩, fun h => ⟨fun hb => exec_serving (owner := readChannel) rfl h (readChannel_badArgument hb),
      fun ch hch => ?_⟩, fun h => ⟨fun hb => exec_serving (owner := readZone) rfl h (readZone_badArgument hb),
      fun z hz => ?_⟩, fun h => ⟨fun hb => exec_serving (owner := readTour) rfl h (readTour_badArgument hb),
      fun k hk => ?_⟩, fun h => ?_, fun h => ⟨fun hb => exec_serving (owner := readRack) rfl h (readRack_badArgument hb),
      fun r hr => ?_⟩, fun h => ⟨fun hb => exec_serving (owner := readBay) rfl h (readBay_badArgument hb),
      fun r n hn => ?_⟩, fun h => ?_, fun h => ?_, fun h => ?_⟩
  · exact exec_serving (owner := readSource) (x := refuse .notFound s) rfl h ((readSource_eq hid).trans (by rw [hn]))
  · refine answered (owner := readSource) (fs := sourceFields r) rfl h ((readSource_eq hid).trans (by rw [hr])) ?_
    simp only [sourceFields, sourceConfigFields, opt16, opt8, Option.map_map, flag_eq, optional_eq]
    rfl
  · intro p record
    refine ⟨fun hn => exec_serving (owner := readProgram) rfl h ((readProgram_eq hid).trans
      (if_neg fun hl => programLoaded_iff.1 hl hn)), fun hl => answered (owner := readProgram) rfl h
      ((readProgram_eq hid).trans (if_pos (programLoaded_iff.2 hl))) ?_⟩
    have record_eq : record = recordFields := funext fun x => by
      cases x with
      | none => rfl
      | some x => simp only [record, recordFields, optional_eq]; rfl
    simp only [programFields, record_eq, optional_eq, flag_eq, named_eq]
    rfl
  · intro c owner
    refine answered (owner := readChannel) rfl h (readChannel_eq hch) ?_
    have owner_eq : owner = match c.phase, c.program with
        | .tour, some p => (s.program p).owner
        | _, _ => none := by
      simp only [owner]
      cases c.phase <;> cases c.program <;> rfl
    simp only [channelFields, flag_eq, optional_eq, named_eq, owner_eq]
    rfl
  · intro channels
    exact answered (owner := readZone) rfl h (readZone_eq hz) rfl
  · intro l
    refine ⟨fun hf => answered (owner := readTour) rfl h (readTour_free hk hf) rfl, fun p hp hplan => ?_⟩
    intro time
    refine answered (owner := readTour) rfl h (readTour_planned hk hp hplan) ?_
    simp only [planFields, timingFields, liveFields, opt16, opt32, optional_eq, named_eq]
    rfl
  · intro n
    refine ⟨fun hb => exec_serving (owner := readReceiver) rfl h (readReceiver_badArgument hb), fun hn => ?_,
      fun k r hr hk => ?_⟩
    · refine exec_serving (owner := readReceiver) (x := refuse .notFound s) rfl h ?_
      rcases hn with ⟨k, h0, hk, hr⟩ | ⟨h1, hn, ht⟩
      · exact readReceiver_absent h0 hk hr
      · exact readReceiver_noTag h1 hn ht
    · refine answered (owner := readReceiver) rfl h (readReceiver_found hr hk) ?_
      have field_eq {n : Nat} (f : TourRef → Fin n) : named (r.tour.map fun x => (f x).val) = optId (r.tour.map f) := by
        rw [← named_eq, Option.map_map]
        rfl
      simp only [receiverFields, opt16, opt8, opt32, Option.map_map, flag_eq, optional_eq, field_eq]
      rfl
  · intro c l k q
    refine answered (owner := readRack) rfl h (readRack_eq hr) ?_
    simp only [rackConfigFields, rackLiveFields, schedFields, opt16, opt8, opt32, Option.map_map, flag_eq, optional_eq, named_eq]
    rfl
  · intro b assigned mode
    refine answered (owner := readBay) rfl h (readBay_eq hn) ?_
    have assigned_eq : assigned = encAssign := funext fun x => by
      cases x with
      | none => rfl
      | some y => simp only [assigned, encAssign, flag_eq]; rfl
    have mode_eq : mode = fun m => enc8 m.code := funext fun m => by cases m <;> rfl
    have turn : turnOn s (rackOf (bayAddress r n)) (bayNumber (bayAddress r n)) =
        (s.sched r).active.find? fun x => decide (x.bay = n) := by
      rw [rackOf_bayAddress, bayNumber_bayAddress]
      rfl
    simp only [bayFields, opt16, opt8, opt32, Option.map_map, flag_eq, optional_eq, assigned_eq, mode_eq, turn]
    cases b.presence <;> rfl
  · refine answered (owner := readThermalTable) rfl h rfl ?_
    rfl
  · refine (exec_serving (owner := readIdentity) rfl h rfl).trans ?_
    simp only [readIdentity, identityBytes]
    cases s.mge.mode <;> rfl
  · intro total sources racks scheds c
    refine (exec_serving (owner := readCounters) rfl h rfl).trans ?_
    have sources_eq : sources = sourceSum s := funext fun f => by
      simp only [sources, total, sourceSum, satSum_eq, Tab.items_eq, List.map_map]
      congr 3
      funext i
      simp only [Function.comp_apply, State.source]
      cases s.siu.sources.get i <;> rfl
    have racks_eq : racks = rackSum s := funext fun f => by
      simp only [racks, total, rackSum, satSum_eq, Tab.items_eq, List.map_map]
      rfl
    have scheds_eq : scheds = schedSum s := funext fun f => by
      simp only [scheds, total, schedSum, satSum_eq, Tab.items_eq, List.map_map]
      rfl
    have clipped_eq : total ((indices 32).map fun p => (s.program p).clipped) =
        satSum (s.mxr.programs.items.map Program.clipped) := by
      simp only [total, satSum_eq, Tab.items_eq, List.map_map]
      rfl
    rw [sources_eq, racks_eq, scheds_eq, clipped_eq]
    rfl

end Sys2Proof.Machine
end

section
/-! Arriving frames: the envelope and its checks, the operand form of rack frames, and the obligations on them
(R112, R160 to R163, R169). -/

namespace Sys2Proof.Machine

open Sys2Proof

variable {s t : State}

/-! ### The envelope (Table 8-1, R160) -/

theorem byteAt_append_left {xs ys : List Byte} {i : Nat} (h : i < xs.length) : byteAt (xs ++ ys) i = byteAt xs i := by
  simp only [byteAt, List.getD_eq_getElem?_getD, List.getElem?_append_left h]

theorem wordAt_enc16 {n : Nat} (h : n < 65536) : wordAt (enc16 n) 0 = n := by
  simp only [wordAt, byteAt, enc16, List.getD_cons_zero, List.getD_cons_succ, BitVec.toNat_ofNat]
  omega

/-- The header of a frame. -/
def frameHeader (dest source : Station) (kind : Byte) (len : Nat) : List Byte :=
  enc16 dest.toNat ++ enc16 source.toNat ++ [kind, 0x10#8] ++ enc16 len

theorem frameBytes_eq (dest source : Station) (kind : Byte) (payload : List Byte) :
    frameBytes dest source kind payload = frameHeader dest source kind payload.length ++ payload ++
      crcBytes (crc (frameHeader dest source kind payload.length ++ payload)) := rfl

theorem length_frameHeader (dest source : Station) (kind : Byte) (len : Nat) :
    (frameHeader dest source kind len).length = 8 := rfl

section Envelope
variable {dest source : Station} {kind : Byte} {payload : List Byte}

theorem length_frameBytes : (frameBytes dest source kind payload).length = 12 + payload.length := by
  simp only [frameBytes_eq, List.length_append, length_frameHeader, crcBytes, List.length_cons, List.length_nil]
  omega

theorem byteAt_frameBytes {i : Nat} (h : i < 8) :
    byteAt (frameBytes dest source kind payload) i = byteAt (frameHeader dest source kind payload.length) i := by
  rw [frameBytes_eq, List.append_assoc]
  exact byteAt_append_left (by rwa [length_frameHeader])

theorem wordAt_frameBytes {i : Nat} (h : i + 1 < 8) :
    wordAt (frameBytes dest source kind payload) i = wordAt (frameHeader dest source kind payload.length) i := by
  unfold wordAt
  rw [byteAt_frameBytes (by omega), byteAt_frameBytes h]

theorem take_frameBytes : (frameBytes dest source kind payload).take (8 + payload.length) =
    frameHeader dest source kind payload.length ++ payload := by
  rw [frameBytes_eq]
  exact List.take_left' (by rw [List.length_append, length_frameHeader])

theorem drop_frameBytes : (frameBytes dest source kind payload).drop (8 + payload.length) =
    crcBytes (crc (frameHeader dest source kind payload.length ++ payload)) := by
  rw [frameBytes_eq]
  exact List.drop_left' (by rw [List.length_append, length_frameHeader])

theorem payload_frameBytes : ((frameBytes dest source kind payload).drop 8).take payload.length = payload := by
  rw [frameBytes_eq, List.append_assoc, List.drop_left' (length_frameHeader ..), List.take_left' rfl]

theorem wordAt_header_length (h : payload.length ≤ 1400) :
    wordAt (frameBytes dest source kind payload) 6 = payload.length :=
  (wordAt_frameBytes (by decide)).trans (wordAt_enc16 (by omega))

theorem wordAt_header_dest : wordAt (frameBytes dest source kind payload) 0 = dest.toNat :=
  (wordAt_frameBytes (by decide)).trans (wordAt_enc16 dest.isLt)

theorem wordAt_header_source : wordAt (frameBytes dest source kind payload) 2 = source.toNat :=
  (wordAt_frameBytes (by decide)).trans (wordAt_enc16 source.isLt)

theorem byteAt_header_kind : byteAt (frameBytes dest source kind payload) 4 = kind.toNat := byteAt_frameBytes (by decide)

theorem byteAt_header_version : byteAt (frameBytes dest source kind payload) 5 = 16 := byteAt_frameBytes (by decide)

/-- A frame built by the envelope rules passes the checks before its kind is judged (R161). -/
theorem judgeFrame_frameBytes {station : Station} {k : IngressKind} (hp : payload.length ≤ 1400)
    (hd : dest = station ∨ dest = 0x0FF0#16) (hk : ingressKind kind.toNat = some k) :
    judgeFrame station (frameBytes dest source kind payload) = .accepted k source payload := by
  have address : ¬ (dest.toNat ≠ station.toNat ∧ dest.toNat ≠ Config.groupAddress.toNat) := by
    rcases hd with rfl | rfl <;> simp [Config.groupAddress]
  unfold judgeFrame
  simp only [wordAt_header_length hp, length_frameBytes, take_frameBytes, drop_frameBytes, wordAt_header_dest,
    wordAt_header_source, byteAt_header_kind, byteAt_header_version, hk, payload_frameBytes, BitVec.ofNat_toNat,
    BitVec.setWidth_eq]
  rw [if_neg (by omega), if_neg (by simp [Config.maxPayload]; omega), if_neg (by simp), if_neg address, if_neg (by decide)]

end Envelope

/-- Settles O14, by the code of each ingress kind. -/
theorem envelopeRoundTrip : Obligations.EnvelopeRoundTrip := by
  intro station dest source kind payload hp hd
  cases kind <;> exact judgeFrame_frameBytes hp hd (by decide)

/-! ### The checks (R161) -/

theorem exec_frameRejected_dropped {frame : List Byte} {why : Drop} (hl : s.hli.linkUp = true)
    (hj : judgeFrame s.hli.station frame = .dropped why) :
    exec (.frameRejected frame) s = .next (s.withHli { s.hli with counters := countDrop why s.hli.counters }) := by
  have run : arrive frame s = s.putLinkCounters (countDrop why s.hli.counters) := by
    simp only [arrive, hl, if_true, hj]
  exact congrArg Host.Outcome.next run

theorem exec_frameRejected_accepted {frame : List Byte} {kind : IngressKind} {source : Station} {payload : List Byte}
    (h : Arrives s frame kind source payload) :
    exec (.frameRejected frame) s = .next (dispatchFrame kind source payload (countReceived s)) :=
  congrArg Host.Outcome.next (arrive_accepted h)

theorem ingressKind_eq_none {n : Nat} (h : n ∉ [0x01, 0x11, 0x12, 0x20]) : ingressKind n = none := by
  simp only [List.mem_cons, List.not_mem_nil, or_false, not_or] at h
  obtain ⟨h1, h2, h3, h4⟩ := h
  simp only [ingressKind, if_neg h1, if_neg h2, if_neg h3, if_neg h4]

/-- The code of an ingress kind (Table 8-2). -/
def ingressCode : IngressKind → Nat
  | .audioUp => 0x01 | .bayStatus => 0x11 | .dockNotice => 0x12 | .mgmtRequest => 0x20

theorem exists_ingressKind {n : Nat} (h : n ∈ [0x01, 0x11, 0x12, 0x20]) :
    ∃ kind, ingressKind n = some kind ∧ n = ingressCode kind := by
  simp only [List.mem_cons, List.not_mem_nil, or_false] at h
  rcases h with rfl | rfl | rfl | rfl
  exacts [⟨.audioUp, rfl, rfl⟩, ⟨.bayStatus, rfl, rfl⟩, ⟨.dockNotice, rfl, rfl⟩, ⟨.mgmtRequest, rfl, rfl⟩]

/-! ### Rack frames (R112, R163) -/

theorem findRack_eq_none {station : Station}
    (h : ∀ r, (s.rack r).config.enabled = true → (s.rack r).config.station ≠ station) : findRack station s = none := by
  simp only [findRack, List.find?_eq_none, Bool.and_eq_true, decide_eq_true_eq, not_and]
  exact fun r _ => h r

theorem findRack_eq_some {station : Station} {rack : Fin 12} (h : FrameOfRack s station rack) :
    findRack station s = some rack := by
  obtain ⟨⟨he, hs⟩, unique⟩ := h
  cases hf : findRack station s with
  | none =>
    simp only [findRack, List.find?_eq_none, Bool.and_eq_true, decide_eq_true_eq, not_and] at hf
    exact absurd hs (hf rack (List.mem_finRange rack) he)
  | some r =>
    have found := List.find?_some hf
    simp only [Bool.and_eq_true, decide_eq_true_eq] at found
    rw [unique r found.1 found.2]

theorem modeOfCode_eq_none {n : Nat} (h : 2 < n) : modeOfCode n = none := by
  simp [modeOfCode, show n ≠ 0 by omega, show n ≠ 1 by omega, show n ≠ 2 by omega]

theorem shownByStatus_eq_none {p n : Nat} (h : 1 < p ∨ (p = 1 ∧ n = 0)) : shownByStatus p n = none := by
  unfold shownByStatus
  rw [if_neg (by omega), if_neg (by omega)]

theorem assignOfCodes_eq_none {c l : Nat} (h : (24 ≤ c ∧ c ≠ 255) ∨ (c ≠ 255 ∧ 1 < l)) : assignOfCodes c l = none := by
  unfold assignOfCodes
  rw [if_neg (by omega)]
  rcases h with ⟨h, -⟩ | ⟨-, h⟩
  · rw [toId_eq_none.2 h]
  · split
    · rfl
    · rw [if_neg (by omega), if_neg (by omega)]

theorem parseReading_eq_none {n : Nat} {payload : List Byte}
    (h : 24 ≤ byteAt payload 0 ∨ 1 < byteAt payload 1 ∨ (byteAt payload 1 = 1 ∧ tripleAt payload 2 = 0) ∨
      2 < byteAt payload 8 ∨ (24 ≤ byteAt payload 9 ∧ byteAt payload 9 ≠ 255) ∨
      (byteAt payload 9 ≠ 255 ∧ 1 < byteAt payload 10)) : parseReading n payload = none := by
  have field : toId 24 (byteAt payload 0) = none ∨ shownByStatus (byteAt payload 1) (tripleAt payload 2) = none ∨
      modeOfCode (byteAt payload 8) = none ∨ assignOfCodes (byteAt payload 9) (byteAt payload 10) = none := by
    rcases h with h | h | h | h | h
    exacts [.inl (toId_eq_none.2 h), .inr (.inl (shownByStatus_eq_none (.inl h))),
      .inr (.inl (shownByStatus_eq_none (.inr h))), .inr (.inr (.inl (modeOfCode_eq_none h))),
      .inr (.inr (.inr (assignOfCodes_eq_none h)))]
  unfold parseReading
  split
  · simp_all
  · rfl

/-- Settles O13: the model's checks are the statement's, in the same order. -/
theorem arrivingFrameChecked : Obligations.ArrivingFrameChecked := by
  refine ⟨fun s frame hl => ?_, fun s frame => ⟨rfl, rfl, rfl, rfl⟩, fun s frame station payload => ?_⟩
  · intro len c up dropped
    have drop {why : Drop} (hj : judgeFrame s.hli.station frame = .dropped why) :
        exec (.frameRejected frame) s = dropped (countDrop why c) := exec_frameRejected_dropped hl hj
    by_cases h1 : frame.length < 12
    · rw [if_pos h1]
      exact drop (why := .length) (by simp only [judgeFrame, if_pos h1])
    rw [if_neg h1]
    by_cases h2 : frame.length ≠ 12 + len ∨ 1400 < len
    · rw [if_pos h2]
      exact drop (why := .length) ((if_neg h1).trans (if_pos h2))
    rw [if_neg h2]
    by_cases h3 : frame.drop (8 + len) ≠ crcBytes (crc (frame.take (8 + len)))
    · rw [if_pos h3]
      exact drop (why := .crc) ((if_neg h1).trans ((if_neg h2).trans (if_pos h3.symm)))
    rw [if_neg h3]
    have h3' := mt Ne.symm h3
    by_cases h4 : wordAt frame 0 ≠ s.hli.station.toNat ∧ wordAt frame 0 ≠ 0x0FF0
    · rw [if_pos h4]
      exact drop (why := .notAddressed) ((if_neg h1).trans ((if_neg h2).trans ((if_neg h3').trans (if_pos h4))))
    rw [if_neg h4]
    by_cases h5 : byteAt frame 5 / 16 ≠ 1
    · rw [if_pos h5]
      exact drop (why := .version)
        ((if_neg h1).trans ((if_neg h2).trans ((if_neg h3').trans ((if_neg h4).trans (if_pos h5)))))
    rw [if_neg h5]
    have judged : judgeFrame s.hli.station frame = match ingressKind (byteAt frame 4) with
        | none => .dropped .kind
        | some k => .accepted k (BitVec.ofNat 16 (wordAt frame 2)) ((frame.drop 8).take len) :=
      (if_neg h1).trans ((if_neg h2).trans ((if_neg h3').trans ((if_neg h4).trans (if_neg h5))))
    by_cases h6 : byteAt frame 4 ∉ [0x01, 0x11, 0x12, 0x20]
    · rw [if_pos h6]
      exact drop (why := .kind) (by rw [judged, ingressKind_eq_none h6])
    · rw [if_neg h6]
      obtain ⟨kind, hk, hcode⟩ := exists_ingressKind (not_not.1 h6)
      exact ⟨kind, hcode.trans (by cases kind <;> rfl),
        exec_frameRejected_accepted (kind := kind) ⟨hl, by rw [judged, hk]⟩⟩
  · intro up c taken unrouted judged
    have unroutedRack (h : unrouted) : findRack station (countReceived s) = none := findRack_eq_none h
    constructor
    · intro h
      have run : exec (.bayStatus frame) s = .next (dispatchFrame .bayStatus station payload (countReceived s)) :=
        exec_frameRejected_accepted h
      refine ⟨fun hlen => ?_, fun hlen hu => ?_, fun rack hlen hr hbad => ?_⟩
      · rw [run]
        simp only [dispatchFrame, if_neg hlen]
        rfl
      · rw [run]
        simp only [dispatchFrame, if_pos hlen, takeStatus, unroutedRack hu]
        rfl
      · rw [run]
        simp only [dispatchFrame, if_pos hlen, takeStatus, findRack_eq_some (s := countReceived s) hr,
          parseReading_eq_none hbad]
        rfl
    · intro h
      have run : exec (.dockNotice frame) s = .next (dispatchFrame .dockNotice station payload (countReceived s)) :=
        exec_frameRejected_accepted h
      refine ⟨fun hlen => ?_, fun hlen hu => ?_, fun rack hlen hr hbad => ?_⟩
      · rw [run]
        simp only [dispatchFrame, if_neg hlen]
        rfl
      · rw [run]
        simp only [dispatchFrame, if_pos hlen, takeNotice, unroutedRack hu]
        rfl
      · rw [run]
        simp only [dispatchFrame, if_pos hlen, takeNotice, findRack_eq_some (s := countReceived s) hr,
          toId_eq_none.2 hbad]
        rfl

end Sys2Proof.Machine
end

section
/-! The rack sender and frames that count as placed: the order of R132, what the sender does while the link is UP and while
it is DOWN, and the obligations on LINK_DOWN and on placed frames (R116, R132, R164, R165). -/

namespace Sys2Proof.Machine

open Sys2Proof

variable {s t : State}

/-! ### First items of ordered lists -/

/-- In a list ordered by `R` the item found is the first that the predicate holds of. -/
theorem find?_eq_some_of_first {α : Type} {l : List α} {R : α → α → Prop} {p : α → Bool} {b : α}
    (hl : l.Pairwise R) (hb : b ∈ l) (hp : p b = true) (first : ∀ x ∈ l, p x = true → ¬ R x b) : l.find? p = some b := by
  induction l with
  | nil => simp at hb
  | cons y rest ih =>
    obtain ⟨hy, hrest⟩ := List.pairwise_cons.1 hl
    rcases List.mem_cons.1 hb with rfl | hm
    · simp [hp]
    · have : ¬ p y = true := fun hpy => first y (by simp) hpy (hy b hm)
      rw [List.find?_cons_of_neg this]
      exact ih hrest hm fun x hx => first x (by simp [hx])

theorem findSome?_eq_some_of_first {α β : Type} {l : List α} {R : α → α → Prop} {f : α → Option β} {b : α} {c : β}
    (hl : l.Pairwise R) (hb : b ∈ l) (hc : f b = some c) (first : ∀ x ∈ l, (f x).isSome = true → ¬ R x b) :
    l.findSome? f = some c := by
  induction l with
  | nil => simp at hb
  | cons y rest ih =>
    obtain ⟨hy, hrest⟩ := List.pairwise_cons.1 hl
    rcases List.mem_cons.1 hb with rfl | hm
    · simp [hc]
    · have none : f y = none := Option.not_isSome_iff_eq_none.1 fun hs => first y (by simp) hs (hy b hm)
      rw [List.findSome?_cons, none]
      exact ih hrest hm fun x hx => first x (by simp [hx])

/-! ### The turn order (R132) -/

section Order
variable {n : Nat}

theorem mem_afterLast (last i : Fin n) : i ∈ afterLast last := by
  simp only [afterLast, List.mem_append, List.mem_filter, List.mem_finRange, true_and, decide_eq_true_eq]
  exact lt_or_ge last i

/-- The place of a number in the turn order. -/
def turnPlace (last i : Fin n) : Nat := (i.val + (n - 1) - last.val) % n

theorem turnPlace_of_lt {last i : Fin n} (h : last < i) : turnPlace last i = i.val - last.val - 1 := by
  have : i.val + (n - 1) - last.val = i.val - last.val - 1 + n := by omega
  rw [turnPlace, this, Nat.add_mod_right, Nat.mod_eq_of_lt (by omega)]

theorem turnPlace_of_le {last i : Fin n} (h : i ≤ last) : turnPlace last i = i.val + (n - 1) - last.val :=
  Nat.mod_eq_of_lt (by omega)

theorem pairwise_finRange_lt (n : Nat) : (indices n).Pairwise (· < ·) := by
  rw [show indices n = List.ofFn id from (List.ofFn_id n).symm, List.pairwise_ofFn]
  exact fun i j h => h

theorem pairwise_afterLast (last : Fin n) :
    (afterLast last).Pairwise fun i j => turnPlace last i < turnPlace last j := by
  unfold afterLast
  rw [List.pairwise_append]
  refine ⟨?_, ?_, fun i hi j hj => ?_⟩
  · refine ((pairwise_finRange_lt n).filter _).imp_of_mem fun {i j} hi hj hij => ?_
    simp only [List.mem_filter, decide_eq_true_eq] at hi hj
    rw [turnPlace_of_lt hi.2, turnPlace_of_lt hj.2]
    omega
  · refine ((pairwise_finRange_lt n).filter _).imp_of_mem fun {i j} hi hj hij => ?_
    simp only [List.mem_filter, decide_eq_true_eq] at hi hj
    rw [turnPlace_of_le hi.2, turnPlace_of_le hj.2]
    omega
  · simp only [List.mem_filter, decide_eq_true_eq] at hi hj
    rw [turnPlace_of_lt hi.2, turnPlace_of_le hj.2]
    omega

end Order

/-! ### The bay served next -/

theorem nextBay_eq_none_iff {r : Fin 12} : nextBay s r = none ↔ ∀ b, (s.bay (bayAddress r b)).pending = false := by
  simp [nextBay, List.find?_eq_none, mem_afterLast]

theorem nextServed_eq_none_iff : nextServed s = none ↔
    ∀ r b, (s.rack r).live.phase = .online → (s.bay (bayAddress r b)).pending = false := by
  simp only [nextServed, List.findSome?_eq_none_iff]
  constructor
  · intro h r b ho
    have hr := h r (mem_afterLast _ r)
    rw [if_pos ho, Option.map_eq_none_iff, nextBay_eq_none_iff] at hr
    exact hr b
  · intro h r _
    split
    next ho => rw [nextBay_eq_none_iff.2 fun b => h r b ho, Option.map_none]
    next => rfl

theorem nextBay_eq_some {r : Fin 12} {b : Fin 24} (hb : (s.bay (bayAddress r b)).pending = true)
    (first : ∀ b', (s.bay (bayAddress r b')).pending = true →
      turnPlace (s.rpl.lastBay.get r) b ≤ turnPlace (s.rpl.lastBay.get r) b') : nextBay s r = some b :=
  find?_eq_some_of_first (pairwise_afterLast _) (mem_afterLast _ b) hb fun x _ hx => Nat.not_lt.2 (first x hx)

theorem nextServed_eq_some {r : Fin 12} {b : Fin 24} (hr : (s.rack r).live.phase = .online)
    (hb : (s.bay (bayAddress r b)).pending = true)
    (first : ∀ r' b', (s.rack r').live.phase = .online → (s.bay (bayAddress r' b')).pending = true →
      turnPlace s.rpl.lastRack r ≤ turnPlace s.rpl.lastRack r' ∧
      (r' = r → turnPlace (s.rpl.lastBay.get r) b ≤ turnPlace (s.rpl.lastBay.get r) b')) :
    nextServed s = some (r, b) := by
  refine findSome?_eq_some_of_first (pairwise_afterLast _) (mem_afterLast _ r) (c := (r, b)) ?_ fun x _ hx => ?_
  · rw [if_pos hr, nextBay_eq_some hb fun b' hb' => (first r b' hr hb').2 rfl]
    rfl
  · by_cases ho : (s.rack x).live.phase = .online
    · rw [if_pos ho, Option.isSome_map] at hx
      obtain ⟨b', hb'⟩ : ∃ b', (s.bay (bayAddress x b')).pending = true := by
        by_contra hn
        rw [not_exists] at hn
        rw [nextBay_eq_none_iff.2 fun b' => Bool.eq_false_iff.2 (hn b')] at hx
        cases hx
      exact Nat.not_lt.2 (first x b' ho hb').1
    · rw [if_neg ho] at hx
      cases hx

/-- The bay that the sender takes is one that it may serve. -/
theorem nextServed_spec {r : Fin 12} {b : Fin 24} (h : nextServed s = some (r, b)) :
    (s.rack r).live.phase = .online ∧ (s.bay (bayAddress r b)).pending = true := by
  obtain ⟨r', -, hr'⟩ := List.exists_of_findSome?_eq_some h
  split at hr'
  · next ho =>
    rw [Option.map_eq_some_iff] at hr'
    obtain ⟨b', hb', heq⟩ := hr'
    obtain ⟨rfl, rfl⟩ := Prod.mk.inj heq
    exact ⟨ho, List.find?_some (p := fun b => (s.bay (bayAddress r' b)).pending) hb'⟩
  · cases hr'

/-! ### The sender at work -/

theorem runSender_of_holds (n : Nat) (h : s.rpl.senderHolds = true) : runSender n s = s := by
  cases n with
  | zero => rfl
  | succ n => rw [runSender, if_pos h]

theorem runSender_of_none (n : Nat) (h : nextServed s = none) : runSender n s = s := by
  cases n with
  | zero => rfl
  | succ n => rw [runSender, h, ite_self]

theorem runSender_of_some {r : Fin 12} {b : Fin 24} (n : Nat) (hs : s.rpl.senderHolds = false)
    (h : nextServed s = some (r, b)) : runSender (n + 1) s = runSender n (sendCommand r b s) := by
  rw [runSender, if_neg (by simp [hs]), h]

theorem rackSender_of_holds (h : s.rpl.senderHolds = true) : rackSender s = s := runSender_of_holds _ h

theorem rackSender_of_none (h : nextServed s = none) : rackSender s = s := runSender_of_none _ h

/-- The sender's part of a BAY COMMAND, before the frame is handed over. -/
def buildCommand (r : Fin 12) (b : Fin 24) (s : State) : State :=
  let t := s.putBay (bayAddress r b) { s.bay (bayAddress r b) with pending := false }
  t.withRpl { t.rpl with senderHolds := true, lastRack := r, lastBay := t.rpl.lastBay.set r b }

/-- The BAY COMMAND of a bay as its desired state stands (Table 8-6). -/
def commandFrame (r : Fin 12) (b : Fin 24) (s : State) : EgressFrame :=
  { dest := (s.rack r).config.station, origin := .bayCommand, payload := commandPayload b (s.bay (bayAddress r b)) }

theorem sendCommand_eq (r : Fin 12) (b : Fin 24) (s : State) :
    sendCommand r b s = handOver (commandFrame r b s) (buildCommand r b s) := rfl

theorem buildCommand_bay (r : Fin 12) (b : Fin 24) (s : State) (a : Fin 288) : (buildCommand r b s).bay a =
    if a = bayAddress r b then { s.bay a with pending := false } else s.bay a := by
  refine (State.putBay_bay s (bayAddress r b) a _).trans ?_
  split
  next h => rw [h]
  next => rfl

theorem sendCommand_linkUp {r : Fin 12} {b : Fin 24} (h : s.hli.linkUp = true) : sendCommand r b s =
    (buildCommand r b s).withHli (startPlacing (enqueue (commandFrame r b s) s.hli)) :=
  handOver_linkUp (s := buildCommand r b s) h

/-- While the link is DOWN the frame is discarded, and the sender holds none (R164). -/
theorem sendCommand_linkDown {r : Fin 12} {b : Fin 24} (h : s.hli.linkUp = false) : sendCommand r b s =
    (countDiscard (buildCommand r b s)).withRpl { (buildCommand r b s).rpl with senderHolds := false } := by
  have down : (buildCommand r b s).hli.linkUp = false := h
  rw [sendCommand_eq, handOver, down]
  rfl

/-- Over a link that is UP the sender builds one frame and then holds it (R132). -/
theorem rackSender_linkUp {r : Fin 12} {b : Fin 24} (hs : s.rpl.senderHolds = false) (hn : nextServed s = some (r, b))
    (hl : s.hli.linkUp = true) : rackSender s = sendCommand r b s := by
  have holds : (sendCommand r b s).rpl.senderHolds = true := by rw [sendCommand_linkUp hl]; rfl
  rw [rackSender, runSender_of_some 288 hs hn, runSender_of_holds 288 holds]

/-- What the sender does to the arbiter while the link is DOWN: it discards what it builds (R164). -/
theorem runSender_linkDown_hli (n : Nat) : ∀ s : State, s.hli.linkUp = false → ∃ d,
    (runSender n s).hli = { s.hli with counters := { s.hli.counters with discards := d } } ∧
    ∀ m, min m 4294967295 ≤ s.hli.counters.discards → min m 4294967295 ≤ d := by
  induction n with
  | zero => exact fun s _ => ⟨_, rfl, fun _ h => h⟩
  | succ n ih =>
    intro s hl
    cases hs : s.rpl.senderHolds with
    | true => exact ⟨_, by rw [runSender_of_holds _ hs], fun _ h => h⟩
    | false =>
      cases hn : nextServed s with
      | none => exact ⟨_, by rw [runSender_of_none _ hn], fun _ h => h⟩
      | some x =>
        rw [runSender_of_some n hs hn]
        obtain ⟨d, hd, hm⟩ := ih (sendCommand x.1 x.2 s) (by rw [sendCommand_linkDown hl]; exact hl)
        rw [sendCommand_linkDown hl] at hd hm ⊢
        refine ⟨d, hd, fun m h => hm m ?_⟩
        change min m 4294967295 ≤ min (s.hli.counters.discards + 1) 4294967295
        omega

/-! ### Frames that count as placed (R165) -/

/-- The arbiter once the frame being placed has been placed. -/
def placedHli (f : EgressFrame) (s : State) : Hli := startPlacing { s.hli with
  placing := none
  counters := { s.hli.counters with transmitted := satAdd s.hli.counters.transmitted 1 }
  lineOut := some (wireBytes s.hli.station f) }

theorem completePlacing_eq (f : EgressFrame) (s : State) :
    completePlacing f s = tellSender f.origin (s.withHli (placedHli f s)) := rfl

theorem heldFrames_of_placing {f : EgressFrame} (h : s.hli.placing = some f) :
    heldFrames s.hli = f :: (s.hli.class1 ++ s.hli.class2 ++ s.hli.class3) := by
  simp [heldFrames, h]

/-- What placing a frame leaves of the arbiter. -/
theorem placedHli_spec {f : EgressFrame} (h : s.hli.placing = some f) (hl : s.hli.linkUp = true) :
    heldFrames (placedHli f s) = (heldFrames s.hli).tail ∧
    (placedHli f s).placing = (heldFrames s.hli).tail.head? ∧
    (placedHli f s).counters =
      { s.hli.counters with transmitted := min (s.hli.counters.transmitted + 1) 4294967295 } ∧
    (placedHli f s).lineOut = some (wireBytes s.hli.station f) := by
  have held : heldFrames (placedHli f s) = (heldFrames s.hli).tail := by
    rw [heldFrames_of_placing h, placedHli, heldFrames_startPlacing]
    rfl
  refine ⟨held, ?_, startPlacing_counters _, startPlacing_lineOut _⟩
  rw [← held]
  refine (placing_startPlacing _ ?_).trans (congrArg List.head? (heldFrames_startPlacing _).symm)
  exact hl

theorem placedWhen_of_kind {f : EgressFrame} {kind : Origin → Bool} (h : s.hli.placing = some f)
    (hk : kind f.origin = true) : placedWhen kind s = tellSender f.origin (s.withHli (placedHli f s)) := by
  simp only [placedWhen, h, hk, if_true, completePlacing_eq]

/-- Settles O15: the frame leaves the arbiter, and only a POLL that still counts tells its rack. -/
theorem placedFrameLeavesArbiter : Obligations.PlacedFrameLeavesArbiter := by
  intro s f hp hl c
  obtain ⟨held, placing, counters, line⟩ := placedHli_spec hp hl
  constructor
  · intro hf
    have told : exec .framePlaced s = .next (s.withHli (placedHli f s)) := by
      change Host.Outcome.next (placedWhen _ s) = _
      rw [placedWhen_of_kind hp (by rcases hf with ⟨ch, hf⟩ | hf | hf <;> rw [hf])]
      rcases hf with ⟨ch, hf⟩ | hf | hf <;> rw [hf] <;> rfl
    exact ⟨_, told, held, placing, counters, line,
      withEgress_keeps .refl (startPlacing_station _) (startPlacing_linkUp _) (by decide)⟩
  · intro r b valid hf
    have told : exec .pollPlaced s = .next (if valid then pollOutstanding r b (s.withHli (placedHli f s))
        else s.withHli (placedHli f s)) := by
      change Host.Outcome.next (placedWhen _ s) = _
      rw [placedWhen_of_kind hp (by rw [hf]), hf]
      rfl
    have kept : KeepsAllBut [.egress, .rackLives] s (s.withHli (placedHli f s)) :=
      withEgress_keeps .refl (startPlacing_station _) (startPlacing_linkUp _) (by decide)
    cases valid with
    | false => exact ⟨_, told, held, placing, counters, line, rfl, fun _ _ => rfl, kept⟩
    | true =>
      refine ⟨_, told, held, placing, counters, line, ?_, fun r' hr => ?_, putRackLive_keeps kept (by decide)⟩
      · simp only [if_true, pollOutstanding, State.putRackLive, State.putRack_rack_self]
        rfl
      · simp only [if_true, pollOutstanding, State.putRackLive, State.putRack_rack, if_neg hr]
        rfl

theorem commandPayload_eq (b : Fin 24) (x : Bay) : commandPayload b x =
    [BitVec.ofNat 8 b.val, (match x.mode with | .off => 0#8 | .trickle => 1#8 | .fast => 2#8)] ++
      (match x.assign with
        | none => [0xFF#8, 0#8]
        | some y => [BitVec.ofNat 8 y.channel.val, if y.lamp then 1#8 else 0#8]) := by
  unfold commandPayload encAssign enc8 encFlag enc8
  cases x.mode <;> cases x.assign with
  | none => rfl
  | some y => cases hy : y.lamp <;> simp [hy, ChargeMode.code]

/-- The state in which a BAY COMMAND has been placed and the sender holds none. -/
def commandPlaced (f : EgressFrame) (s : State) : State :=
  (s.withHli (placedHli f s)).withRpl { s.rpl with senderHolds := false }

/-- Settles O16: the frame leaves the arbiter, and the sender serves the first pending bay in its turn. -/
theorem bayCommandPlacedBuildsNext : Obligations.BayCommandPlacedBuildsNext := by
  intro s f hp hf hl
  obtain ⟨held, -, -, -⟩ := placedHli_spec hp hl
  have run : exec .bayCommandPlaced s = .next (rackSender (commandPlaced f s)) := by
    change Host.Outcome.next (rackSender (placedWhen _ s)) = _
    rw [placedWhen_of_kind hp (by rw [hf]; rfl), hf]
    rfl
  have kept : KeepsAllBut [.egress, .sender] s (commandPlaced f s) :=
    tellSender_keeps (o := .bayCommand)
      (withEgress_keeps .refl (startPlacing_station _) (startPlacing_linkUp _) (by decide)) (by decide)
  refine ⟨fun hnone => ?_, fun r b hr hb first => ?_⟩
  · rw [run, rackSender_of_none (s := commandPlaced f s) (nextServed_eq_none_iff.2 hnone)]
    exact ⟨_, rfl, rfl, held, rfl, rfl, rfl, kept⟩
  · have next : nextServed (commandPlaced f s) = some (r, b) := nextServed_eq_some hr hb first
    have up : (commandPlaced f s).hli.linkUp = true := (startPlacing_linkUp _).trans hl
    rw [run, rackSender_linkUp rfl next up]
    refine ⟨_, rfl, by rw [sendCommand_linkUp up]; rfl, by rw [sendCommand_linkUp up]; rfl,
      by rw [sendCommand_linkUp up]; rfl, fun a => ?_, fun g => ?_, ?_⟩
    · rw [sendCommand_linkUp up]
      exact buildCommand_bay r b (commandPlaced f s) a
    · rw [sendCommand_eq, mem_heldFrames_handOver (s := buildCommand r b (commandPlaced f s)) up]
      change g = commandFrame r b (commandPlaced f s) ∨ g ∈ heldFrames (placedHli f s) ↔ _
      rw [held, or_comm, commandFrame, commandPayload_eq]
      rfl
    · exact sendCommand_keeps (kept.mono (by decide)) (by decide) (by decide) (by decide)

/-! ### LINK_DOWN (R164) -/

theorem discardFrame_hli (f : EgressFrame) (s : State) : (discardFrame f s).hli =
    { s.hli with counters := { s.hli.counters with discards := min (s.hli.counters.discards + 1) 4294967295 } } := by
  unfold discardFrame tellSender
  split
  · split <;> rfl
  all_goals rfl

theorem discardFrame_clock (f : EgressFrame) (s : State) : (discardFrame f s).clock = s.clock := by
  unfold discardFrame tellSender
  split
  · split <;> rfl
  all_goals rfl

/-- Discarding frames counts each and changes nothing else of the arbiter. -/
theorem discardFrames_hli (fs : List EgressFrame) : ∀ s : State, ∃ d,
    (forEach fs discardFrame s).hli = { s.hli with counters := { s.hli.counters with discards := d } } ∧
    min (s.hli.counters.discards + fs.length) 4294967295 ≤ d ∧
    (s.hli.counters.discards ≤ 4294967295 → d = min (s.hli.counters.discards + fs.length) 4294967295) := by
  induction fs with
  | nil => exact fun s => ⟨_, rfl, Nat.min_le_left _ _, fun h => (min_eq_left h).symm⟩
  | cons f rest ih =>
    intro s
    obtain ⟨d, hd, hle, heq⟩ := ih (discardFrame f s)
    rw [discardFrame_hli] at hd hle heq
    refine ⟨d, hd, ?_, fun h => ?_⟩
    · simp only [List.length_cons] at hle ⊢
      omega
    · rw [heq (Nat.min_le_right _ _)]
      simp only [List.length_cons]
      omega

theorem discardFrame_rackLive (f : EgressFrame) (s : State) (r : Fin 12) : ((discardFrame f s).rack r).live =
    match f.origin with
    | .poll r' b true => if r' = r then { (s.rack r).live with waiting := none, outstanding := some ⟨b, s.clock.now + 20⟩ }
        else (s.rack r).live
    | _ => (s.rack r).live := by
  unfold discardFrame tellSender
  cases f.origin with
  | poll r' b valid =>
    cases valid with
    | false => rfl
    | true =>
      simp only [if_true, pollOutstanding, State.putRackLive, State.putRack_rack, eq_comm (a := r)]
      by_cases h : r' = r
      · subst h; simp only [if_true]; rfl
      · simp only [if_neg h]; rfl
  | _ => rfl

theorem told_subset (o : Origin) : told o ⊆ [.egress, .rackLives, .sender] := by
  cases o <;> simp [told]

theorem discardFrames_keeps (fs : List EgressFrame) (s : State) :
    KeepsAllBut [.egress, .rackLives, .sender] s (forEach fs discardFrame s) :=
  forEach_keeps (fun f _ k => discardFrame_keeps k (by decide) (told_subset f.origin)) .refl

theorem discardFrames_phase (r : Fin 12) (fs : List EgressFrame) : ∀ s : State,
    ((forEach fs discardFrame s).rack r).live.phase = (s.rack r).live.phase := by
  induction fs with
  | nil => exact fun _ => rfl
  | cons f rest ih =>
    intro s
    refine (ih (discardFrame f s)).trans ?_
    rw [discardFrame_rackLive]
    repeat' split
    all_goals rfl

/-- Of the POLLs of a rack among the discarded frames the last counts as placed. -/
theorem discardFrames_rackLive (r : Fin 12) (fs : List EgressFrame) : ∀ s : State,
    ((∀ b, ∀ f ∈ fs, f.origin ≠ .poll r b true) → ((forEach fs discardFrame s).rack r).live = (s.rack r).live) ∧
    ((∃ b, ∃ f ∈ fs, f.origin = .poll r b true) → ((forEach fs discardFrame s).rack r).live.waiting = none ∧
      ∃ b, (∃ f ∈ fs, f.origin = .poll r b true) ∧
        ((forEach fs discardFrame s).rack r).live.outstanding = some ⟨b, s.clock.now + 20⟩) := by
  induction fs with
  | nil => exact fun s => ⟨fun _ => rfl, fun ⟨_, f, hf, _⟩ => absurd hf (by simp)⟩
  | cons f rest ih =>
    intro s
    obtain ⟨hnone, hsome⟩ := ih (discardFrame f s)
    rw [discardFrame_clock] at hsome
    change ((∀ b, ∀ g ∈ f :: rest, g.origin ≠ .poll r b true) →
      ((forEach rest discardFrame (discardFrame f s)).rack r).live = (s.rack r).live) ∧ ((∃ b, ∃ g ∈ f :: rest, _) →
      ((forEach rest discardFrame (discardFrame f s)).rack r).live.waiting = none ∧ ∃ b, (∃ g ∈ f :: rest, _) ∧
        ((forEach rest discardFrame (discardFrame f s)).rack r).live.outstanding = _)
    constructor
    · intro h
      rw [hnone fun b g hg => h b g (by simp [hg]), discardFrame_rackLive]
      have hf := fun b => h b f (by simp)
      split
      · rename_i r' b heq
        exact if_neg fun e : r' = r => hf b (e ▸ heq)
      · rfl
    · intro h
      by_cases hrest : ∃ b, ∃ g ∈ rest, g.origin = .poll r b true
      · obtain ⟨hw, b, ⟨g, hg, ho⟩, hout⟩ := hsome hrest
        exact ⟨hw, b, ⟨g, by simp [hg], ho⟩, hout⟩
      · obtain ⟨b, g, hg, ho⟩ := h
        rcases List.mem_cons.1 hg with rfl | hg
        · rw [hnone fun b' g' hg' ho' => hrest ⟨b', g', hg', ho'⟩, discardFrame_rackLive, ho]
          simp only [if_true]
          exact ⟨trivial, b, ⟨g, by simp, ho⟩, rfl⟩
        · exact absurd ⟨b, g, hg, ho⟩ hrest

/-- The link is DOWN and its arbiter empty, before what it held is discarded. -/
def emptiedLink (s : State) : State := s.withHli { s.hli with
  linkUp := false, placing := none, class1 := [], class2 := [], class3 := []
  counters := { s.hli.counters with linkDowns := satAdd s.hli.counters.linkDowns 1 } }

/-- Settles O12: every held frame is discarded and counted, and what the sender then builds is discarded too. -/
theorem linkDownDiscardsHeldFrames : Obligations.LinkDownDiscardsHeldFrames := by
  intro s
  refine ⟨fun hl => ?_, fun hl => ?_⟩
  · have none (frame : List Byte) : arrive frame s = s := by simp [arrive, hl]
    refine ⟨by simp [exec, execLinkDown, hl], fun frame => ?_⟩
    simp only [exec, execFrameRejected, execAudioUp, execBayStatus, execDockNotice, execMgmtRequest, none, and_self]
  · let u := forEach (heldFrames s.hli) discardFrame (emptiedLink s)
    have run : exec .linkDown s = .next (rackSender u) := by
      change Host.Outcome.next (if s.hli.linkUp then dropLink s else s) = _
      rw [if_pos hl]
      rfl
    have kept : KeepsAllBut [.link, .egress, .rackLives, .bays, .sender] s (rackSender u) :=
      dropLink_keeps .refl (by decide) (by decide) (by decide) (by decide) (by decide)
    obtain ⟨d, hd, hle, heq⟩ := discardFrames_hli (heldFrames s.hli) (emptiedLink s)
    have down : u.hli.linkUp = false := congrArg Hli.linkUp hd
    obtain ⟨e, he, hm⟩ := runSender_linkDown_hli 289 u down
    have hli : (rackSender u).hli = { (emptiedLink s).hli with counters :=
        { (emptiedLink s).hli.counters with discards := e } } := he.trans (by rw [show u.hli = _ from hd])
    have lives (r : Fin 12) : ((rackSender u).rack r).live = (u.rack r).live :=
      rackSender_keeps (s := u) (ps := [.bays, .sender, .egress]) .refl (by decide) (by decide) (by decide) .rackLives
        (by decide) r
    have polls (r : Fin 12) := discardFrames_rackLive r (heldFrames s.hli) (emptiedLink s)
    rw [run]
    refine ⟨_, rfl, congrArg Hli.linkUp hli, by rw [hli]; rfl, by rw [hli]; rfl, ?_, fun hmax hno => ?_, fun r b hb => ?_,
      fun r hr => (lives r).trans ((polls r).1 hr), kept⟩
    · rw [hli]
      exact hm _ (by rw [show u.hli = _ from hd]; exact hle)
    · have idle : rackSender u = u := rackSender_of_none (nextServed_eq_none_iff.2 fun r b ho => ?_)
      · rw [idle, show u.hli = _ from hd]
        exact heq hmax
      · rw [(discardFrames_keeps (heldFrames s.hli) (emptiedLink s)).bay_eq (by decide)]
        exact hno r b ((discardFrames_phase r _ (emptiedLink s)).symm.trans ho)
    · rw [lives r]
      exact (polls r).2 ⟨b, hb⟩

end Sys2Proof.Machine
end

section
/-! The Level Curve (R129), passes over a table whose records raise events in ascending order, the hub time and its due
deadlines (R185, R107), and the sources at a mix point (R10 to R16). -/

namespace Sys2Proof.Machine

open Sys2Proof

variable {s t u : State}

/-! ### The Level Curve (R129) -/

theorem levelFrom_of_reached {a : CurvePoint} {v : Nat} {rest : List CurvePoint} (h : ∀ x ∈ rest, x.mv ≤ v) :
    levelFrom a v rest = ((a :: rest).getLast (by simp)).percent := by
  induction rest generalizing a with
  | nil => rfl
  | cons b rest ih =>
    have hb : ¬ v < b.mv := by have := h b (by simp); omega
    rw [levelFrom, if_neg hb, ih fun x hx => h x (by simp [hx]), List.getLast_cons_cons]

/-- On an ascending curve the segment that holds the voltage gives the level. -/
theorem levelFrom_of_segment {a : CurvePoint} {v : Nat} {rest : List CurvePoint} {x y : CurvePoint} {i : Nat}
    (hs : (a :: rest).Pairwise fun p q => p.mv < q.mv) (hx : (a :: rest)[i]? = some x) (hy : rest[i]? = some y)
    (h1 : x.mv ≤ v) (h2 : v < y.mv) : levelFrom a v rest = interpolate x y v := by
  induction rest generalizing a i with
  | nil => simp at hy
  | cons b rest ih =>
    obtain ⟨-, hrest⟩ := List.pairwise_cons.1 hs
    cases i with
    | zero =>
      obtain rfl : a = x := by simpa using hx
      obtain rfl : b = y := by simpa using hy
      rw [levelFrom, if_pos h2]
    | succ i =>
      have hx' : (b :: rest)[i]? = some x := by simpa using hx
      have hb : b.mv ≤ x.mv := by
        rcases List.mem_cons.1 (List.mem_of_getElem? hx') with rfl | hm
        · exact le_rfl
        · exact (List.rel_of_pairwise_cons hrest hm).le
      rw [levelFrom, if_neg (by omega)]
      exact ih hrest hx' (by simpa using hy)

/-- Settles O21: the level of a cell voltage, by the place of the voltage among the points. -/
theorem levelInterpolates : Obligations.LevelInterpolates := by
  unfold Obligations.LevelInterpolates
  intro curve ascending v
  obtain ⟨a, rest, hitems⟩ : ∃ a rest, curve.items = a :: rest := by
    cases h : curve.items with
    | nil => exact absurd (h ▸ curve.size_eq) (by simp)
    | cons a rest => exact ⟨a, rest, rfl⟩
  have at_ (i : Fin 8) : (a :: rest)[i.val]? = some (curve.get i) := hitems ▸ Tab.items_getElem? curve i
  have first : a = curve.get 0 := by simpa using at_ 0
  have len : rest.length = 7 := by simpa [hitems] using curve.size_eq
  have sorted : (a :: rest).Pairwise fun p q => p.mv < q.mv := by
    rw [← hitems, Tab.items_eq, List.pairwise_map]
    exact (pairwise_finRange_lt 8).imp fun h => ascending _ _ h
  have level : levelOf curve v = if v ≤ a.mv then a.percent else levelFrom a v rest := by
    rw [levelOf, hitems]
  refine ⟨fun low => ?_, fun high => ?_, fun i low high => ?_⟩
  · rw [level, first, if_pos low]
  · have last : (a :: rest).getLast (by simp) = curve.get 7 := by
      have := at_ 7
      rw [List.getLast_eq_getElem, ← Option.some_inj, ← this, ← List.getElem?_eq_getElem]
      simp [len]
    have below (x : CurvePoint) (hx : x ∈ rest) : x.mv ≤ v := by
      obtain ⟨i, hi⟩ := List.mem_iff_get.1 (hitems ▸ List.mem_cons_of_mem a hx : x ∈ curve.items)
      have hget : curve.get (i.cast curve.size_eq) = x := hi
      rcases lt_or_eq_of_le (Fin.le_last (i.cast curve.size_eq) : _ ≤ (7 : Fin 8)) with h | h
      · exact hget ▸ (ascending _ _ h).le.trans high
      · exact hget ▸ h ▸ high
    have h07 := ascending 0 7 (by decide)
    rw [level, if_neg (by rw [first]; omega), levelFrom_of_reached below, last]
  · have h0 : a.mv ≤ (curve.get i.castSucc).mv := by
      rcases eq_or_lt_of_le (Fin.zero_le i.castSucc) with h | h
      · rw [← h, first]
      · rw [first]; exact (ascending _ _ h).le
    have seg : levelFrom a v rest = interpolate (curve.get i.castSucc) (curve.get i.succ) v :=
      levelFrom_of_segment (i := i.val) sorted (at_ i.castSucc) (by simpa using at_ i.succ) low high
    by_cases hv : v ≤ a.mv
    · have he : v - (curve.get i.castSucc).mv = 0 := by omega
      have hi : curve.get i.castSucc = a := by
        rcases eq_or_lt_of_le (Fin.zero_le i.castSucc) with h | h
        · rw [← h, first]
        · have := ascending _ _ h
          rw [← first] at this
          omega
      rw [level, if_pos hv, he, Nat.mul_zero, Nat.zero_mul, Nat.zero_add, Nat.div_eq_of_lt (by omega), hi, Nat.add_zero]
    · rw [level, if_neg hv, seg, interpolate]

end Sys2Proof.Machine
end

section
/-! Passes over a table whose records raise events in ascending order, and the hub time with its due deadlines (R185,
R107). -/

namespace Sys2Proof.Machine

open Sys2Proof

variable {s t u : State} {es : List EventRecord}

/-! ### Events -/

/-- Only the Event Queue of the first state counts. -/
theorem EventsTaken.of_evq (h : EventsTaken es s t) (he : u.evq = s.evq) : EventsTaken es u t := by
  unfold EventsTaken at *
  rw [he]
  exact h

/-- Only the Event Queue of the last state counts. -/
theorem EventsTaken.to_evq (h : EventsTaken es s t) (he : u.evq = t.evq) : EventsTaken es s u := by
  unfold EventsTaken at *
  rw [he]
  exact h

/-- An event raised in a state with the same queue and hub time. -/
theorem EventsTaken.raise_of_evq {k : EventKind} {n d time : Nat} {r : Option (BitVec 16)} (he : t.evq = s.evq)
    (hm : t.mge.hubTime = time) : EventsTaken [⟨k, time, n, r, d⟩] s (raiseEvent k n r d t) :=
  hm ▸ (EventsTaken.raise k n r d t).of_evq he.symm

theorem KeepsAllBut.mge_eq {ps : List Part} (k : KeepsAllBut ps s t) (hr : Part.requests ∉ ps) (hm : Part.mode ∉ ps)
    (ht : Part.hubTime ∉ ps) (hs : Part.settings ∉ ps) : t.mge = s.mge := by
  obtain ⟨h1, h2, h3, h4, h5⟩ := k .requests hr
  have h6 : t.mge.mode = s.mge.mode := k .mode hm
  have h7 : t.mge.hubTime = s.mge.hubTime := k .hubTime ht
  have h8 : t.mge.settings = s.mge.settings := k .settings hs
  cases ht : t.mge
  simp_all

/-! ### Passes over a table -/

/-- What a pass does at one index, in the states that meet `I`: the record there is changed by `step`, no other record
changes, and the event of the record, if any, is raised. -/
structure PassStep {n : Nat} {α : Type} (get : State → Fin n → α) (I : State → Prop) (step : Fin n → α → α)
    (event : Fin n → α → Option EventRecord) (i : Fin n) (s t : State) : Prop where
  inv : I t
  here : get t i = step i (get s i)
  elsewhere : ∀ j, j ≠ i → get t j = get s j
  events : EventsTaken (event i (get s i)).toList s t
  enables : t.evq.enables = s.evq.enables

section Pass
variable {n : Nat} {α : Type} {get : State → Fin n → α} {I : State → Prop} {step : Fin n → α → α}
  {event : Fin n → α → Option EventRecord} {f : Fin n → State → State}

theorem forEach_pass_of_nodup (hf : ∀ i u, I u → PassStep get I step event i u (f i u)) {is : List (Fin n)}
    (nodup : is.Nodup) (hI : I s) :
    (∀ i, get (forEach is f s) i = if i ∈ is then step i (get s i) else get s i) ∧
    EventsTaken (is.filterMap fun i => event i (get s i)) s (forEach is f s) ∧ I (forEach is f s) ∧
    (forEach is f s).evq.enables = s.evq.enables := by
  induction is generalizing s with
  | nil => exact ⟨fun i => by simp [forEach], EventsTaken.nil, hI, rfl⟩
  | cons a rest ih =>
    obtain ⟨ha, hrest⟩ := List.nodup_cons.1 nodup
    have one := hf a s hI
    obtain ⟨records, events, inv, enables⟩ := ih hrest one.inv
    refine ⟨fun i => ?_, ?_, inv, enables.trans one.enables⟩
    · rw [show get (forEach (a :: rest) f s) i = get (forEach rest f (f a s)) i from rfl, records i]
      by_cases h : i = a
      · subst h
        simp [ha, one.here]
      · simp [h, one.elsewhere i h]
    · have same : rest.filterMap (fun i => event i (get (f a s) i)) = rest.filterMap fun i => event i (get s i) :=
        List.filterMap_congr fun i hi => by rw [one.elsewhere i fun h => ha (h ▸ hi)]
      have split : (a :: rest).filterMap (fun i => event i (get s i)) =
          (event a (get s a)).toList ++ rest.filterMap fun i => event i (get s i) := by
        rw [List.filterMap_cons]
        cases event a (get s a) <;> rfl
      rw [split]
      exact one.events.append (same ▸ events) one.enables

/-- A pass over a whole table. -/
theorem forEach_pass (hf : ∀ i u, I u → PassStep get I step event i u (f i u)) (hI : I s) :
    (∀ i, get (forEach (indices n) f s) i = step i (get s i)) ∧
    EventsTaken ((indices n).filterMap fun i => event i (get s i)) s (forEach (indices n) f s) ∧
    I (forEach (indices n) f s) := by
  obtain ⟨records, events, inv, -⟩ := forEach_pass_of_nodup hf (List.nodup_finRange n) hI
  exact ⟨fun i => by simpa using records i, events, inv⟩

end Pass

/-! ### Due deadlines (R107) -/

/-- A DUE record whose deadline a time has reached. -/
def deadlineReached (time : Nat) (r : Receiver) : Bool :=
  decide (r.phase = .due) && r.deadline.any fun d => decide (d ≤ time)

/-- The OVERDUE event of a record. -/
def overdueRecord (time : Nat) (h : Fin 384) (r : Receiver) : EventRecord :=
  ⟨.overdue, time, h.val, none, (r.tour.map fun x => x.slot.val * 256 + x.entry.val).getD 0⟩

theorem deadlineReached_iff {time : Nat} {r : Receiver} :
    deadlineReached time r = true ↔ r.phase = .due ∧ ∃ d, r.deadline = some d ∧ d ≤ time := by
  simp [deadlineReached, Option.any_eq_true]

theorem overdueOne_of_reached {h : Fin 384} {r : Receiver} (hr : s.receiver h = some r)
    (hl : deadlineReached s.mge.hubTime r = true) : overdueOne h s =
      raiseEvent .overdue h.val none (overdueRecord 0 h r).detail
        (s.putReceiver h (some { r with phase := .overdue })) := by
  obtain ⟨hp, d, hd, hle⟩ := deadlineReached_iff.1 hl
  rw [overdueOne, hr]
  simp only [hp, hd, if_pos hle]
  rfl

theorem overdueOne_of_not_reached {h : Fin 384}
    (hl : ∀ r, s.receiver h = some r → deadlineReached s.mge.hubTime r = false) : overdueOne h s = s := by
  rw [overdueOne]
  cases hr : s.receiver h with
  | none => rfl
  | some r =>
    dsimp only
    split
    next d hp hd =>
      have := deadlineReached_iff.not.1 (Bool.not_eq_true _ ▸ hl r hr)
      exact if_neg fun hle => this ⟨hp, d, hd, hle⟩
    next => rfl

/-- A receiver's record once its deadline is judged. -/
def judgedRecord (time : Nat) (r : Option Receiver) : Option Receiver :=
  r.map fun r => if deadlineReached time r then { r with phase := .overdue } else r

/-- The event that judging a receiver's deadline raises. -/
def judgedEvent (time : Nat) (h : Fin 384) (r : Option Receiver) : Option EventRecord :=
  r.bind fun r => if deadlineReached time r then some (overdueRecord time h r) else none

/-- Judging one deadline, in the states of one hub time. -/
theorem overdueOne_pass {time : Nat} (h : Fin 384) (u : State) (hu : u.mge.hubTime = time) :
    PassStep State.receiver (fun v => v.mge.hubTime = time) (fun _ => judgedRecord time) (judgedEvent time) h u
      (overdueOne h u) := by
  by_cases hl : ∃ r, u.receiver h = some r ∧ deadlineReached time r = true
  · obtain ⟨r, hr, hl⟩ := hl
    have k : KeepsAllBut eventParts (u.putReceiver h (some { r with phase := .overdue })) (overdueOne h u) := by
      rw [overdueOne_of_reached hr (hu ▸ hl)]
      exact raiseEvent_keeps .refl (by decide) (by decide)
    refine ⟨(k .hubTime (by decide)).trans hu, ?_, fun j hj => ?_, ?_, k .enables (by decide)⟩
    · rw [k.receiver_eq (by decide), State.putReceiver_receiver]
      simp [judgedRecord, hr, hl]
    · rw [k.receiver_eq (by decide), State.putReceiver_receiver, if_neg hj]
    · rw [overdueOne_of_reached hr (hu ▸ hl), judgedEvent, hr, Option.bind_some, if_pos hl]
      exact .raise_of_evq rfl hu
  · have none : ∀ r, u.receiver h = some r → deadlineReached time r = false :=
      fun r hr => Bool.not_eq_true _ ▸ fun h' => hl ⟨r, hr, h'⟩
    have same : overdueOne h u = u := overdueOne_of_not_reached (hu ▸ none)
    have record : judgedRecord time (u.receiver h) = u.receiver h := by
      rw [judgedRecord]
      cases hr : u.receiver h with
      | none => rfl
      | some r => simp [none r hr]
    have event : judgedEvent time h (u.receiver h) = Option.none := by
      rw [judgedEvent]
      cases hr : u.receiver h with
      | none => rfl
      | some r => simp [none r hr]
    rw [same]
    exact ⟨hu, record.symm, fun _ _ => rfl, by rw [event]; exact EventsTaken.nil, rfl⟩

theorem judgeDeadlines_spec (s : State) :
    (∀ h, (judgeDeadlines s).receiver h = judgedRecord s.mge.hubTime (s.receiver h)) ∧
    EventsTaken ((indices 384).filterMap fun h => judgedEvent s.mge.hubTime h (s.receiver h)) s (judgeDeadlines s) :=
  have h := forEach_pass overdueOne_pass (s := s) rfl
  ⟨h.1, h.2.1⟩

theorem judgeDeadlines_keepsParts (s : State) :
    KeepsAllBut [.receivers, .events, .egress] s (judgeDeadlines s) :=
  judgeDeadlines_keeps .refl (by decide) (by decide) (by decide)

/-- The state in which SET TIME judges the deadlines. -/
def timeSet (time : Nat) (s : State) : State :=
  (s.withMge { s.mge with hubTime := time }).withClock { s.clock with nextSecond := s.clock.now + 1000 }

theorem setTime_eq (args : List Byte) (s : State) :
    setTime args s = ⟨.done, enc32 s.mge.hubTime, judgeDeadlines (timeSet (quadAt args 0) s)⟩ := rfl

/-- The state at the next full second of elapsed time. -/
def secondReached (s : State) : State :=
  s.withClock { s.clock with
    now := max s.clock.now s.clock.nextSecond, nextSecond := s.clock.nextSecond + 1000 }

/-- The state in which a rise of the hub time judges the deadlines. -/
def timeRisen (s : State) : State :=
  (secondReached s).withMge { s.mge with hubTime := s.mge.hubTime + 1 }

theorem hubTimeTick_eq (s : State) :
    hubTimeTick s = if s.mge.hubTime < 4294967295 then judgeDeadlines (timeRisen s) else secondReached s := rfl

/-- The records and events of deadlines judged at a hub time, as `HubTimeJudgesDeadlines` states them. -/
theorem judgeDeadlines_judged {time : Nat} (hu : u.mge.hubTime = time) (hr : ∀ h, u.receiver h = s.receiver h)
    (he : u.evq = s.evq) :
    (∀ h, (judgeDeadlines u).receiver h = judgedRecord time (s.receiver h)) ∧
    EventsTaken ((indices 384).filterMap fun h => judgedEvent time h (s.receiver h)) s (judgeDeadlines u) := by
  obtain ⟨records, events⟩ := judgeDeadlines_spec u
  simp only [hu, hr] at records events
  exact ⟨records, events.of_evq he.symm⟩

theorem timeSet_judged (time : Nat) (s : State) :
    (∀ h, (judgeDeadlines (timeSet time s)).receiver h = judgedRecord time (s.receiver h)) ∧
    EventsTaken ((indices 384).filterMap fun h => judgedEvent time h (s.receiver h)) s
      (judgeDeadlines (timeSet time s)) :=
  judgeDeadlines_judged rfl (fun _ => rfl) rfl

theorem timeRisen_judged (s : State) :
    (∀ h, (judgeDeadlines (timeRisen s)).receiver h = judgedRecord (s.mge.hubTime + 1) (s.receiver h)) ∧
    EventsTaken ((indices 384).filterMap fun h => judgedEvent (s.mge.hubTime + 1) h (s.receiver h)) s
      (judgeDeadlines (timeRisen s)) :=
  judgeDeadlines_judged rfl (fun _ => rfl) rfl

theorem exec_setTime {req : Request} (h : Serving s 0x42 req) : exec .setTime s =
    .next (offerReply (replyTo req .done (enc32 s.mge.hubTime))
      (judgeDeadlines (timeSet (quadAt (requestArgs req) 0) s))) := by
  rw [exec_serving (c := .setTime) (owner := setTime) rfl h (setTime_eq _ s)]

/-- Settles O49: the hub time as each of the three commands takes it, and the pass over the due deadlines that
follows. -/
theorem hubTimeJudgesDeadlines : Obligations.HubTimeJudgesDeadlines := by
  unfold Obligations.HubTimeJudgesDeadlines
  intro s late event judged
  refine ⟨fun req h => ?_, ?_, fun h => ⟨fun r hr hl => ?_, fun hl => ?_⟩⟩
  · have k := judgeDeadlines_keepsParts (timeSet (quadAt (requestArgs req) 0) s)
    have keeps : KeepsAllBut [.clock, .hubTime, .receivers, .events, .egress] s (setTime (requestArgs req) s).state :=
      setTime_keeps .refl (by decide) (by decide) (by decide) (by decide) (by decide)
    simp only [setTime_eq] at keeps
    exact ⟨judgeDeadlines (timeSet (quadAt (requestArgs req) 0) s), exec_setTime h,
      k.mge_eq (by decide) (by decide) (by decide) (by decide), k .clock (by decide),
      timeSet_judged _ s,
      keeps⟩
  · have run : exec .hubTimeTick s = .next (hubTimeTick s) := rfl
    have k : KeepsAllBut [.clock, .hubTime, .receivers, .events, .egress] s (hubTimeTick s) :=
      hubTimeTick_keeps .refl (by decide) (by decide) (by decide) (by decide) (by decide)
    refine ⟨_, run, ?_, fun hlt => ?_, fun hge => ?_, k⟩
    · rw [hubTimeTick_eq]
      split
      · exact (judgeDeadlines_keepsParts (timeRisen s)) .clock (by decide)
      · rfl
    · rw [hubTimeTick_eq, if_pos hlt]
      exact ⟨(judgeDeadlines_keepsParts (timeRisen s)).mge_eq (by decide) (by decide) (by decide) (by decide),
        timeRisen_judged s⟩
    · rw [hubTimeTick_eq, if_neg (by omega)]
      exact withClock_keeps .refl (by decide)
  · have run : exec (.overdue h) s = .next (overdueOne h s) := rfl
    have pass := overdueOne_pass h s rfl
    have hl' : deadlineReached s.mge.hubTime r = true := hl
    have event_ := pass.events
    rw [judgedEvent, hr, Option.bind_some, if_pos hl'] at event_
    refine ⟨_, run, ?_, pass.elsewhere, event_, overdueOne_keeps .refl (by decide) (by decide) (by decide)⟩
    rw [pass.here, judgedRecord, hr, Option.map_some, if_pos hl']
  · exact congrArg Host.Outcome.next (overdueOne_of_not_reached hl)

end Sys2Proof.Machine
end

section
/-! What the work of the Zone Allocator and the Tour Controller is made of: a relation between states that holds over each
of its small writes holds over the service of queues, silence stages, closes and the whole work on a tour at a mix point. -/

namespace Sys2Proof.Machine

open Sys2Proof

variable {s t u : State} {R : State → State → Prop}

/-- A relation that holds over every write of the service of wait queues, which moves only tours that have a current
zone (R52, R57, R58). -/
structure ServiceClosed (R : State → State → Prop) : Prop where
  refl : ∀ s, R s s
  trans : ∀ {s t u}, R s t → R t u → R s u
  zones : ∀ s k ch zs, (s.tour k).live.zone.isSome = true → ch ∈ tourChannels (s.tour k).live → R s (setZones ch zs s)
  queue : ∀ s z q, R s (s.putZone z { s.zone z with queue := q })
  moved : ∀ s k z p w g, (s.tour k).live.zone.isSome = true → R s (s.putLive k { (s.tour k).live with
    zone := some z, prevZone := p, window := w, target := g })
  event : ∀ s k n r d, R s (raiseEvent k n r d s)

/-- A relation that holds over every write of a handover of one slot's tour (R44, R52 to R58). -/
structure HandoverClosed (R : State → State → Prop) (k : Fin 16) : Prop extends ServiceClosed R where
  anyZones : ∀ s ch zs, R s (setZones ch zs s)
  waits : ∀ s p w g, R s (s.putLive k { (s.tour k).live with prevZone := p, window := w, target := g })

/-- A program of a slot's plan. -/
def InPlan (s : State) (k : Fin 16) (p : Fin 32) : Prop :=
  ∃ plan e x, (s.tour k).plan = some plan ∧ plan.entries.get e = some x ∧ x.program = p

/-- A relation that holds over every write of a tour's silence stages and of its close (R76 to R78, R82 to R85). -/
structure TourWorkClosed (R : State → State → Prop) (k : Fin 16) : Prop extends HandoverClosed R k where
  live : ∀ s x, R s (s.putLive k x)
  waits := fun _ _ _ _ => live _ _
  fallback : ∀ s p x, InPlan s k p → R s (setFallback p x s)
  disown : ∀ s p, InPlan s k p → R s (disown p s)
  unbind : ∀ s p, R s (unbindProgram p s)
  freed : ∀ s ch, R s (s.putChannel ch { s.channel ch with phase := .free, program := none })
  release : ∀ s run h, R s (releaseOne k run h s)
  due : ∀ s run h, R s (makeDueOne k run h s)
  overdue : ∀ s h, R s (overdueOne h s)

namespace ServiceClosed

theorem forEach (h : ServiceClosed R) {α : Type} {f : α → State → State} (hf : ∀ x s, R s (f x s)) (items : List α)
    (s : State) : R s (forEach items f s) := by
  induction items generalizing s with
  | nil => exact h.refl s
  | cons x xs ih => exact h.trans (hf x s) (ih _)

theorem raiseTour (h : ServiceClosed R) (k : EventKind) (slot : Fin 16) (d : Nat) (s : State) :
    R s (raiseTour k slot d s) := h.event _ _ _ _ _

theorem dequeue (h : ServiceClosed R) (slot : Fin 16) (z : Fin 12) (s : State) : R s (dequeue slot z s) :=
  h.queue _ _ _

/-- Zone sets written to the channels of a tour that has a current zone. -/
theorem tourZones (h : ServiceClosed R) {slot : Fin 16} (hz : (s.tour slot).live.zone.isSome = true)
    (g : Fin 24 → State → ZoneSet) :
    R s (Machine.forEach (tourChannels (s.tour slot).live) (fun ch u => setZones ch (g ch u) u) s) := by
  suffices ∀ (chs : List (Fin 24)) (t : State), t.tour = s.tour → chs ⊆ tourChannels (s.tour slot).live →
      R t (Machine.forEach chs (fun ch u => setZones ch (g ch u) u) t) from this _ s rfl (List.Subset.refl _)
  intro chs
  induction chs with
  | nil => exact fun t _ _ => h.refl t
  | cons ch chs ih =>
    intro t ht sub
    exact h.trans (h.zones t slot ch _ (ht ▸ hz) (ht ▸ sub (by simp)))
      (ih (setZones ch _ t) ht fun x hx => sub (List.mem_cons_of_mem _ hx))

/-- The zone sets of a tour's channels are no part of the Tour Table. -/
theorem tourZones_tour (chs : List (Fin 24)) (g : Fin 24 → State → ZoneSet) (s : State) :
    (Machine.forEach chs (fun ch u => setZones ch (g ch u) u) s).tour = s.tour := by
  induction chs generalizing s with
  | nil => rfl
  | cons ch chs ih => exact ih _

theorem dropPrevious (h : ServiceClosed R) {slot : Fin 16} (hz : (s.tour slot).live.zone.isSome = true) :
    R s (dropPrevious slot s) := by
  obtain ⟨z, hz'⟩ := Option.isSome_iff_exists.1 hz
  simp only [Machine.dropPrevious]
  split
  · exact h.refl s
  next p _ =>
    have zones := h.tourZones hz fun ch u => (u.channel ch).zones &&& ~~~zoneBit p
    have same := tourZones_tour (tourChannels (s.tour slot).live) (fun ch u => (u.channel ch).zones &&& ~~~zoneBit p) s
    obtain ⟨t, ht⟩ : ∃ t, t = Machine.forEach (tourChannels (s.tour slot).live)
      (fun ch u => setZones ch ((u.channel ch).zones &&& ~~~zoneBit p) u) s := ⟨_, rfl⟩
    rw [← ht] at zones same ⊢
    have moved := h.moved t slot z none none (t.tour slot).live.target (by rw [same]; exact hz)
    rw [← hz', ← same] at moved
    exact h.trans (h.trans zones moved) (h.raiseTour _ _ _ _)

theorem grant (h : ServiceClosed R) (slot : Fin 16) (z : Fin 12) (s : State) : R s (grant slot z s).1 := by
  simp only [Machine.grant]
  split
  · exact h.refl s
  next cur hz =>
    have some_ : (s.tour slot).live.zone.isSome = true := by rw [hz]; rfl
    have zones := h.trans (h.tourZones some_ fun _ _ => zoneBit cur ||| zoneBit z) (h.dequeue slot z _)
    have same : (Machine.dequeue slot z (setTourZones slot (zoneBit cur ||| zoneBit z) s)).tour = s.tour :=
      tourZones_tour (tourChannels (s.tour slot).live) (fun _ _ => zoneBit cur ||| zoneBit z) s
    obtain ⟨t, ht⟩ : ∃ t, t = Machine.dequeue slot z (setTourZones slot (zoneBit cur ||| zoneBit z) s) := ⟨_, rfl⟩
    have zones' : R s t := ht ▸ zones
    rw [← ht] at same ⊢
    have entered := fun w => h.trans zones' (h.moved t slot z (some cur) w none (by rw [same]; exact some_))
    split
    · refine h.trans (entered _) (h.dropPrevious ?_)
      rw [State.putLive, State.putTour_tour, if_pos rfl]
      rfl
    · exact entered _

theorem serveZone (h : ServiceClosed R) (z : Fin 12) (n : Nat) (zs : ZoneSet) (s : State) :
    R s (serveZone z n (s, zs)).1 := by
  induction n generalizing s zs with
  | zero => exact h.refl s
  | succ n ih =>
    simp only [Machine.serveZone]
    split
    · exact h.refl s
    split
    · exact h.trans (h.trans (h.dequeue _ _ _) (h.grant _ _ _)) (ih _ _)
    · exact h.refl s

theorem serveSet (h : ServiceClosed R) (n : Nat) (zs : ZoneSet) (s : State) : R s (serveSet n zs s) := by
  induction n generalizing s zs with
  | zero => exact h.refl s
  | succ n ih =>
    simp only [Machine.serveSet]
    split
    · exact h.refl s
    · exact h.trans (h.serveZone _ _ _ _) (ih _ _)

theorem serveZones (h : ServiceClosed R) (zs : ZoneSet) (s : State) : R s (serveZones zs s) := h.serveSet _ _ _

end ServiceClosed

namespace HandoverClosed
variable {k : Fin 16}

theorem dropPrevious (h : HandoverClosed R k) (s : State) : R s (dropPrevious k s) := by
  simp only [Machine.dropPrevious]
  split
  · exact h.refl s
  · exact h.trans (h.trans (h.forEach (fun ch s => h.anyZones s ch _) _ s) (h.waits _ _ _ _)) (h.raiseTour _ _ _ _)

theorem requestHandover (h : HandoverClosed R k) (z : Fin 12) (s : State) :
    R s (requestHandover k z s) := by
  simp only [Machine.requestHandover]
  split
  · exact h.trans (h.grant _ _ _) (h.serveZones _ _)
  split
  · exact h.refl s
  · exact h.trans (h.trans (h.queue _ _ _) (h.waits _ _ _ _)) (h.raiseTour _ _ _ _)

theorem cutWindow (h : HandoverClosed R k) (s : State) : R s (cutWindow k s) := by
  unfold Machine.cutWindow
  split
  · exact h.trans (h.dropPrevious _) (h.serveZones _ _)
  · exact h.refl s

theorem leaveQueue (h : HandoverClosed R k) (s : State) : R s (leaveQueue k s).1 := by
  unfold Machine.leaveQueue
  split
  · exact h.refl s
  · exact h.trans (h.dequeue _ _ _) (h.waits _ _ _ _)

theorem takeOut (h : HandoverClosed R k) (s : State) : R s (takeOut k s) :=
  h.trans (h.leaveQueue _) (h.serveZones _ _)

theorem tickWindow (h : HandoverClosed R k) (s : State) : R s (tickWindow k s) := by
  simp only [Machine.tickWindow]
  split
  · exact h.refl s
  split
  · exact h.trans (h.trans (h.waits s _ _ _) (h.dropPrevious _)) (h.serveZones _ _)
  · exact h.waits s _ _ _

end HandoverClosed

theorem inPlan_of_mem {k : Fin 16} {p : Plan} {x : Fin 4 × Entry} (hp : (s.tour k).plan = some p)
    (hx : x ∈ planEntries p) : InPlan s k x.2.program :=
  ⟨p, x.1, x.2, hp, mem_planEntries_iff.1 hx, rfl⟩

namespace TourWorkClosed
variable {k : Fin 16}

/-- The writes to the programs of a plan, one after the other. -/
theorem forEach_plan (h : TourWorkClosed R k) {f : Fin 4 × Entry → State → State} {p : Plan}
    (hf : ∀ x s, (s.tour k).plan = some p → x ∈ planEntries p → R s (f x s) ∧ ((f x s).tour k).plan = some p) {s : State}
    (hp : (s.tour k).plan = some p) : R s (forEach (planEntries p) f s) ∧
      ((forEach (planEntries p) f s).tour k).plan = some p := by
  suffices ∀ (xs : List (Fin 4 × Entry)) s, xs ⊆ planEntries p → (s.tour k).plan = some p →
      R s (forEach xs f s) ∧ ((forEach xs f s).tour k).plan = some p from this _ _ (List.Subset.refl _) hp
  intro xs
  induction xs with
  | nil => exact fun s _ hp => ⟨h.refl s, hp⟩
  | cons x xs ih =>
    intro s hx hp
    obtain ⟨h1, h2⟩ := hf x s hp (hx (by simp))
    obtain ⟨h3, h4⟩ := ih (f x s) (fun y hy => hx (by simp [hy])) h2
    exact ⟨h.trans h1 h3, h4⟩

theorem setFallbacks (h : TourWorkClosed R k) {p : Plan} (hp : (s.tour k).plan = some p)
    (g : Fin 4 × Entry → Option (Fin 48)) :
    R s (Machine.forEach (planEntries p) (fun x => setFallback x.2.program (g x)) s) :=
  (h.forEach_plan (fun _ _ hp hx => ⟨h.fallback _ _ _ (inPlan_of_mem hp hx), hp⟩) hp).1

theorem disowned (h : TourWorkClosed R k) {p : Plan} (hp : (s.tour k).plan = some p) :
    R s (Machine.forEach (planEntries p) (fun x => Machine.disown x.2.program) s) :=
  (h.forEach_plan (fun _ _ hp hx => ⟨h.disown _ _ (inPlan_of_mem hp hx), hp⟩) hp).1

theorem writeFallback (h : TourWorkClosed R k) (s : State) : R s (writeFallback k s) := by
  simp only [Machine.writeFallback]
  split
  · exact h.refl s
  next hp =>
    split
    · exact h.refl s
    · exact h.trans (h.trans (h.setFallbacks hp _) (h.live _ _)) (h.raiseTour _ _ _ _)

theorem putLive_plan (s : State) (k : Fin 16) (x : TourLive) (j : Fin 16) :
    ((s.putLive k x).tour j).plan = (s.tour j).plan := by
  rw [State.putLive, State.putTour_tour]
  split
  next hj => rw [hj]
  next => rfl

theorem resetSilence (h : TourWorkClosed R k) (s : State) : R s (resetSilence k s) := by
  simp only [Machine.resetSilence]
  split
  · split
    next hp =>
      refine h.trans (h.trans (h.live s _) (h.setFallbacks ?_ fun _ => none)) (h.raiseTour _ _ _ _)
      rw [putLive_plan, hp]
    next => exact h.trans (h.live s _) (h.raiseTour _ _ _ _)
  · exact h.live s _

theorem countSilence (h : TourWorkClosed R k) (s : State) : R s (countSilence k s) := by
  simp only [Machine.countSilence]
  repeat' split
  exacts [h.trans (h.live s _) (h.raiseTour _ _ _ _), h.live s _, h.trans (h.live s _) (h.writeFallback _),
    h.live s _, h.refl s]

theorem tickSilence (h : TourWorkClosed R k) (s : State) : R s (tickSilence k s) := by
  unfold Machine.tickSilence
  split
  exacts [h.resetSilence s, h.countSilence s]

theorem freeChannel (h : TourWorkClosed R k) (ch : Fin 24) (s : State) : R s (freeChannel ch s) := by
  simp only [Machine.freeChannel]
  split
  · exact h.trans (h.trans (h.unbind s _) (h.anyZones _ _ _)) (h.freed _ _)
  · exact h.trans (h.anyZones s _ _) (h.freed _ _)

theorem unbindTour (h : TourWorkClosed R k) (s : State) : R s (unbindTour k s).1 :=
  h.trans (h.trans (h.leaveQueue s) (h.forEach (fun ch s => h.freeChannel ch s) _ _)) (h.live _ _)

theorem releaseRun (h : TourWorkClosed R k) (run : BitVec 16) (s : State) : R s (releaseRun k run s) :=
  h.forEach (fun n s => h.release s run n) _ s

theorem makeDue (h : TourWorkClosed R k) (run : BitVec 16) (s : State) : R s (makeDue k run s) :=
  h.forEach (fun n s => h.due s run n) _ s

theorem judgeDeadlines (h : TourWorkClosed R k) (s : State) : R s (judgeDeadlines s) :=
  h.forEach (fun n s => h.overdue s n) _ s

theorem releaseOne_plan (k : Fin 16) (run : BitVec 16) (n : Fin 384) (s : State) (j : Fin 16) :
    ((releaseOne k run n s).tour j).plan = (s.tour j).plan := by
  simp only [releaseOne, noteReleased]
  repeat' split
  next => rfl
  next a _ =>
    rw [putLive_plan, (setAssign_keeps (ps := [.bays]) .refl (by decide)).tour_eq (by decide)]
    rfl
  next => exact putLive_plan _ _ _ _
  next => rfl

theorem releaseRun_plan (k : Fin 16) (run : BitVec 16) (s : State) (j : Fin 16) :
    ((Machine.releaseRun k run s).tour j).plan = (s.tour j).plan := by
  have each (ns : List (Fin 384)) (s : State) :
      ((Machine.forEach ns (releaseOne k run) s).tour j).plan = (s.tour j).plan := by
    induction ns generalizing s with
    | nil => rfl
    | cons n ns ih => exact (ih _).trans (releaseOne_plan k run n s j)
  exact each _ s

theorem closeActions (h : TourWorkClosed R k) (q : Bool) (s : State) : R s (closeActions q k s).1 := by
  have released := h.trans (h.releaseRun (s.tour k).live.run s) (h.makeDue (s.tour k).live.run _)
  have plan : ((Machine.makeDue k (s.tour k).live.run (Machine.releaseRun k (s.tour k).live.run s)).tour k).plan =
      (s.tour k).plan :=
    (congrArg Tour.plan ((makeDue_keeps (ps := [.receivers]) .refl (by decide)).tour_eq (by decide) k)).trans
      (releaseRun_plan _ _ _ _)
  simp only [Machine.closeActions]
  split <;> split
  next hp => exact h.trans (h.trans (h.trans released (h.disowned (plan.trans hp))) (h.unbindTour _)) (h.live _ _)
  next => exact h.trans (h.trans released (h.unbindTour _)) (h.live _ _)
  next hp =>
    exact h.trans (h.trans (h.trans (h.trans released (h.disowned (plan.trans hp))) (h.unbindTour _)) (h.live _ _))
      (h.raiseTour _ _ _ _)
  next => exact h.trans (h.trans (h.trans released (h.unbindTour _)) (h.live _ _)) (h.raiseTour _ _ _ _)

theorem closeTour (h : TourWorkClosed R k) (s : State) : R s (closeTour k s) :=
  h.trans (h.trans (h.closeActions false s) (h.serveZones _ _)) (h.judgeDeadlines _)

theorem tickClose (h : TourWorkClosed R k) (s : State) : R s (tickClose k s) := by
  simp only [Machine.tickClose]
  repeat' split
  exacts [h.trans (h.live s _) (h.closeTour _), h.live s _, h.refl s]

theorem tickTour (h : TourWorkClosed R k) (s : State) : R s (tickTour k s) := by
  unfold Machine.tickTour
  split
  exacts [h.trans (h.tickSilence s) (h.tickClose _), h.refl s]

end TourWorkClosed

/-- The slot whose tour a piece of work is for. -/
def TourWork.slot : TourWork → Fin 16
  | .window k => k
  | .timers k => k

theorem doWork_closed {x : TourWork} (h : TourWorkClosed R x.slot) (s : State) : R s (doWork x s) := by
  cases x with
  | window k => exact h.tickWindow s
  | timers k => exact h.tickTour s

/-- The work on the tours at a mix point. -/
theorem forEach_doWork_closed (h : ∀ k, TourWorkClosed R k) (order : List TourWork) (s : State) :
    R s (forEach order doWork s) :=
  (h 0).forEach (fun _ s => doWork_closed (h _) s) order s

/-- The state of a mix point once the PROGRAM frames are handed over (R30). -/
def mixEmitted (before s : State) : State :=
  emitPrograms (framesOnAir (mixFeed before s) s) (mixPrograms (mixFeed before s) s)

/-- The state of a mix point once the work on the tours is done (R54, R83). -/
def mixToured (before s : State) : State :=
  forEach (workOrder (mixEmitted before s).choices) doWork (mixEmitted before s).useChoice

theorem runMix_eq (before s : State) : runMix before s = rackSender (mixToured before s) := rfl

theorem mixToured_closed (h : ∀ k, TourWorkClosed R k) (before s : State) :
    R (mixEmitted before s).useChoice (mixToured before s) :=
  forEach_doWork_closed h _ _

/-! ### Frames of the small writes -/

theorem releaseOne_keeps {ps : List Part} {k : Fin 16} {run : BitVec 16} {n : Fin 384} (h : KeepsAllBut ps s t)
    (hr : Part.receivers ∈ ps) (hb : Part.bays ∈ ps) (ht : Part.tours ∈ ps) :
    KeepsAllBut ps s (releaseOne k run n t) := by
  simp only [releaseOne]
  repeat' split
  exacts [h, putLive_keeps (setAssign_keeps (putReceiver_keeps h hr) hb) ht, putLive_keeps (putReceiver_keeps h hr) ht, h]

theorem makeDueOne_keeps {ps : List Part} {k : Fin 16} {run : BitVec 16} {n : Fin 384} (h : KeepsAllBut ps s t)
    (hr : Part.receivers ∈ ps) : KeepsAllBut ps s (makeDueOne k run n t) := by
  simp only [makeDueOne]
  repeat' split
  exacts [h, putReceiver_keeps h hr, h]

/-! ### Events -/

/-- Between two states some events were raised, and nothing else befell the Event Queue (R171, R172, R175). -/
structure Reports (s t : State) : Prop where
  enables : t.evq.enables = s.evq.enables
  taken : ∃ es, EventsTaken es s t

theorem Reports.trans (h : Reports s t) (k : Reports t u) : Reports s u := by
  obtain ⟨h1, es, h2⟩ := h
  obtain ⟨k1, fs, k2⟩ := k
  exact ⟨k1.trans h1, es ++ fs, h2.append k2 h1⟩

theorem Reports.of_keeps {ps : List Part} (k : KeepsAllBut ps s t) (hp : Part.enables ∉ ps ∧ Part.events ∉ ps) :
    Reports s t := by
  obtain ⟨hq, ho, hd⟩ := k .events hp.2
  exact ⟨k .enables hp.1, [], by simp [EventsTaken, hq, ho, hd]⟩

theorem Reports.event (k : EventKind) (n : Nat) (r : Option (BitVec 16)) (d : Nat) (s : State) :
    Reports s (raiseEvent k n r d s) :=
  ⟨(raiseEvent_keeps (ps := eventParts) .refl (by decide) (by decide)) .enables (by decide), _,
    EventsTaken.raise k n r d s⟩

theorem reports_closed (k : Fin 16) : TourWorkClosed Reports k where
  refl s := Reports.of_keeps (ps := []) .refl (by decide)
  trans := Reports.trans
  zones s _ ch zs _ _ := .of_keeps (setZones_keeps (ps := [.zones]) .refl (by decide)) (by decide)
  anyZones s ch zs := .of_keeps (setZones_keeps (ps := [.zones]) .refl (by decide)) (by decide)
  queue s z q := .of_keeps (putZone_keeps (ps := [.zones]) .refl (by decide)) (by decide)
  moved s k _ _ _ _ _ := .of_keeps (putLive_keeps (ps := [.tours]) .refl (by decide)) (by decide)
  event s k n r d := .event k n r d s
  live s x := .of_keeps (putLive_keeps (ps := [.tours]) .refl (by decide)) (by decide)
  fallback s p x _ := .of_keeps (putProgram_keeps (ps := [.programs]) .refl (by decide)) (by decide)
  disown s p _ := .of_keeps (disown_keeps (ps := [.programs]) .refl (by decide)) (by decide)
  unbind s p := .of_keeps (unbindProgram_keeps (ps := [.programs]) .refl (by decide)) (by decide)
  freed s ch := .of_keeps (putChannel_keeps (ps := [.zones]) .refl (by decide)) (by decide)
  release s run h := .of_keeps (releaseOne_keeps (ps := [.receivers, .bays, .tours]) .refl (by decide) (by decide)
    (by decide)) (by decide)
  due s run h := .of_keeps (makeDueOne_keeps (ps := [.receivers]) .refl (by decide)) (by decide)
  overdue s h :=
    have pass := overdueOne_pass h s rfl
    ⟨pass.enables, _, pass.events⟩

/-- The programs, the PROGRAM frames and the tours of a mix point raise events only. -/
theorem runMix_reports (before s : State) : Reports s (runMix before s) := by
  have emitted : Reports s (mixEmitted before s).useChoice :=
    .of_keeps (useChoice_keeps (emitPrograms_keeps (ps := [.programs, .zones, .egress, .choices])
      (withMxr_keeps .refl (by decide)) (by decide) (by decide)) (by decide)) (by decide)
  rw [runMix_eq]
  exact (emitted.trans (mixToured_closed reports_closed before s)).trans
    (.of_keeps (rackSender_keeps (ps := [.bays, .sender, .egress]) .refl (by decide) (by decide) (by decide)) (by decide))

end Sys2Proof.Machine
end

section
/-! The sources at a mix point (R10 to R16): frame levels, the slot that is emptied, the voice flag, and the pass over the
Source Table with its events. -/

namespace Sys2Proof.Machine

open Sys2Proof

variable {s t u : State}

/-! ### Frames -/

theorem silence_get (n : Fin 64) : (silence.get n).toInt = 0 := by simp [silence]

theorem halveFrame_get (f : Frame) (n : Fin 64) : ((halveFrame f).get n).toInt = (f.get n).toInt / 2 := by
  rw [halveFrame, Tab.get_map, BitVec.toInt_sshiftRight, Int.shiftRight_eq_div_pow]
  rfl

theorem foldl_max_ge (xs : List Sample) (m : Nat) :
    m ≤ xs.foldl (fun m x => max m x.toInt.natAbs) m ∧
    ∀ x ∈ xs, x.toInt.natAbs ≤ xs.foldl (fun m x => max m x.toInt.natAbs) m := by
  induction xs generalizing m with
  | nil => simp
  | cons x rest ih =>
    obtain ⟨h1, h2⟩ := ih (max m x.toInt.natAbs)
    refine ⟨(le_max_left _ _).trans h1, fun y hy => ?_⟩
    rcases List.mem_cons.1 hy with rfl | hy
    · exact (le_max_right _ _).trans h1
    · exact h2 y hy

theorem foldl_max_mem (xs : List Sample) (m : Nat) :
    xs.foldl (fun m x => max m x.toInt.natAbs) m = m ∨
    ∃ x ∈ xs, x.toInt.natAbs = xs.foldl (fun m x => max m x.toInt.natAbs) m := by
  induction xs generalizing m with
  | nil => simp
  | cons x rest ih =>
    rcases ih (max m x.toInt.natAbs) with h | ⟨y, hy, he⟩
    · rcases max_choice m x.toInt.natAbs with hm | hm
      · exact .inl (h.trans hm)
      · exact .inr ⟨x, by simp, (h.trans hm).symm⟩
    · exact .inr ⟨y, by simp [hy], he⟩

theorem natAbs_le_frameLevel (f : Frame) (n : Fin 64) : (f.get n).toInt.natAbs ≤ frameLevel f :=
  (foldl_max_ge f.items 0).2 _ (List.get_mem _ _)

/-- The level of a frame is the magnitude of one of its samples (R15). -/
theorem exists_eq_frameLevel (f : Frame) : ∃ n, (f.get n).toInt.natAbs = frameLevel f := by
  rcases foldl_max_mem f.items 0 with h | ⟨x, hx, he⟩
  · exact ⟨0, Nat.le_antisymm (natAbs_le_frameLevel f 0) (by rw [frameLevel, h]; exact Nat.zero_le _)⟩
  · obtain ⟨i, rfl⟩ := List.mem_iff_get.1 hx
    exact ⟨i.cast f.size_eq, he⟩

/-! ### One source -/

/-- What R10 to R13 make of the fields of a source other than voice flag and hang. -/
structure SlotTaken (l x : SourceLive) (handed : Frame) : Prop where
  slot : x.slot = none
  lastSeq : x.lastSeq = l.lastSeq
  lastMark : x.lastMark = l.lastMark
  fresh : ∀ f, l.phase ≠ .absent → l.slot = some f → handed = f ∧ x.phase = .live ∧ x.lastUsed = some f ∧
    x.missRun = 0 ∧ x.concealStep = 0 ∧ x.counters = l.counters ∧ x.level = frameLevel f
  quiet : l.phase = .absent ∨ l.slot = none → x.level = 0 ∧ x.lastUsed = l.lastUsed
  absent : l.phase = .absent → x.phase = .absent ∧ x.missRun = l.missRun ∧ x.concealStep = l.concealStep ∧
    x.counters = l.counters ∧ handed = silence
  missed : l.phase = .live → l.slot = none → x.missRun = min (l.missRun + 1) 65535 ∧
    x.phase = (if 25 ≤ min (l.missRun + 1) 65535 then .stale else .live) ∧
    x.concealStep = (if l.concealStep = 0 then 1 else 2) ∧
    x.counters = { l.counters with concealed := min (l.counters.concealed + 1) 4294967295 } ∧
    (∀ f, l.concealStep = 0 → l.lastUsed = some f → handed = halveFrame f) ∧
    (l.concealStep ≠ 0 → handed = silence)
  stale : l.phase = .stale → l.slot = none → x.missRun = min (l.missRun + 1) 65535 ∧ x.phase = .stale ∧
    x.concealStep = l.concealStep ∧ x.counters = l.counters ∧ handed = silence

theorem concealMiss_taken {l : SourceLive} (hp : l.phase = .live) (hs : l.slot = none) :
    SlotTaken l (concealMiss l).live (concealMiss l).frame := by
  by_cases h : Config.staleAfter ≤ satInc16 l.missRun <;> by_cases hc : l.concealStep = 0 <;>
  · simp only [concealMiss, h, hc, if_true, if_false]
    constructor <;> simp_all [Config.staleAfter, satInc16, satAdd, Config.max32]

theorem takeSlot_taken (l : SourceLive) : SlotTaken l (takeSlot l).live (takeSlot l).frame := by
  rw [takeSlot]
  split
  next hp => constructor <;> simp_all
  next f hp hf => constructor <;> simp_all [takeFresh]
  next hp hs => exact concealMiss_taken hp hs
  next f hp hf => constructor <;> simp_all [takeFresh]
  next hp hs => constructor <;> simp_all [satInc16]

theorem staleAfter_le_iff (n : Nat) : Config.staleAfter ≤ satInc16 n ↔ 24 ≤ n := by
  simp only [Config.staleAfter, satInc16]
  omega

/-- The event that emptying the slot brings (R12, R13). -/
theorem takeSlot_event (l : SourceLive) : (takeSlot l).event =
    if l.phase = .live ∧ l.slot.isNone = true ∧ 24 ≤ l.missRun then
      some (.sourceStale, (l.lastSeq.map BitVec.toNat).getD 0)
    else if l.phase = .stale ∧ l.slot.isSome = true then some (.sourceBack, l.missRun)
    else none := by
  rw [takeSlot]
  split
  next hp => simp [hp]
  next f hp hf => simp [hp, hf]
  next hp hs => by_cases h : 24 ≤ l.missRun <;> simp [concealMiss, hp, hs, staleAfter_le_iff, h]
  next f hp hf => simp [hp, hf]
  next hp hs => simp [hp, hs]

theorem takeSlot_voice (l : SourceLive) :
    (takeSlot l).live.voice = l.voice ∧ (takeSlot l).live.hangLeft = l.hangLeft := by
  rw [takeSlot]
  split
  next hp => exact ⟨rfl, rfl⟩
  next f hp hf => exact ⟨rfl, rfl⟩
  next hp hs => by_cases h : Config.staleAfter ≤ satInc16 l.missRun <;> simp [concealMiss, h]
  next f hp hf => exact ⟨rfl, rfl⟩
  next hp hs => exact ⟨rfl, rfl⟩

/-- The voice update writes the voice flag and the hang only. -/
theorem voiceUpdate_eq (c : SourceConfig) (l : SourceLive) : voiceUpdate c l =
    { l with voice := (voiceUpdate c l).voice, hangLeft := (voiceUpdate c l).hangLeft } := by
  unfold voiceUpdate
  repeat' split
  all_goals rfl

theorem voiceUpdate_on {c : SourceConfig} {l : SourceLive} (h : c.onThreshold ≤ l.level) :
    (voiceUpdate c l).voice = true ∧ (voiceUpdate c l).hangLeft = c.hang := by simp [voiceUpdate, h]

theorem voiceUpdate_held {c : SourceConfig} {l : SourceLive} (h : l.level < c.onThreshold) (hv : l.voice = true)
    (ho : c.offThreshold ≤ l.level) : (voiceUpdate c l).voice = true ∧ (voiceUpdate c l).hangLeft = c.hang := by
  simp [voiceUpdate, Nat.not_le.2 h, hv, ho]

theorem voiceUpdate_hang {c : SourceConfig} {l : SourceLive} (h : l.level < c.onThreshold) (hv : l.voice = true)
    (ho : l.level < c.offThreshold) : (voiceUpdate c l).hangLeft = l.hangLeft - 1 ∧
      (voiceUpdate c l).voice = decide (l.hangLeft - 1 ≠ 0) := by
  simp [voiceUpdate, Nat.not_le.2 h, hv, Nat.not_le.2 ho]

theorem voiceUpdate_quiet {c : SourceConfig} {l : SourceLive} (h : l.level < c.onThreshold) (hv : l.voice = false) :
    (voiceUpdate c l).voice = false ∧ (voiceUpdate c l).hangLeft = l.hangLeft := by
  simp [voiceUpdate, Nat.not_le.2 h, hv]

/-- A source's record after its part of a mix point. -/
def mixedSource (r : Source) : Source := { r with live := voiceUpdate r.config (takeSlot r.live).live }

theorem mixedSource_taken (r : Source) : SlotTaken r.live (mixedSource r).live (takeSlot r.live).frame := by
  obtain ⟨h1, h2, h3, h4, h5, h6, h7, h8⟩ := takeSlot_taken r.live
  rw [mixedSource, voiceUpdate_eq]
  exact ⟨h1, h2, h3, h4, h5, h6, h7, h8⟩

/-- The event of a source's part of a mix point. -/
def mixEvent (time : Nat) (i : Fin 48) (r : Source) : Option EventRecord :=
  (takeSlot r.live).event.map fun e => ⟨e.1, time, i.val, none, e.2⟩

theorem mixEvent_eq (time : Nat) (i : Fin 48) (r : Source) : mixEvent time i r =
    if r.live.phase = .live ∧ r.live.slot.isNone = true ∧ 24 ≤ r.live.missRun then
      some ⟨.sourceStale, time, i.val, none, (r.live.lastSeq.map BitVec.toNat).getD 0⟩
    else if r.live.phase = .stale ∧ r.live.slot.isSome = true then
      some ⟨.sourceBack, time, i.val, none, r.live.missRun⟩
    else none := by
  rw [mixEvent, takeSlot_event]
  split
  · rfl
  split <;> rfl

/-! ### The pass over the Source Table -/

theorem mixSource_pass {time : Nat} (i : Fin 48) (u : State) (hu : u.mge.hubTime = time) :
    PassStep State.source (fun v => v.mge.hubTime = time) (fun _ r => r.map mixedSource)
      (fun i r => r.bind (mixEvent time i)) i u (mixSource i u) := by
  cases hr : u.source i with
  | none =>
    have same : mixSource i u = u := by rw [mixSource, hr]
    rw [same]
    exact ⟨hu, by rw [hr]; rfl, fun _ _ => rfl, by rw [hr]; exact EventsTaken.nil, rfl⟩
  | some r =>
    cases he : (takeSlot r.live).event with
    | none =>
      have put : mixSource i u = u.putSource i (some (mixedSource r)) := by rw [mixSource, hr]; simp only [he]; rfl
      rw [put]
      exact ⟨hu, by rw [hr, State.putSource_source, if_pos rfl]; rfl,
        fun j hj => by rw [State.putSource_source, if_neg hj],
        by rw [hr, Option.bind_some, mixEvent, he]; exact EventsTaken.nil, rfl⟩
    | some e =>
      obtain ⟨kind, detail⟩ := e
      have put : mixSource i u = raiseEvent kind i.val none detail (u.putSource i (some (mixedSource r))) := by
        rw [mixSource, hr]; simp only [he]; rfl
      have k : KeepsAllBut eventParts (u.putSource i (some (mixedSource r))) (mixSource i u) := by
        rw [put]
        exact raiseEvent_keeps .refl (by decide) (by decide)
      refine ⟨(k .hubTime (by decide)).trans hu, ?_, fun j hj => ?_, ?_, k .enables (by decide)⟩
      · rw [k.source_eq (by decide), hr, State.putSource_source, if_pos rfl]; rfl
      · rw [k.source_eq (by decide), State.putSource_source, if_neg hj]
      · rw [hr, Option.bind_some, mixEvent, he, put]
        exact .raise_of_evq rfl hu

theorem takeSources_spec (s : State) :
    (∀ i, (takeSources s).source i = (s.source i).map mixedSource) ∧
    EventsTaken ((indices 48).filterMap fun i => (s.source i).bind (mixEvent s.mge.hubTime i)) s (takeSources s) :=
  have h := forEach_pass mixSource_pass (s := s) rfl
  ⟨h.1, h.2.1⟩

theorem takeSources_keeps (s : State) : KeepsAllBut [.sources, .events, .egress] s (takeSources s) :=
  forEach_keeps (fun _ _ k => mixSource_keeps k (by decide) (by decide) (by decide)) .refl

theorem mixPoint_source_eq (s : State) (i : Fin 48) : (mixPoint s).source i = (s.source i).map mixedSource :=
  (mixPoint_source s i).trans ((takeSources_spec (reachMix s)).1 i)

theorem mixPoint_clock (s : State) : (mixPoint s).clock =
    { s.clock with now := max s.clock.now s.clock.nextMix, nextMix := s.clock.nextMix + 4 } := by
  exact (runMix_keeps (reachMix s) .clock (by decide)).trans (takeSources_keeps (reachMix s) .clock (by decide))

/-- Settles O50: the clock, the frames handed on and each source's record after the pass over the Source Table. -/
theorem mixPointTakesSlots : Obligations.MixPointTakesSlots := by
  unfold Obligations.MixPointTakesSlots
  intro s
  refine ⟨mixPoint s, rfl, mixPoint_clock s, fun i => ⟨fun hn => ⟨?_, fun n => ?_⟩, fun r hr => ?_⟩⟩
  · rw [mixPoint_source_eq, hn]; rfl
  · rw [hn]; exact silence_get n
  have handed : handedFrame (s.source i) = (takeSlot r.live).frame := by rw [hr]; rfl
  refine ⟨(mixedSource r).live, by rw [mixPoint_source_eq, hr]; rfl, ?_⟩
  rw [handed]
  obtain ⟨slot, seq, mark, fresh, quiet, absent, missed, stale⟩ := mixedSource_taken r
  have level : (takeSlot r.live).live.level = (mixedSource r).live.level := by rw [mixedSource, voiceUpdate_eq]
  obtain ⟨voice, hang⟩ := takeSlot_voice r.live
  refine ⟨slot, seq, mark, fun f hp hf => ?_, quiet, fun hp => ?_, fun hp hs => ?_, fun hp hs => ?_,
    fun h => ?_, fun h1 h2 h3 => ?_, fun h1 h2 h3 => ?_, fun h1 h2 => ?_⟩
  · obtain ⟨h1, h2, h3, h4, h5, h6, h7⟩ := fresh f hp hf
    exact ⟨h1, h2, h3, h4, h5, h6, h7 ▸ natAbs_le_frameLevel f, h7 ▸ exists_eq_frameLevel f⟩
  · obtain ⟨h1, h2, h3, h4, h5⟩ := absent hp
    exact ⟨h1, h2, h3, h4, h5 ▸ silence_get⟩
  · obtain ⟨h1, h2, h3, h4, h5, h6⟩ := missed hp hs
    exact ⟨h1, h2, h3, h4, fun f hc hf => h5 f hc hf ▸ halveFrame_get f, fun hc => h6 hc ▸ silence_get⟩
  · obtain ⟨h1, h2, h3, h4, h5⟩ := stale hp hs
    exact ⟨h1, h2, h3, h4, h5 ▸ silence_get⟩
  · exact voiceUpdate_on (level ▸ h)
  · exact voiceUpdate_held (level ▸ h1) (voice.trans h2) (level ▸ h3)
  · rw [← hang]
    exact voiceUpdate_hang (level ▸ h1) (voice.trans h2) (level ▸ h3)
  · rw [← hang]
    exact voiceUpdate_quiet (level ▸ h1) (voice.trans h2)

/-! ### The parts of a mix point for one source (log 8) -/

theorem staleDue_iff (l : SourceLive) : staleDue l = true ↔ l.phase = .live ∧ l.slot = none ∧ 24 ≤ l.missRun := by
  simp [staleDue, staleAfter_le_iff, and_assoc]

theorem clearDue_iff (c : SourceConfig) (l : SourceLive) : clearDue c l = true ↔
    l.voice = true ∧ l.level < c.onThreshold ∧ l.level < c.offThreshold ∧ l.hangLeft ≤ 1 := by
  simp [clearDue, and_assoc]

theorem voiceUpdate_of_clearDue {c : SourceConfig} {l : SourceLive} (h : clearDue c l = true) :
    voiceUpdate c l = { l with voice := false, hangLeft := 0 } := by
  obtain ⟨hv, hon, hoff, hh⟩ := (clearDue_iff c l).1 h
  obtain ⟨h1, h2⟩ := voiceUpdate_hang hon hv hoff
  have h0 : l.hangLeft - 1 = 0 := by omega
  rw [voiceUpdate_eq, h1, h2, h0]
  rfl

/-- Settles O54: the two commands for one source, and the events of the pass over the Source Table ahead of those of the
programs and tours. -/
theorem sourceEventsOfMixPoint : Obligations.SourceEventsOfMixPoint := by
  unfold Obligations.SourceEventsOfMixPoint
  refine ⟨fun s => ?_, fun s i => ⟨fun hn => ?_, fun r hr => ?_⟩⟩
  · obtain ⟨-, rest, taken⟩ := runMix_reports (reachMix s) (takeSources (reachMix s))
    have enables : (takeSources (reachMix s)).evq.enables = s.evq.enables :=
      takeSources_keeps (reachMix s) .enables (by decide)
    have first := (takeSources_spec (reachMix s)).2.of_evq (u := s) rfl
    have events := first.append taken enables
    have written (i : Fin 48) := funext (mixEvent_eq (reachMix s).mge.hubTime i)
    simp only [written] at events
    exact ⟨mixPoint s, rest, rfl, events⟩
  · exact ⟨by simp [exec, execSourceStale, sourceStale, hn], by simp [exec, execVoiceFlagClear, voiceFlagClear, hn]⟩
  have stale_eq : sourceStale i s = if staleDue r.live then mixSource i s else s := by rw [sourceStale, hr]
  have clear_eq : voiceFlagClear i s = if clearDue r.config r.live then
      s.putSource i (some { r with live := voiceUpdate r.config r.live }) else s := by rw [voiceFlagClear, hr]
  refine ⟨fun h => ?_, fun h => ?_, fun h => ?_, fun h => ?_⟩
  · exact congrArg Host.Outcome.next (stale_eq.trans (if_neg (mt (staleDue_iff _).1 h)))
  · obtain ⟨hp, hs, hm⟩ := h
    have pass := mixSource_pass i s rfl
    have run : exec (.sourceStale i) s = .next (mixSource i s) :=
      congrArg Host.Outcome.next (stale_eq.trans (if_pos ((staleDue_iff _).2 ⟨hp, hs, hm⟩)))
    have here := pass.here
    have events := pass.events
    rw [hr] at here events
    rw [Option.bind_some, mixEvent_eq, if_pos ⟨hp, by simp [hs], hm⟩] at events
    obtain ⟨slot, seq, mark, -, quiet, -, missed, -⟩ := mixedSource_taken r
    obtain ⟨miss, phase, -, counters, -⟩ := missed hp hs
    obtain ⟨level, used⟩ := quiet (.inr hs)
    exact ⟨_, (mixedSource r).live, run, here, phase.trans (if_pos (by omega)), miss, level, slot, used, seq, mark,
      counters, pass.elsewhere, events, mixSource_keeps .refl (by decide) (by decide) (by decide)⟩
  · exact congrArg Host.Outcome.next (clear_eq.trans (if_neg (mt (clearDue_iff _ _).1 h)))
  · have due := (clearDue_iff r.config r.live).2 h
    exact congrArg Host.Outcome.next (clear_eq.trans ((if_pos due).trans (by rw [voiceUpdate_of_clearDue due])))

end Sys2Proof.Machine
end

section
/-! The intake of audio frames (R6 to R8, R17): the source that owns a frame, the sequence judgement and the record of an
accepted frame. -/

namespace Sys2Proof.Machine

open Sys2Proof

variable {s t u : State}

/-- A source's record has this station and stream (R6). -/
def OwnsStream (station : Station) (stream : Nat) (r : Source) : Prop :=
  r.config.station = station ∧ r.config.stream.val = stream

theorem findSource_eq_none {station : Station} {stream : Nat}
    (h : ∀ i r, s.source i = some r → ¬ OwnsStream station stream r) : findSource station stream s = none := by
  refine List.find?_eq_none.2 fun i _ => ?_
  cases hr : s.source i with
  | none => simp
  | some r => simpa [OwnsStream] using h i r hr

theorem findSource_eq_some {station : Station} {stream : Nat} {i : Fin 48} {r : Source} (hr : s.source i = some r)
    (ho : OwnsStream station stream r)
    (unique : ∀ j r', s.source j = some r' → OwnsStream station stream r' → j = i) :
    findSource station stream s = some i := by
  refine find?_eq_some_of_first (pairwise_finRange_lt 48) (List.mem_finRange i) ?_ fun j _ hj => ?_
  · rw [hr]
    simpa [OwnsStream] using ho
  · cases hr' : s.source j with
    | none => simp [hr'] at hj
    | some r' =>
      rw [hr'] at hj
      exact fun hlt => absurd (unique j r' hr' (by simpa [OwnsStream] using hj)) (ne_of_lt hlt)

/-! ### The sequence judgement (R7) -/

theorem judgeSequence_of_not_live {l : SourceLive} {seq : BitVec 16} (h : l.phase ≠ .live) :
    judgeSequence l seq = .first := by
  rw [judgeSequence]
  split <;> simp_all

theorem judgeSequence_of_live {l : SourceLive} {seq a : BitVec 16} (h : l.phase = .live) (ha : l.lastSeq = some a) :
    judgeSequence l seq = if (seq - a).toNat = 0 then .duplicate else if (seq - a).toNat = 1 then .newer
      else if (seq - a).toNat < 32768 then .newerWithGap else .late := by
  rw [judgeSequence]
  split <;> simp_all

/-- A frame that R8 accepts is neither a duplicate nor late, and whether it shows a gap. -/
theorem judgeSequence_accepted {l : SourceLive} {seq : BitVec 16}
    (h : l.phase = .live → ∃ a, l.lastSeq = some a ∧ 0 < (seq - a).toNat ∧ (seq - a).toNat < 32768) :
    judgeSequence l seq ≠ .duplicate ∧ judgeSequence l seq ≠ .late ∧
    (decide (judgeSequence l seq = .newerWithGap) = true ↔
      l.phase = .live ∧ l.lastSeq.map (fun a => decide (1 < (seq - a).toNat)) = some true) := by
  by_cases hlive : l.phase = .live
  · obtain ⟨a, ha, h0, hlt⟩ := h hlive
    rw [judgeSequence_of_live hlive ha, ha, Option.map_some]
    generalize (seq - a).toNat = d at h0 hlt
    have hd : d ≠ 0 := by omega
    by_cases h1 : d = 1
    · simp [h1]
    · have : 1 < d := by omega
      simp [hlive, hd, h1, hlt, this]
  · rw [judgeSequence_of_not_live hlive]
    simp [hlive]

/-! ### Accepted frames (R8) -/

/-- The record of a source after it has accepted an audio frame. -/
def acceptedSource (r : Source) (gap : Bool) (payload : List Byte) : Source :=
  let seq := BitVec.ofNat 16 (wordAt payload 2)
  let mark := BitVec.ofNat 4 (byteAt payload 1)
  { r with live := acceptFrame r.config.kind r.live gap seq mark (payloadSamples payload) }

/-- The advance of the mark counter, if any, passed on. -/
def passMark (i : Fin 48) (d : Option Nat) (s : State) : State :=
  match d with
  | some d => passAdvance i d s
  | none => s

theorem takeSourceFrame_duplicate {i : Fin 48} {r : Source} {payload : List Byte} (hl : payload.length = 132)
    (hj : judgeSequence r.live (BitVec.ofNat 16 (wordAt payload 2)) = .duplicate) : takeSourceFrame i r payload s =
      s.putSource i (some { r with live := { r.live with
        counters := { r.live.counters with duplicate := satAdd r.live.counters.duplicate 1 } } }) := by
  simp [takeSourceFrame, hl, hj]

theorem takeSourceFrame_late {i : Fin 48} {r : Source} {payload : List Byte} (hl : payload.length = 132)
    (hj : judgeSequence r.live (BitVec.ofNat 16 (wordAt payload 2)) = .late) : takeSourceFrame i r payload s =
      s.putSource i (some { r with live := { r.live with
        counters := { r.live.counters with late := satAdd r.live.counters.late 1 } } }) := by
  simp [takeSourceFrame, hl, hj]

theorem takeSourceFrame_malformed {i : Fin 48} {r : Source} {payload : List Byte} (hl : payload.length ≠ 132) :
    takeSourceFrame i r payload s = s.putSource i (some { r with live := { r.live with
        counters := { r.live.counters with malformed := satAdd r.live.counters.malformed 1 } } }) :=
  if_pos hl

theorem takeSourceFrame_accepted {i : Fin 48} {r : Source} {payload : List Byte} {j : SeqJudgement}
    (hl : payload.length = 132) (hj : judgeSequence r.live (BitVec.ofNat 16 (wordAt payload 2)) = j)
    (hd : j ≠ .duplicate) (ht : j ≠ .late) : takeSourceFrame i r payload s =
      passMark i (markAdvance r.config.kind r.live (BitVec.ofNat 4 (byteAt payload 1)))
        (s.putSource i (some (acceptedSource r (decide (j = .newerWithGap)) payload))) := by
  rw [takeSourceFrame, if_neg (not_not.2 hl)]
  dsimp only
  rw [hj]
  cases j with
  | duplicate => exact absurd rfl hd
  | late => exact absurd rfl ht
  | first => rfl
  | newer => rfl
  | newerWithGap => rfl

/-- An advance passed on leaves the Source Table as it is but for the ignored-mark counter of its source. -/
theorem passAdvance_source {i : Fin 48} {d : Nat} {r : Source} (hr : s.source i = some r) :
    (∃ n, (passAdvance i d s).source i = some { r with live := { r.live with
      counters := { r.live.counters with ignoredMark := n } } }) ∧
    ∀ j, j ≠ i → (passAdvance i d s).source j = s.source j := by
  rw [passAdvance]
  split
  · rw [hr]
    exact ⟨⟨_, by rw [State.putSource_source, if_pos rfl]⟩, fun j hj => by rw [State.putSource_source, if_neg hj]⟩
  · have k (slots : List (Fin 16)) :
        KeepsAllBut [.tours, .programs, .zones, .events, .egress] s (forEach slots (takeAdvance d) s) :=
      forEach_keeps (fun _ _ k => takeAdvance_keeps k (by decide) (by decide) (by decide) (by decide) (by decide)) .refl
    exact ⟨⟨_, ((k _).source_eq (by decide) i).trans hr⟩, fun j _ => (k _).source_eq (by decide) j⟩

theorem passMark_source {i : Fin 48} {d : Option Nat} {r : Source} (hr : s.source i = some r) :
    (∃ n, (passMark i d s).source i = some { r with live := { r.live with
      counters := { r.live.counters with ignoredMark := n } } }) ∧
    ∀ j, j ≠ i → (passMark i d s).source j = s.source j := by
  cases d with
  | none => exact ⟨⟨_, hr⟩, fun _ _ => rfl⟩
  | some d => exact passAdvance_source hr

theorem markAdvance_of_not_guide {kind : SourceKind} {l : SourceLive} {mark : BitVec 4} (h : kind ≠ .guide) :
    markAdvance kind l mark = none := by
  cases kind with
  | guide => exact absurd rfl h
  | interpreter => rfl
  | track => rfl

theorem payloadSamples_get (payload : List Byte) (n : Fin 64) :
    ((payloadSamples payload).get n).toNat = wordAt payload (4 + 2 * n.val) := by
  rw [payloadSamples, Tab.get_ofFn, BitVec.toNat_ofNat, Nat.mod_eq_of_lt (wordAt_lt _ _)]

theorem takeAudio_of_owner {station : Station} {payload : List Byte} {i : Fin 48} {r : Source} (hp : payload ≠ [])
    (hr : s.source i = some r) (ho : OwnsStream station (byteAt payload 0) r)
    (unique : ∀ j r', s.source j = some r' → OwnsStream station (byteAt payload 0) r' → j = i) :
    takeAudio station payload s = takeSourceFrame i r payload s := by
  rw [takeAudio, findSource_eq_some hr ho unique]
  simp [hp, hr]

theorem takeAudio_unrouted {station : Station} {payload : List Byte}
    (h : payload = [] ∨ ∀ i r, s.source i = some r → ¬ OwnsStream station (byteAt payload 0) r) :
    takeAudio station payload s = s.putLinkCounters
      { s.hli.counters with unroutedAudio := satAdd s.hli.counters.unroutedAudio 1 } := by
  rcases h with h | h
  · simp [takeAudio, h]
  · simp [takeAudio, findSource_eq_none h]

theorem exec_audioUp {frame : List Byte} {station : Station} {payload : List Byte}
    (h : Arrives s frame .audioUp station payload) :
    exec (.audioUp frame) s = .next (takeAudio station payload (countReceived s)) :=
  congrArg Host.Outcome.next (arrive_accepted h)

/-- Settles O17: the owner of the frame, then the judgement of its sequence number and, where it is accepted, the record
it leaves, which the tours' work on a mark changes in the ignored-mark counter only. -/
theorem audioFrameJudged : Obligations.AudioFrameJudged := by
  unfold Obligations.AudioFrameJudged
  intro s frame station payload h up c u owns
  refine ⟨fun hn => ?_, fun hp i r hr ho unique => ?_⟩
  · rw [exec_audioUp h, takeAudio_unrouted (s := countReceived s) hn]
    rfl
  intro l seq k counted
  have run : exec (.audioUp frame) s = .next (takeSourceFrame i r payload u) :=
    (exec_audioUp h).trans (congrArg Host.Outcome.next (takeAudio_of_owner (s := countReceived s) hp hr ho unique))
  refine ⟨fun hl => ?_, fun hl a hlive ha => ⟨fun h0 => ?_, fun hlate => ?_⟩, fun hl hseq => ?_⟩
  · rw [run, takeSourceFrame_malformed hl]
    rfl
  · rw [run, takeSourceFrame_duplicate hl ((judgeSequence_of_live hlive ha).trans (if_pos h0))]
    rfl
  · have hj : judgeSequence l seq = .late := by
      rw [judgeSequence_of_live hlive ha, if_neg (by omega), if_neg (by omega), if_neg (by omega)]
    rw [run, takeSourceFrame_late hl hj]
    rfl
  · obtain ⟨dup, late, gap⟩ := judgeSequence_accepted hseq
    rw [run, takeSourceFrame_accepted hl rfl dup late]
    have put : (u.putSource i (some (acceptedSource r (decide (judgeSequence l seq = .newerWithGap)) payload))).source i =
        some (acceptedSource r (decide (judgeSequence l seq = .newerWithGap)) payload) := by
      rw [State.putSource_source, if_pos rfl]
    obtain ⟨⟨n, here⟩, elsewhere⟩ := passMark_source
      (d := markAdvance r.config.kind l (BitVec.ofNat 4 (byteAt payload 1))) put
    refine ⟨_, _, payloadSamples payload, rfl, here, rfl, ?_, payloadSamples_get payload, fun j hj => ?_,
      fun hk => ?_, fun hk => if_pos hk⟩
    · simp only [acceptedSource, acceptFrame, gap]
      rfl
    · rw [elsewhere j hj, State.putSource_source, if_neg hj]
      rfl
    · rw [markAdvance_of_not_guide hk] at here ⊢
      have same := Option.some_inj.1 (put.symm.trans here)
      refine ⟨if_neg hk, ?_, ?_⟩
      · exact (congrArg (fun x => x.live.counters.ignoredMark) same).symm
      · exact (putSource_keeps (putLinkCounters_keeps .refl (by decide)) (by decide))

end Sys2Proof.Machine
end

section
/-! What the tours and the rack sender leave of a mix point's programs, channels and PROGRAM frames (R30, R48, R165). -/

namespace Sys2Proof.Machine

open Sys2Proof

variable {s t u : State}

/-! ### The arbiter under hand-overs of other classes -/

/-- A settled arbiter keeps class 1, the superseded count and every frame it holds. -/
structure LinkKept (h h' : Hli) : Prop where
  linkUp : h'.linkUp = h.linkUp
  superseded : h'.counters.superseded = h.counters.superseded
  settled : LinkSettled h → LinkSettled h'
  class1 : LinkSettled h → h'.class1 = h.class1
  held : ∀ f ∈ heldFrames h, f ∈ heldFrames h'

theorem LinkKept.refl (h : Hli) : LinkKept h h := ⟨rfl, rfl, id, fun _ => rfl, fun _ => id⟩

theorem LinkKept.trans {h1 h2 h3 : Hli} (a : LinkKept h1 h2) (b : LinkKept h2 h3) : LinkKept h1 h3 :=
  ⟨b.linkUp.trans a.linkUp, b.superseded.trans a.superseded, b.settled ∘ a.settled,
    fun h => (b.class1 (a.settled h)).trans (a.class1 h), fun f hf => b.held f (a.held f hf)⟩

/-- Beginning to place a frame keeps class 1 where class 1 is empty or a frame is already being placed (R165). -/
theorem startPlacing_class1 {h : Hli} (hc : h.placing ≠ none ∨ h.class1 = []) : (startPlacing h).class1 = h.class1 := by
  unfold startPlacing
  split
  next hfree =>
    have hp : h.placing = none := by
      simp only [Bool.and_eq_true, Option.isNone_iff_eq_none] at hfree
      exact hfree.2
    have h1 := hc.resolve_left (not_not.2 hp)
    rw [h1]
    dsimp only
    repeat' split
    exacts [rfl, rfl, h1]
  next => rfl

theorem startPlacing_fields (h : Hli) :
    (startPlacing h).linkUp = h.linkUp ∧ (startPlacing h).counters = h.counters := by
  unfold startPlacing
  repeat' split
  all_goals exact ⟨rfl, rfl⟩

/-- No frame of class 1. -/
def notProgram (o : Origin) : Bool :=
  match o with
  | .program _ => false
  | .poll _ _ _ | .bayCommand | .reply | .attention => true

theorem enqueue_notProgram {f : EgressFrame} {h : Hli} (hf : notProgram f.origin = true) :
    (enqueue f h).class1 = h.class1 ∧ (enqueue f h).placing = h.placing ∧ (enqueue f h).linkUp = h.linkUp ∧
    (enqueue f h).counters = h.counters := by
  unfold enqueue
  split
  next ho => simp [notProgram, ho] at hf
  all_goals exact ⟨rfl, rfl, rfl, rfl⟩

theorem linkKept_discard (s : State) (f : EgressFrame) : LinkKept s.hli (discardFrame f s).hli := by
  rw [discardFrame_hli]
  exact ⟨rfl, rfl, id, fun _ => rfl, fun _ => id⟩

theorem linkKept_handOver {f : EgressFrame} (s : State) (hf : notProgram f.origin = true) :
    LinkKept s.hli (handOver f s).hli := by
  cases hl : s.hli.linkUp with
  | false =>
    rw [handOver, hl]
    exact linkKept_discard s f
  | true =>
    obtain ⟨c1, placing, up, counters⟩ := enqueue_notProgram (h := s.hli) hf
    obtain ⟨up', counters'⟩ := startPlacing_fields (enqueue f s.hli)
    refine ⟨?_, ?_, fun _ => ?_, fun hs => ?_, fun g hg => (mem_heldFrames_handOver hl).2 (.inr hg)⟩
    all_goals rw [handOver_linkUp hl, State.withHli_hli]
    · exact up'.trans up
    · rw [counters', counters]
    · exact linkSettled_startPlacing (up.trans hl)
    · rw [startPlacing_class1, c1]
      by_cases hp : s.hli.placing = none
      · have := hs.1 hp
        simp only [heldFrames, List.append_eq_nil_iff] at this
        exact .inr (c1.trans this.1.1.2)
      · exact .inl (placing ▸ hp)

theorem linkKept_handOverSpare {f : EgressFrame} (s : State) (hf : notProgram f.origin = true) :
    LinkKept s.hli (handOverSpare f s).hli := by
  unfold handOverSpare
  split
  · exact linkKept_handOver s hf
  · exact ⟨rfl, rfl, id, fun _ => rfl, fun _ => id⟩

theorem linkKept_raiseEvent (k : EventKind) (n d : Nat) (r : Option (BitVec 16)) (s : State) :
    LinkKept s.hli (raiseEvent k n r d s).hli := by
  unfold raiseEvent
  split
  · split
    · dsimp only
      split
      · unfold sendAttention
        split
        · exact .refl _
        next desk _ =>
          have spare (e : Evq) (f : EgressFrame) (hf : f.origin = .attention) :
              LinkKept s.hli (handOverSpare f (s.withEvq e)).hli := linkKept_handOverSpare (s.withEvq e) (by rw [hf]; rfl)
          exact spare _ _ rfl
      · exact .refl _
    · exact .refl _
  · exact .refl _

theorem linkKept_runSender (n : Nat) (s : State) : LinkKept s.hli (runSender n s).hli := by
  induction n generalizing s with
  | zero => exact .refl _
  | succ n ih =>
    rw [runSender]
    split
    · exact .refl _
    split
    · exact .refl _
    next r b _ =>
      have sent : LinkKept s.hli (sendCommand r b s).hli := linkKept_handOver (buildCommand r b s) rfl
      exact sent.trans (ih _)

/-! ### What a mix point's tours keep -/

/-- The mixing fields of a program: all but binding, owner and fallback. -/
def SameMixing (p q : Program) : Prop :=
  q.installed = p.installed ∧ q.pendingRec = p.pendingRec ∧ q.staged = p.staged ∧ q.duck = p.duck ∧
  q.clipped = p.clipped

theorem SameMixing.trans {p q r : Program} (h : SameMixing p q) (k : SameMixing q r) : SameMixing p r := by
  obtain ⟨h1, h2, h3, h4, h5⟩ := h
  obtain ⟨k1, k2, k3, k4, k5⟩ := k
  exact ⟨k1.trans h1, k2.trans h2, k3.trans h3, k4.trans h4, k5.trans h5⟩

/-- The mixing fields, the sequences and the arbiter's PROGRAM frames are kept. -/
structure MixKept (s t : State) : Prop where
  applyRequest : t.mxr.applyRequest = s.mxr.applyRequest
  programs : ∀ p, SameMixing (s.program p) (t.program p)
  seq : ∀ c, (t.channel c).seq = (s.channel c).seq
  link : LinkKept s.hli t.hli

theorem MixKept.refl (s : State) : MixKept s s := ⟨rfl, fun _ => ⟨rfl, rfl, rfl, rfl, rfl⟩, fun _ => rfl, .refl _⟩

theorem MixKept.trans (h : MixKept s t) (k : MixKept t u) : MixKept s u :=
  ⟨k.applyRequest.trans h.applyRequest, fun p => (h.programs p).trans (k.programs p),
    fun c => (k.seq c).trans (h.seq c), h.link.trans k.link⟩

theorem LinkKept.of_keeps {ps : List Part} (k : KeepsAllBut ps s t) (hp : Part.link ∉ ps ∧ Part.egress ∉ ps) :
    LinkKept s.hli t.hli := by
  have up : t.hli.linkUp = s.hli.linkUp := k .link hp.1
  obtain ⟨h1, h2, h3, h4, h5, -⟩ := k .egress hp.2
  have held : heldFrames t.hli = heldFrames s.hli := by simp only [heldFrames, h1, h2, h3, h4]
  exact ⟨up, congrArg _ h5, fun h => ⟨fun hp => held.trans (h.1 (h1 ▸ hp)), fun hd => h1.trans (h.2 (up ▸ hd))⟩,
    fun _ => h2, fun f hf => held ▸ hf⟩

theorem MixKept.of_keeps {ps : List Part} (k : KeepsAllBut ps s t) (hl : LinkKept s.hli t.hli)
    (hp : Part.programs ∉ ps ∧ Part.zones ∉ ps) : MixKept s t := by
  have same : t.mxr = s.mxr := k .programs hp.1
  exact ⟨by rw [same], fun p => by rw [k.program_eq hp.1]; exact ⟨rfl, rfl, rfl, rfl, rfl⟩,
    fun c => by rw [k.channel_eq hp.2], hl⟩

theorem MixKept.of_keeps_link {ps : List Part} (k : KeepsAllBut ps s t)
    (hp : (Part.programs ∉ ps ∧ Part.zones ∉ ps) ∧ Part.link ∉ ps ∧ Part.egress ∉ ps) : MixKept s t :=
  .of_keeps k (.of_keeps k hp.2) hp.1

theorem MixKept.putProgram {p : Fin 32} {x : Program} (h : SameMixing (s.program p) x) :
    MixKept s (s.putProgram p x) := by
  refine ⟨rfl, fun q => ?_, fun _ => rfl, .refl _⟩
  rw [State.putProgram_program]
  split
  next hq => exact hq ▸ h
  next => exact ⟨rfl, rfl, rfl, rfl, rfl⟩

theorem mixKept_setZones (ch : Fin 24) (zs : ZoneSet) (s : State) : MixKept s (setZones ch zs s) := by
  refine ⟨rfl, fun _ => ⟨rfl, rfl, rfl, rfl, rfl⟩, fun c => ?_, .refl _⟩
  rw [setZones_channel]
  split
  next h => rw [h]
  next => rfl

theorem mixKept_closed (k : Fin 16) : TourWorkClosed MixKept k where
  refl := MixKept.refl
  trans := MixKept.trans
  zones s _ ch zs _ _ := mixKept_setZones ch zs s
  anyZones s ch zs := mixKept_setZones ch zs s
  queue s z q := ⟨rfl, fun _ => ⟨rfl, rfl, rfl, rfl, rfl⟩, fun _ => rfl, .refl _⟩
  moved s k _ _ _ _ _ := .of_keeps_link (putLive_keeps (ps := [.tours]) .refl (by decide)) (by decide)
  event s k n r d := .of_keeps (raiseEvent_keeps (ps := [.events, .egress]) .refl (by decide) (by decide))
    (linkKept_raiseEvent k n d r s) (by decide)
  live s x := .of_keeps_link (putLive_keeps (ps := [.tours]) .refl (by decide)) (by decide)
  fallback s p x _ := .putProgram ⟨rfl, rfl, rfl, rfl, rfl⟩
  disown s p _ := .putProgram ⟨rfl, rfl, rfl, rfl, rfl⟩
  unbind s p := .putProgram ⟨rfl, rfl, rfl, rfl, rfl⟩
  freed s ch := by
    refine ⟨rfl, fun _ => ⟨rfl, rfl, rfl, rfl, rfl⟩, fun c => ?_, .refl _⟩
    rw [State.putChannel_channel]
    split
    next h => rw [h]
    next => rfl
  release s run h := .of_keeps_link (releaseOne_keeps (ps := [.receivers, .bays, .tours]) .refl (by decide) (by decide)
    (by decide)) (by decide)
  due s run h := .of_keeps_link (makeDueOne_keeps (ps := [.receivers]) .refl (by decide)) (by decide)
  overdue s h := by
    rw [overdueOne]
    split
    · exact .refl s
    split
    · split
      · exact (MixKept.of_keeps_link (putReceiver_keeps (ps := [.receivers]) .refl (by decide)) (by decide)).trans
          (.of_keeps (raiseEvent_keeps (ps := [.events, .egress]) .refl (by decide) (by decide))
            (linkKept_raiseEvent _ _ _ _ _) (by decide))
      · exact .refl s
    · exact .refl s

/-- What follows the PROGRAM frames of a mix point keeps them, the programs and the sequences. -/
theorem runMix_mixKept (before s : State) : MixKept (mixEmitted before s) (runMix before s) := by
  have used : MixKept (mixEmitted before s) (mixEmitted before s).useChoice :=
    .of_keeps_link (useChoice_keeps (ps := [.choices]) .refl (by decide)) (by decide)
  rw [runMix_eq]
  exact (used.trans (mixToured_closed mixKept_closed before s)).trans
    (.of_keeps (rackSender_keeps (ps := [.bays, .sender, .egress]) .refl (by decide) (by decide) (by decide))
      (linkKept_runSender 289 _) (by decide))

/-- The pass over the Source Table keeps the programs, the sequences and the arbiter's frames. -/
theorem takeSources_mixKept (s : State) : MixKept s (takeSources s) := by
  have each (i : Fin 48) (u : State) : MixKept u (mixSource i u) := by
    rw [mixSource]
    split
    · exact .refl u
    next r _ =>
      have put : MixKept u (u.putSource i (some (mixedSource r))) :=
        .of_keeps_link (putSource_keeps (ps := [.sources]) .refl (by decide)) (by decide)
      dsimp only
      split
      · exact put.trans (.of_keeps (raiseEvent_keeps (ps := [.events, .egress]) .refl (by decide) (by decide))
          (linkKept_raiseEvent _ _ _ _ _) (by decide))
      · exact put
  exact (mixKept_closed 0).forEach each _ s

end Sys2Proof.Machine
end

section
/-! The programs and the channels at a mix point: installed records, staged gains, duck factors, clipped frames and PROGRAM
frames (R24, R26, R30 to R33, R37, R38, R48, R166). -/

namespace Sys2Proof.Machine

open Sys2Proof

variable {s t u : State}

/-! ### Programs (R24, R26) -/

theorem installPending_eq (p : Program) :
    installPending p = { p with installed := effectiveRecord p, pendingRec := none } := by
  unfold installPending effectiveRecord
  cases hp : p.pendingRec with
  | none =>
    obtain ⟨_, pending, _, _, _, _, _, _⟩ := p
    obtain rfl : pending = none := hp
    rfl
  | some r => rfl

/-- The installed fields of a mix point: the effective record, with each staged gain of a present member when gains are
applied. -/
def gainedFields (apply : Bool) (p : Program) (r : ProgramFields) : ProgramFields :=
  if apply then { r with members := r.members.mapWith fun k m => stagedMember m (p.staged.get k) } else r

theorem preparedProgram_eq (apply : Bool) (p : Program) : preparedProgram apply p = { p with
    installed := (effectiveRecord p).map (gainedFields apply p), pendingRec := none
    staged := if apply then .fill 5 none else p.staged } := by
  rw [preparedProgram, installPending_eq]
  cases apply with
  | true => rfl
  | false =>
    have same : (effectiveRecord p).map (gainedFields false p) = effectiveRecord p := by
      cases effectiveRecord p <;> rfl
    rw [same]
    rfl

theorem gainedFields_same (apply : Bool) (p : Program) (r : ProgramFields) :
    (gainedFields apply p r).duckDepth = r.duckDepth ∧ (gainedFields apply p r).attack = r.attack ∧
    (gainedFields apply p r).release = r.release := by
  cases apply <;> exact ⟨rfl, rfl, rfl⟩

theorem gainedFields_member (apply : Bool) (p : Program) (r : ProgramFields) (k : Fin 5) :
    (gainedFields apply p r).members.get k = (r.members.get k).map fun m =>
      { m with gain := if apply then (p.staged.get k).getD m.gain else m.gain } := by
  cases apply with
  | false => cases h : r.members.get k <;> simp [gainedFields, h]
  | true =>
    simp only [gainedFields, if_true, Tab.get_mapWith]
    cases r.members.get k with
    | none => rfl
    | some m => cases p.staged.get k <;> rfl

/-- The fields of a program that a mix point leaves whether the program is on air or not. -/
theorem mixedProgram_fields (mode : HallMode) (apply : Bool) (feed : MixFeed) (p : Program) :
    (mixedProgram mode apply feed p).installed = (effectiveRecord p).map (gainedFields apply p) ∧
    (mixedProgram mode apply feed p).pendingRec = none ∧
    (mixedProgram mode apply feed p).staged = (if apply then .fill 5 none else p.staged) ∧
    (mixedProgram mode apply feed p).binding = p.binding := by
  unfold mixedProgram
  dsimp only
  split <;> rw [preparedProgram_eq] <;> exact ⟨rfl, rfl, rfl, rfl⟩

theorem mixedProgram_offAir {mode : HallMode} {apply : Bool} {feed : MixFeed} {p : Program}
    (h : p.binding = none ∨ mode = .closed) : (mixedProgram mode apply feed p).duck = p.duck ∧
      (mixedProgram mode apply feed p).clipped = p.clipped := by
  have off : onAir mode (preparedProgram apply p) = false := by
    rw [preparedProgram_eq]
    rcases h with h | h <;> simp [onAir, h]
  rw [mixedProgram, off, preparedProgram_eq]
  exact ⟨rfl, rfl⟩

theorem mixedProgram_onAir {apply : Bool} {feed : MixFeed} {p : Program} {r : ProgramFields}
    (hb : p.binding.isSome = true) (hr : effectiveRecord p = some r) :
    let r' := gainedFields apply p r
    let inputs := inputsOf feed r' p.fallback
    (mixedProgram .opened apply feed p).duck = duckStep r' (duckTarget r' inputs) p.duck ∧
    (mixedProgram .opened apply feed p).clipped =
      if mixClips (mixedProgram .opened apply feed p).duck inputs then min (p.clipped + 1) 4294967295 else p.clipped := by
  have on : onAir .opened (preparedProgram apply p) = true := by
    rw [preparedProgram_eq]
    simp [onAir, hb]
  rw [mixedProgram, if_pos on, preparedProgram_eq, hr]
  exact ⟨rfl, rfl⟩

/-! ### Voice-active inputs (R32) -/

/-- A source's voice flag is set (R14). -/
def Speaks (s : State) (i : Fin 48) : Prop := ∃ x, s.source i = some x ∧ x.live.voice = true

theorem mixFeed_voices (before after : State) (i : Fin 48) :
    (mixFeed before after).voices.get i = true ↔ Speaks after i := by
  rw [mixFeed, Tab.get_map, Speaks, State.source]
  cases after.siu.sources.get i <;> simp

/-- The voice-active set of a program has an input. -/
def VoiceActive (s : State) (r : ProgramFields) (fallback : Option (Fin 48)) : Prop :=
  (∃ k m, r.members.get k = some m ∧ m.cls = .voice ∧ Speaks s m.source) ∨ ∃ i, fallback = some i ∧ Speaks s i

theorem mem_items_iff {α : Type} {n : Nat} {tab : Tab α n} {x : α} : x ∈ tab.items ↔ ∃ k, tab.get k = x := by
  rw [Tab.items_eq, List.mem_map]
  simp

theorem any_voiceActive_iff {before after : State} {r : ProgramFields} {fallback : Option (Fin 48)} :
    ((inputsOf (mixFeed before after) r fallback).any fun x => decide (x.cls = .voice) && x.voice) = true ↔
      VoiceActive after r fallback := by
  rw [inputsOf, List.any_append, Bool.or_eq_true, VoiceActive]
  refine or_congr ?_ ?_
  · simp only [List.any_eq_true, List.mem_filterMap, Bool.and_eq_true, decide_eq_true_eq]
    constructor
    · rintro ⟨x, ⟨m, hm, hx⟩, hc, hv⟩
      obtain ⟨k, hk⟩ := mem_items_iff.1 hm
      obtain ⟨y, rfl, rfl⟩ := Option.map_eq_some_iff.1 hx
      exact ⟨k, y, hk, hc, (mixFeed_voices _ _ _).1 hv⟩
    · rintro ⟨k, m, hk, hc, hv⟩
      exact ⟨_, ⟨some m, mem_items_iff.2 ⟨k, hk⟩, rfl⟩, hc, (mixFeed_voices _ _ _).2 hv⟩
  · cases fallback <;> simp [mixFeed_voices]

theorem duckTarget_eq {before after : State} {r : ProgramFields} {fallback : Option (Fin 48)} {target : Nat}
    (h1 : VoiceActive after r fallback → target = r.duckDepth) (h2 : ¬ VoiceActive after r fallback → target = 32768) :
    duckTarget r (inputsOf (mixFeed before after) r fallback) = target := by
  unfold duckTarget
  split
  next h => exact (h1 (any_voiceActive_iff.1 h)).symm
  next h => exact (h2 fun hv => h (any_voiceActive_iff.2 hv)).symm

/-! ### The mix point -/

theorem mixPoint_mixKept (s : State) : MixKept (mixEmitted (reachMix s) (takeSources (reachMix s))) (mixPoint s) :=
  runMix_mixKept (reachMix s) (takeSources (reachMix s))

/-- The feed of a mix point is told by its states before and after. -/
theorem mixFeed_mixPoint (s : State) :
    mixFeed s (mixPoint s) = mixFeed (reachMix s) (takeSources (reachMix s)) := by
  have same : (mixPoint s).siu = (takeSources (reachMix s)).siu :=
    runMix_keeps (reachMix s) (s := takeSources (reachMix s)) .sources (by decide)
  simp only [mixFeed, same]
  rfl

/-- The Mixer's part of a mix point, with the feed told by the mix point's own states. -/
theorem mixPrograms_takeSources (s : State) (p : Fin 32) :
    (mixPrograms (mixFeed s (mixPoint s)) (takeSources (reachMix s))).program p =
      mixedProgram s.mge.mode s.mxr.applyRequest (mixFeed s (mixPoint s)) (s.program p) := by
  have k := takeSources_keeps (reachMix s)
  have mode : (takeSources (reachMix s)).mge.mode = s.mge.mode := k .mode (by decide)
  have mxr : (takeSources (reachMix s)).mxr = s.mxr := k .programs (by decide)
  simp only [mixPrograms, mode, mxr]
  exact Tab.get_map _ _ _

theorem mixEmitted_mxr (s : State) : (mixEmitted (reachMix s) (takeSources (reachMix s))).mxr =
    (mixPrograms (mixFeed s (mixPoint s)) (takeSources (reachMix s))).mxr := by
  rw [mixEmitted, ← mixFeed_mixPoint]
  exact emitPrograms_keeps (ps := [.zones, .egress]) .refl (by decide) (by decide) .programs (by decide)

/-- A program's mixing fields after a mix point. -/
theorem mixPoint_program (s : State) (p : Fin 32) :
    SameMixing (mixedProgram s.mge.mode s.mxr.applyRequest (mixFeed s (mixPoint s)) (s.program p))
      ((mixPoint s).program p) := by
  have kept := (mixPoint_mixKept s).programs p
  have emitted : (mixEmitted (reachMix s) (takeSources (reachMix s))).program p =
      (mixPrograms (mixFeed s (mixPoint s)) (takeSources (reachMix s))).program p := by
    rw [State.program, mixEmitted_mxr]
    rfl
  rw [emitted, mixPrograms_takeSources] at kept
  exact kept

/-- Settles O51: a program's record after the Mixer's part of the mix point, which the tours then leave as it is but for
binding, owner and fallback. -/
theorem mixPointRunsPrograms : Obligations.MixPointRunsPrograms := by
  unfold Obligations.MixPointRunsPrograms
  intro s
  refine ⟨mixPoint s, rfl, ?_, fun p => ?_⟩
  · refine (mixPoint_mixKept s).applyRequest.trans ?_
    rw [mixEmitted_mxr]
    rfl
  obtain ⟨installed, pending, staged, duck, clipped⟩ := mixPoint_program s p
  obtain ⟨installed', pending', staged', -⟩ := mixedProgram_fields s.mge.mode s.mxr.applyRequest
    (mixFeed s (mixPoint s)) (s.program p)
  refine ⟨pending.trans pending', fun k => ?_, fun hn => ?_, fun r hr => ?_⟩
  · rw [staged, staged']
    split
    · exact Tab.get_fill _ _
    · rfl
  · rw [installed, installed', effectiveRecord, hn]
    rfl
  have record : effectiveRecord (s.program p) = some r := hr
  obtain ⟨depth, attack, release⟩ := gainedFields_same s.mxr.applyRequest (s.program p) r
  refine ⟨gainedFields s.mxr.applyRequest (s.program p) r, ?_, depth, attack, release, fun k hk => ?_, fun k m hk => ?_,
    fun hoff => ?_, fun hb hm => ?_⟩
  · rw [installed, installed', record]
    rfl
  · rw [gainedFields_member, hk]
    rfl
  · rw [gainedFields_member, hk]
    rfl
  · rw [duck, clipped]
    exact mixedProgram_offAir hoff
  · intro speaks active g
    rw [duck, clipped, hm]
    obtain ⟨hduck, hclip⟩ := mixedProgram_onAir (apply := s.mxr.applyRequest) (feed := mixFeed s (mixPoint s)) hb record
    refine ⟨fun target h1 h2 => ?_, hclip⟩
    have aim := duckTarget_eq (before := s) (after := mixPoint s) (fallback := (s.program p).fallback)
      (r := gainedFields s.mxr.applyRequest (s.program p) r) (fun ha => (h1 ha).trans depth.symm) h2
    rw [hduck, aim, duckStep, attack, release]

/-! ### PROGRAM frames (R38, R48, R166) -/

theorem insertByChannel_perm (x : Fin 24 × Frame) (ys : List (Fin 24 × Frame)) :
    (insertByChannel x ys).Perm (x :: ys) := by
  induction ys with
  | nil => exact .refl _
  | cons y ys ih =>
    rw [insertByChannel]
    split
    · exact (ih.cons y).trans (.swap x y ys)
    · exact .refl _

theorem sortByChannel_perm (xs : List (Fin 24 × Frame)) : (sortByChannel xs).Perm xs := by
  suffices ∀ acc : List (Fin 24 × Frame), (xs.foldl (fun acc x => insertByChannel x acc) acc).Perm (acc ++ xs) from this []
  induction xs with
  | nil => exact fun acc => by simp
  | cons x xs ih =>
    intro acc
    exact (ih _).trans (((insertByChannel_perm x acc).append_right xs).trans List.perm_middle.symm)

theorem emitPrograms_eq (xs : List (Fin 24 × Frame)) (s : State) : emitPrograms xs s =
    if xs = [] then s else forEach (sortByChannel xs) emitProgram (supersede s) := by
  have sorted : sortByChannel xs = [] ↔ xs = [] :=
    ⟨fun h => (h ▸ sortByChannel_perm xs).symm.eq_nil, fun h => by rw [h]; rfl⟩
  unfold emitPrograms
  split
  next h => rw [if_pos (sorted.1 h)]
  next h => rw [if_neg (mt sorted.2 h)]

theorem emitProgram_channel (x : Fin 24 × Frame) (s : State) (c : Fin 24) : (emitProgram x s).channel c =
    if c = x.1 then { s.channel c with seq := (s.channel c).seq + 1 } else s.channel c := by
  have k := handOver_keeps (ps := [.egress]) (f := buildProgram s x.1 x.2)
    (t := s.putChannel x.1 { s.channel x.1 with seq := (s.channel x.1).seq + 1 }) .refl (by decide) (List.nil_subset _)
  rw [emitProgram, k.channel_eq (by decide), State.putChannel_channel]
  split
  next h => rw [h]
  next => rfl

theorem emitProgram_linkUp {x : Fin 24 × Frame} (h : s.hli.linkUp = true) : (emitProgram x s).hli.linkUp = true ∧
    (emitProgram x s).hli.counters = s.hli.counters ∧
    ∀ g, g ∈ heldFrames (emitProgram x s).hli ↔ g = buildProgram s x.1 x.2 ∨ g ∈ heldFrames s.hli := by
  have up : (s.putChannel x.1 { s.channel x.1 with seq := (s.channel x.1).seq + 1 }).hli.linkUp = true := h
  refine ⟨?_, ?_, fun g => mem_heldFrames_handOver up⟩
  · rw [emitProgram, handOver_linkUp up]
    exact (startPlacing_fields _).1.trans h
  · rw [emitProgram, handOver_linkUp up]
    exact (startPlacing_fields _).2

/-- The sequences after PROGRAM frames are handed over, whatever the link. -/
theorem forEach_emitProgram_seq (ys : List (Fin 24 × Frame)) (s : State) (c : Fin 24) :
    ((forEach ys emitProgram s).channel c).seq =
      (s.channel c).seq + BitVec.ofNat 16 (ys.countP fun y => decide (y.1 = c)) := by
  induction ys generalizing s with
  | nil => exact (BitVec.add_zero _).symm
  | cons y ys ih =>
    refine (ih (emitProgram y s)).trans ?_
    rw [emitProgram_channel, List.countP_cons]
    by_cases h : c = y.1
    · subst h
      rw [if_pos rfl, BitVec.add_assoc, BitVec.ofNat_add, BitVec.add_comm 1]
      simp
    · simp [h, Ne.symm h]

/-- Over a link that is UP the frames held stay held, and the one frame of a channel is held with the zone set and the
sequence that the channel had. -/
theorem forEach_emitProgram_linkUp (ys : List (Fin 24 × Frame)) (s : State) (h : s.hli.linkUp = true) :
    (forEach ys emitProgram s).hli.linkUp = true ∧ (forEach ys emitProgram s).hli.counters = s.hli.counters ∧
    (∀ g ∈ heldFrames s.hli, g ∈ heldFrames (forEach ys emitProgram s).hli) ∧
    ∀ x ∈ ys, (∀ y ∈ ys, y.1 = x.1 → y = x) →
      buildProgram s x.1 x.2 ∈ heldFrames (forEach ys emitProgram s).hli := by
  induction ys generalizing s with
  | nil => exact ⟨h, rfl, fun _ hg => hg, fun x hx => by simp at hx⟩
  | cons y ys ih =>
    obtain ⟨up, counters, held⟩ := emitProgram_linkUp (x := y) h
    obtain ⟨up', counters', held', built⟩ := ih (emitProgram y s) up
    refine ⟨up', counters'.trans counters, fun g hg => held' g ((held g).2 (.inr hg)), fun x hx unique => ?_⟩
    by_cases hy : y.1 = x.1
    · obtain rfl := unique y (by simp) hy
      exact held' _ ((held _).2 (.inl rfl))
    · have hx : x ∈ ys := (List.mem_cons.1 hx).resolve_left fun e => hy (e ▸ rfl)
      have same : buildProgram (emitProgram y s) x.1 x.2 = buildProgram s x.1 x.2 := by
        simp only [buildProgram, emitProgram_channel, if_neg (Ne.symm hy)]
      exact same ▸ built x hx fun z hz => unique z (by simp [hz])

/-- The frame an on-air program hands over. -/
theorem programFrame_eq (mode : HallMode) (apply : Bool) (feed : MixFeed) (p : Program) :
    programFrame mode apply feed p = if mode = .opened then p.binding.map fun c =>
      (c, mixFrame (nextDuck feed (preparedProgram apply p)) (programInputs feed (preparedProgram apply p))) else none := by
  have binding : (preparedProgram apply p).binding = p.binding := by rw [preparedProgram_eq]
  unfold programFrame
  dsimp only
  rw [binding]
  cases p.binding <;> cases mode <;> rfl

/-- The frames that a mix point hands over, in program order. -/
def mixFrames (s : State) : List (Fin 24 × Frame) :=
  (indices 32).filterMap fun p => programFrame s.mge.mode s.mxr.applyRequest (mixFeed s (mixPoint s)) (s.program p)

/-- The state of a mix point in which the PROGRAM frames are built. -/
def mixPrepared (s : State) : State :=
  mixPrograms (mixFeed s (mixPoint s)) (takeSources (reachMix s))

theorem mixEmitted_eq (s : State) : mixEmitted (reachMix s) (takeSources (reachMix s)) =
    emitPrograms (mixFrames s) (mixPrepared s) := by
  have k := takeSources_keeps (reachMix s)
  have mode : (takeSources (reachMix s)).mge.mode = s.mge.mode := k .mode (by decide)
  have mxr : (takeSources (reachMix s)).mxr = s.mxr := k .programs (by decide)
  rw [mixEmitted, ← mixFeed_mixPoint, framesOnAir, mode, mxr, Tab.items_eq, List.filterMap_map]
  rfl

theorem mixFrames_closed (h : s.mge.mode = .closed) : mixFrames s = [] := by
  simp [mixFrames, programFrame_eq, h]

theorem mem_mixFrames {x : Fin 24 × Frame} (h : s.mge.mode = .opened) : x ∈ mixFrames s ↔
    ∃ p, (s.program p).binding = some x.1 ∧
      x.2 = mixFrame (nextDuck (mixFeed s (mixPoint s)) (preparedProgram s.mxr.applyRequest (s.program p)))
        (programInputs (mixFeed s (mixPoint s)) (preparedProgram s.mxr.applyRequest (s.program p))) := by
  simp only [mixFrames, programFrame_eq, h, if_true, List.mem_filterMap, List.mem_finRange, true_and,
    Option.map_eq_some_iff]
  constructor
  · rintro ⟨p, c, hb, rfl⟩
    exact ⟨p, hb, rfl⟩
  · rintro ⟨p, hb, hf⟩
    exact ⟨p, x.1, hb, by rw [← hf]⟩

theorem countP_mixFrames (s : State) (c : Fin 24) : (mixFrames s).countP (fun y => decide (y.1 = c)) =
    if s.mge.mode = .opened then ((indices 32).filter fun p => decide ((s.program p).binding = some c)).length else 0 := by
  split
  next h =>
    rw [mixFrames, List.countP_filterMap, ← List.countP_eq_length_filter]
    refine List.countP_congr fun p _ => ?_
    rw [programFrame_eq, if_pos h]
    cases (s.program p).binding <;> simp
  next h =>
    rw [mixFrames_closed (by cases hm : s.mge.mode <;> simp_all)]
    rfl

theorem mixPrograms_channel (feed : MixFeed) (s : State) (c : Fin 24) :
    (mixPrograms feed s).channel c = s.channel c := rfl

theorem mixPrograms_hli (feed : MixFeed) (s : State) : (mixPrograms feed s).hli = s.hli := rfl

theorem mixPrepared_channel (s : State) (c : Fin 24) : (mixPrepared s).channel c = s.channel c := by
  rw [mixPrepared, mixPrograms_channel, (takeSources_keeps (reachMix s)).channel_eq (by decide)]
  rfl

theorem mixPrepared_link (s : State) : LinkKept s.hli (mixPrepared s).hli := by
  rw [mixPrepared, mixPrograms_hli]
  exact (takeSources_mixKept (reachMix s)).link

theorem supersede_channel (s : State) (c : Fin 24) : (supersede s).channel c = s.channel c := rfl

theorem supersede_linkUp (s : State) : (supersede s).hli.linkUp = s.hli.linkUp := rfl

theorem supersede_superseded (s : State) : (supersede s).hli.counters.superseded =
    min (s.hli.counters.superseded + s.hli.class1.length) 4294967295 := rfl

/-- The sequences after a mix point. -/
theorem mixPoint_seq (s : State) (c : Fin 24) : ((mixPoint s).channel c).seq = (s.channel c).seq +
    BitVec.ofNat 16 (if s.mge.mode = .opened then
      ((indices 32).filter fun p => decide ((s.program p).binding = some c)).length else 0) := by
  have emitted : ((mixEmitted (reachMix s) (takeSources (reachMix s))).channel c).seq = (s.channel c).seq +
      BitVec.ofNat 16 ((mixFrames s).countP fun y => decide (y.1 = c)) := by
    rw [mixEmitted_eq, emitPrograms_eq]
    split
    next h => simp [h, mixPrepared_channel]
    next h =>
      rw [forEach_emitProgram_seq, (sortByChannel_perm _).countP_eq, supersede_channel, mixPrepared_channel]
  rw [← countP_mixFrames, ← emitted]
  exact (mixPoint_mixKept s).seq c

/-- The payload of a program's PROGRAM frame (Table 8-5). -/
theorem buildProgram_eq (s : State) (c : Fin 24) (f : Frame) : buildProgram s c f =
    { dest := 0xFFFF#16, origin := .program c
      payload := [BitVec.ofNat 8 c.val] ++ enc16 (s.channel c).zones.toNat ++ enc16 (s.channel c).seq.toNat ++
        (f.items.map fun x => enc16 x.toNat).flatten } := rfl

/-- The frame of an on-air program with installed fields. -/
theorem mixFrame_of_onAir {p : Fin 32} {c : Fin 24} {r : ProgramFields} (hm : s.mge.mode = .opened)
    (hb : (s.program p).binding = some c) (hr : ((mixPoint s).program p).installed = some r) :
    mixFrame (nextDuck (mixFeed s (mixPoint s)) (preparedProgram s.mxr.applyRequest (s.program p)))
      (programInputs (mixFeed s (mixPoint s)) (preparedProgram s.mxr.applyRequest (s.program p))) =
    mixFrame ((mixPoint s).program p).duck
      (inputsOf (mixFeed s (mixPoint s)) r (s.program p).fallback) := by
  obtain ⟨installed, -, -, duck, -⟩ := mixPoint_program s p
  obtain ⟨installed', -⟩ := mixedProgram_fields s.mge.mode s.mxr.applyRequest (mixFeed s (mixPoint s)) (s.program p)
  have record : (effectiveRecord (s.program p)).map (gainedFields s.mxr.applyRequest (s.program p)) = some r :=
    installed'.symm.trans (installed.symm.trans hr)
  obtain ⟨r0, hr0, rfl⟩ := Option.map_eq_some_iff.1 record
  obtain ⟨hduck, -⟩ := mixedProgram_onAir (apply := s.mxr.applyRequest) (feed := mixFeed s (mixPoint s))
    (by rw [hb]; rfl) hr0
  rw [duck, hm, hduck, nextDuck, programInputs, preparedProgram_eq, record]
  rfl

/-- Settles O52: the sequences, and the arbiter after the hand-over of the frames, which the tours and the rack sender
leave there. -/
theorem mixPointEmitsFrames : Obligations.MixPointEmitsFrames := by
  unfold Obligations.MixPointEmitsFrames
  intro s settled
  have before := mixPrepared_link s
  have after := (mixPoint_mixKept s).link
  rw [mixEmitted_eq] at after
  refine ⟨mixPoint s, rfl, mixPoint_seq s, fun hm => ?_, fun hm hl p c r hb unique hr => ?_⟩
  · rw [mixFrames_closed hm] at after
    have through : LinkKept s.hli (mixPoint s).hli := before.trans after
    exact ⟨through.class1 settled, through.superseded⟩
  have mine : (c, mixFrame ((mixPoint s).program p).duck
      (inputsOf (mixFeed s (mixPoint s)) r (s.program p).fallback)) ∈ mixFrames s :=
    (mem_mixFrames hm).2 ⟨p, hb, (mixFrame_of_onAir hm hb hr).symm⟩
  have alone : ∀ y ∈ mixFrames s, y.1 = c → y = (c, mixFrame ((mixPoint s).program p).duck
      (inputsOf (mixFeed s (mixPoint s)) r (s.program p).fallback)) := by
    intro y hy hc
    obtain ⟨q, hq, hf⟩ := (mem_mixFrames hm).1 hy
    obtain rfl := unique q (hc ▸ hq)
    exact Prod.ext hc (hf.trans (mixFrame_of_onAir hm hb hr))
  have some_ : mixFrames s ≠ [] := List.ne_nil_of_mem mine
  have up : (supersede (mixPrepared s)).hli.linkUp = true := by rw [supersede_linkUp, before.linkUp, hl]
  obtain ⟨-, counters, -, built⟩ := forEach_emitProgram_linkUp (sortByChannel (mixFrames s)) _ up
  rw [emitPrograms_eq, if_neg some_] at after
  constructor
  · rw [after.superseded, counters, supersede_superseded, before.superseded, before.class1 settled]
  · have held := after.held _ (built _ ((sortByChannel_perm _).mem_iff.2 mine) fun y hy hc =>
      alone y ((sortByChannel_perm _).mem_iff.1 hy) hc)
    rw [buildProgram_eq, supersede_channel, mixPrepared_channel] at held
    exact held

end Sys2Proof.Machine
end

section
/-! What the work of the Charge Scheduler, the Rack Poller and the Fleet Table on bays is made of: a relation between states
that holds over each of its small writes holds over the end of a turn, a dock, an undock and a reading. -/

namespace Sys2Proof.Machine

open Sys2Proof

variable {s t u : State} {R : State → State → Prop}

/-- A relation that holds over every write of the Charge Scheduler that leaves the bands as they are (R143 to R150, R153). -/
structure ChargeClosed (R : State → State → Prop) : Prop where
  refl : ∀ s, R s s
  trans : ∀ {s t u}, R s t → R t u → R s u
  flags : ∀ s a m p v, R s (s.putBay a { s.bay a with mode := m, pending := p, served := v })
  turnSettle : ∀ s a, R s (startTurnSettle a s)
  sched : ∀ s r q, q.band = (s.sched r).band → R s (s.putSched r q)
  countTurn : ∀ s a, R s (countTurn a s)

/-- A relation that holds over every write of a dock, an undock or a reading (R94 to R101, R120 to R124). -/
structure BayWorkClosed (R : State → State → Prop) : Prop extends ChargeClosed R where
  bay : ∀ s a x, R s (s.putBay a x)
  receiver : ∀ s h x, R s (s.putReceiver h x)
  issued : ∀ s k, R s (noteIssued k s)
  returned : ∀ s k, R s (noteReturned k s)
  fleet : ∀ s x, x.receivers = s.flt.receivers → R s (s.withFlt x)
  event : ∀ s k n r d, R s (raiseEvent k n r d s)

namespace ChargeClosed

theorem forEach (h : ChargeClosed R) {α : Type} {f : α → State → State} (hf : ∀ x s, R s (f x s)) (items : List α)
    (s : State) : R s (forEach items f s) := by
  induction items generalizing s with
  | nil => exact h.refl s
  | cons x xs ih => exact h.trans (hf x s) (ih _)

theorem setMode (h : ChargeClosed R) (a : Fin 288) (m : ChargeMode) (s : State) : R s (setMode a m s) := by
  simp only [Machine.setMode]
  split
  exacts [h.refl s, h.flags s a _ _ _]

theorem judge (h : ChargeClosed R) (a : Fin 288) (s : State) : R s (judge a s) := h.setMode _ _ _

theorem judgeRack (h : ChargeClosed R) (rack : Fin 12) (s : State) : R s (judgeRack rack s) := by
  refine h.forEach (fun b t => ?_) _ s
  split
  exacts [h.refl t, h.judge _ t]

theorem restartCadence (h : ChargeClosed R) (rack : Fin 12) (s : State) : R s (restartCadence rack s) :=
  h.sched _ _ _ (by rfl)

theorem stopTurn (h : ChargeClosed R) (rack : Fin 12) (b : Fin 24) (s : State) : R s (stopTurn rack b s) :=
  h.trans (h.trans (h.sched s rack _ (by rfl)) (h.judge _ _)) (h.turnSettle _ _)

theorem trimTurns (h : ChargeClosed R) (rack : Fin 12) (n : Nat) (s : State) : R s (trimTurns rack n s) :=
  h.forEach (fun _ _ => h.stopTurn _ _ _) _ s

theorem leaveOnline (h : ChargeClosed R) (rack : Fin 12) (s : State) : R s (leaveOnline rack s) :=
  h.trans (h.trimTurns _ _ _) (h.sched _ _ _ (by rfl))

theorem refreshCapacity (h : ChargeClosed R) (rack : Fin 12) (s : State) : R s (refreshCapacity rack s) := by
  have trimmed (n : Nat) := h.trans (h.sched s rack { s.sched rack with capacity := n } (by rfl)) (h.trimTurns rack n _)
  simp only [Machine.refreshCapacity]
  split
  · exact h.trans (trimmed _) (h.sched _ _ _ (by rfl))
  split
  · exact h.trans (trimmed _) (h.restartCadence _ _)
  · exact trimmed _

theorem newRound (h : ChargeClosed R) (rack : Fin 12) (s : State) : R s (newRound rack s) :=
  h.trans (h.forEach (fun b u => h.flags u (bayAddress rack b) _ _ _) _ s) (h.sched _ _ _ (by rfl))

theorem resync (h : ChargeClosed R) (rack : Fin 12) (s : State) : R s (resync rack s) :=
  h.trans (h.trans (h.trans (h.newRound rack s) (h.sched _ rack _ (by rfl))) (h.judgeRack _ _)) (h.restartCadence _ _)

theorem selectBay (h : ChargeClosed R) (rack : Fin 12) (s : State) : R s (selectBay rack s).2 := by
  rw [Machine.selectBay]
  split
  · exact h.refl s
  split
  exacts [h.newRound _ _, h.refl s]

theorem startTurn (h : ChargeClosed R) (rack : Fin 12) (b : Fin 24) (s : State) : R s (startTurn rack b s) :=
  h.trans (h.trans (h.trans (h.trans (h.sched s rack _ (by rfl)) (h.flags _ (bayAddress rack b) _ _ _))
    (h.setMode _ _ _)) (h.turnSettle _ _)) (h.countTurn _ _)

theorem startSelected (h : ChargeClosed R) (rack : Fin 12) {pay : Sched → Sched} (hp : ∀ q, (pay q).band = q.band)
    (s : State) : R s (startSelected rack pay s) := by
  have selected := h.selectBay rack s
  rw [Machine.startSelected]
  split
  next b t hs =>
    rw [hs] at selected
    exact h.trans (h.trans selected (h.startTurn rack b t)) (h.sched _ rack _ (hp _))
  next t hs =>
    rw [hs] at selected
    exact selected

theorem followTurn (h : ChargeClosed R) (rack : Fin 12) (s : State) : R s (followTurn rack s) := by
  simp only [Machine.followTurn]
  repeat' split
  exacts [h.startSelected rack (fun _ => by rfl) s, h.refl s, h.startSelected rack (fun _ => by rfl) s, h.refl s, h.refl s]

theorem endTurn (h : ChargeClosed R) (rack : Fin 12) (b : Fin 24) (s : State) : R s (endTurn rack b s) :=
  h.trans (h.stopTurn _ _ _) (h.followTurn _ _)

theorem endOrJudge (h : ChargeClosed R) (a : Fin 288) (s : State) : R s (endOrJudge a s) := by
  unfold Machine.endOrJudge
  split
  exacts [h.endTurn _ _ _, h.judge _ _]

theorem chargeReading (h : ChargeClosed R) (a : Fin 288) (s : State) : R s (chargeReading a s) := by
  have judged := h.judge a s
  unfold Machine.chargeReading
  dsimp only
  split
  · generalize (_ || _ : Bool) = ends
    cases ends
    exacts [h.refl s, h.endTurn _ _ _]
  · exact judged

end ChargeClosed

namespace BayWorkClosed

theorem setAssign (h : BayWorkClosed R) (a : Fin 288) (x : Option Assignment) (s : State) : R s (setAssign a x s) := by
  simp only [Machine.setAssign]
  split
  exacts [h.refl s, h.bay s a _]

theorem markRackPending (h : BayWorkClosed R) (rack : Fin 12) (s : State) : R s (markRackPending rack s) :=
  h.forEach (fun _ s => h.bay s _ _) _ s

theorem raiseBay (h : BayWorkClosed R) (c : Bool) (k : EventKind) (a : Fin 288) (d : Nat) (s : State) :
    R s (raiseBay c k a d s) := by
  unfold Machine.raiseBay
  split
  exacts [h.event _ _ _ _ _, h.refl s]

theorem clearBay (h : BayWorkClosed R) (a : Fin 288) (s : State) : R s (clearBay a s) :=
  h.trans (h.bay s a _) (h.setAssign _ _ _)

theorem bayEmptied (h : BayWorkClosed R) (old : Bay) (a : Fin 288) (s : State) : R s (bayEmptied old a s) :=
  h.trans (h.trans (h.trans (h.trans (h.trans (h.bay s a _) (h.raiseBay _ _ _ _ _)) (h.raiseBay _ _ _ _ _))
    (h.raiseBay _ _ _ _ _)) (h.raiseBay _ _ _ _ _)) (h.endOrJudge _ _)

theorem fleetUndock (h : BayWorkClosed R) (a : Fin 288) (n : Fin 384) (s : State) : R s (fleetUndock a n s) := by
  have cleared := h.clearBay a s
  simp only [Machine.fleetUndock]
  split
  · exact cleared
  split
  · exact h.trans (h.trans (h.trans cleared (h.receiver _ _ _)) (h.issued _ _)) (h.event _ _ _ _ _)
  · exact h.trans (h.trans (h.trans cleared (h.receiver _ _ _)) (h.fleet _ _ (by rfl))) (h.event _ _ _ _ _)
  · exact h.trans cleared (h.receiver _ _ _)

theorem undockBay (h : BayWorkClosed R) (a : Fin 288) (s : State) : R s (undockBay a s) := by
  simp only [Machine.undockBay]
  split
  exacts [h.refl s, h.trans (h.fleetUndock _ _ _) (h.bayEmptied _ _ _), h.trans (h.clearBay _ _) (h.bayEmptied _ _ _)]

theorem placeReceiver (h : BayWorkClosed R) (a : Fin 288) (n : Fin 384) (r : Receiver) (s : State) :
    R s (placeReceiver a n r s) := h.trans (h.receiver s n _) (h.bay _ _ _)

/-- An ISSUED receiver that returns is counted at its run (R70). -/
def countReturn (r : Receiver) (s : State) : State :=
  match r.phase, r.tour with
  | .issued, some ref => noteReturned ref.slot s
  | _, _ => s

/-- A late return is counted (R95). -/
def countLate (late : Bool) (s : State) : State :=
  if late then s.withFlt { s.flt with lateReturns := satAdd s.flt.lateReturns 1 } else s

/-- The record of a known receiver that docks (R95). -/
def returnedReceiver (r : Receiver) : Receiver :=
  { r with phase := .docked, tour := none, issueTime := none, deadline := none, short := false, required := none }

/-- A receiver comes back late. -/
def returnsLate (r : Receiver) : Bool := decide (r.phase = .due) || decide (r.phase = .overdue)

theorem dockKnown_eq (a : Fin 288) (n : Fin 384) (r : Receiver) (s : State) : dockKnown a n r s =
    let w := countLate (returnsLate r)
      (countReturn r (Machine.setAssign a none (Machine.placeReceiver a n (returnedReceiver r) s)))
    if decide (r.phase = .stray) || decide (r.phase = .issued) || returnsLate r then
      raiseEvent .returned n.val none (a.val + if returnsLate r then 32768 else 0) w
    else w := rfl

theorem dockKnown (h : BayWorkClosed R) (a : Fin 288) (n : Fin 384) (r : Receiver) (s : State) :
    R s (dockKnown a n r s) := by
  have counted (u : State) : R u (countReturn r u) := by
    unfold countReturn
    split
    exacts [h.returned _ _, h.refl u]
  have late (c : Bool) (u : State) : R u (countLate c u) := by
    unfold countLate
    split
    exacts [h.fleet _ _ (by rfl), h.refl u]
  have docked := h.trans (h.trans (h.trans (h.placeReceiver a n (returnedReceiver r) s) (h.setAssign a none _))
    (counted _)) (late (returnsLate r) _)
  rw [dockKnown_eq]
  dsimp only
  split
  exacts [h.trans docked (h.event _ _ _ _ _), docked]

theorem moveReceiver (h : BayWorkClosed R) (o a : Fin 288) (n : Fin 384) (s : State) : R s (moveReceiver o a n s) := by
  have emptied := h.trans (h.clearBay o s) (h.bayEmptied (s.bay o) o _)
  simp only [Machine.moveReceiver]
  split
  · exact emptied
  split <;> exact h.trans (h.trans emptied (h.placeReceiver _ _ _ _)) (h.setAssign _ _ _)

theorem enrolInto (h : BayWorkClosed R) (a : Fin 288) (n : Fin 384) (g : RxTag) (s : State) : R s (enrolInto a n g s) :=
  h.trans (h.placeReceiver _ _ _ _) (h.setAssign _ _ _)

theorem dockUnknown (h : BayWorkClosed R) (a : Fin 288) (g : RxTag) (s : State) : R s (dockUnknown a g s) :=
  h.trans (h.trans (h.trans (h.bay s a _) (h.setAssign _ _ _)) (h.fleet _ _ (by rfl))) (h.event _ _ _ _ _)

theorem undockFormer (h : BayWorkClosed R) (a : Fin 288) (g : RxTag) (s : State) : R s (undockFormer a g s) := by
  unfold Machine.undockFormer
  repeat' split
  exacts [h.refl s, h.undockBay _ _, h.refl s, h.refl s, h.refl s]

theorem fleetDock (h : BayWorkClosed R) (a : Fin 288) (g : RxTag) (s : State) : R s (fleetDock a g s) := by
  have former := h.undockFormer a g s
  simp only [Machine.fleetDock]
  split
  · split
    · exact former
    split
    · split
      exacts [h.trans former (h.bay _ _ _), h.trans former (h.moveReceiver _ _ _ _)]
    · exact h.trans former (h.dockKnown _ _ _ _)
  · split
    exacts [h.trans former (h.enrolInto _ _ _ _), h.trans former (h.dockUnknown _ _ _),
      h.trans former (h.dockUnknown _ _ _)]

theorem dockBay (h : BayWorkClosed R) (a : Fin 288) (g : RxTag) (s : State) : R s (dockBay a g s) :=
  h.trans (h.trans (h.trans (h.fleetDock a g s) (h.bay _ _ _)) (h.event _ _ _ _ _)) (h.judge _ _)

theorem comparePresence (h : BayWorkClosed R) (a : Fin 288) (g : Option RxTag) (s : State) :
    R s (comparePresence a g s) := by
  unfold Machine.comparePresence
  repeat' split
  exacts [h.refl s, h.dockBay _ _ _, h.refl s, h.dockBay _ _ _, h.dockBay _ _ _, h.refl s,
    h.trans (h.undockBay _ _) (h.dockBay _ _ _), h.undockBay _ _, h.undockBay _ _]

theorem fleetReading (h : BayWorkClosed R) (a : Fin 288) (s : State) : R s (fleetReading a s) := by
  simp only [Machine.fleetReading]
  repeat' split
  exacts [h.refl s, h.receiver _ _ _, h.refl s, h.refl s, h.refl s]

theorem raiseEdges (h : BayWorkClosed R) (o n : Bay) (a : Fin 288) (s : State) : R s (raiseEdges o n a s) :=
  h.trans (h.trans (h.raiseBay _ _ _ _ _) (h.raiseBay _ _ _ _ _)) (h.raiseBay _ _ _ _ _)

theorem readElectrical (h : BayWorkClosed R) (a : Fin 288) (v : Nat) (f : Bool) (s : State) :
    R s (readElectrical a v f s) := by
  simp only [Machine.readElectrical]
  repeat' split
  exacts [h.refl s, h.trans (h.trans (h.trans (h.bay s a _) (h.raiseEdges _ _ _ _)) (h.fleetReading _ _))
    (h.chargeReading _ _), h.trans (h.trans (h.bay s a _) (h.fleetReading _ _)) (h.judge _ _), h.refl s, h.refl s]

theorem readReported (h : BayWorkClosed R) (a : Fin 288) (m : ChargeMode) (x : Option Assignment) (s : State) :
    R s (readReported a m x s) := h.bay _ _ _

end BayWorkClosed

/-! ### Events, bands and racks under work on bays -/

theorem reports_bayWork : BayWorkClosed Reports where
  refl s := Reports.of_keeps (ps := []) .refl (by decide)
  trans := Reports.trans
  flags s a _ _ _ := .of_keeps (putBay_keeps (ps := [.bays]) .refl (by decide)) (by decide)
  turnSettle s a := .of_keeps (startTurnSettle_keeps (ps := [.bays]) .refl (by decide)) (by decide)
  sched s r q _ := .of_keeps (putSched_keeps (ps := [.sched]) .refl (by decide)) (by decide)
  countTurn s a := .of_keeps (countTurn_keeps (ps := [.receivers]) .refl (by decide)) (by decide)
  bay s a x := .of_keeps (putBay_keeps (ps := [.bays]) .refl (by decide)) (by decide)
  receiver s h x := .of_keeps (putReceiver_keeps (ps := [.receivers]) .refl (by decide)) (by decide)
  issued s k := .of_keeps (noteIssued_keeps (ps := [.tours]) .refl (by decide)) (by decide)
  returned s k := .of_keeps (noteReturned_keeps (ps := [.tours]) .refl (by decide)) (by decide)
  fleet s x hx := .of_keeps (withFlt_keeps (ps := [.fleetCounters]) .refl hx (by decide)) (by decide)
  event s k n r d := .event k n r d s

/-- The bands are kept. -/
def SameBands (s t : State) : Prop := ∀ r, (t.sched r).band = (s.sched r).band

theorem SameBands.of_keeps {ps : List Part} (k : KeepsAllBut ps s t) (hp : Part.sched ∉ ps) : SameBands s t :=
  fun r => congrArg Sched.band (k.sched_eq hp r)

theorem sameBands_putSched {r : Fin 12} {q : Sched} (h : q.band = (s.sched r).band) : SameBands s (s.putSched r q) := by
  intro r'
  rw [State.putSched_sched]
  split
  next e => rw [e, h]
  next => rfl

theorem sameBands_bayWork : BayWorkClosed SameBands where
  refl _ _ := rfl
  trans h k r := (k r).trans (h r)
  flags s a _ _ _ := .of_keeps (putBay_keeps (ps := [.bays]) .refl (by decide)) (by decide)
  turnSettle s a := .of_keeps (startTurnSettle_keeps (ps := [.bays]) .refl (by decide)) (by decide)
  sched s r q h := sameBands_putSched h
  countTurn s a := .of_keeps (countTurn_keeps (ps := [.receivers]) .refl (by decide)) (by decide)
  bay s a x := .of_keeps (putBay_keeps (ps := [.bays]) .refl (by decide)) (by decide)
  receiver s h x := .of_keeps (putReceiver_keeps (ps := [.receivers]) .refl (by decide)) (by decide)
  issued s k := .of_keeps (noteIssued_keeps (ps := [.tours]) .refl (by decide)) (by decide)
  returned s k := .of_keeps (noteReturned_keeps (ps := [.tours]) .refl (by decide)) (by decide)
  fleet s x hx := .of_keeps (withFlt_keeps (ps := [.fleetCounters]) .refl hx (by decide)) (by decide)
  event s k n r d := .of_keeps (raiseEvent_keeps (ps := [.events, .egress]) .refl (by decide) (by decide)) (by decide)

end Sys2Proof.Machine
end

section
/-! The band of a temperature (R139, R140), the fields of a BAY STATUS (Table 8-6), and what a BAY STATUS leaves of polls
and bands (R117, R120). -/

namespace Sys2Proof.Machine

open Sys2Proof

variable {s t u : State}

/-! ### Bands (R139, R140) -/

theorem length_filter_lt_seven : ∀ j : Fin 7, ((indices 7).filter fun i => decide (i < j)).length = j.val := by decide

theorem length_filter_le_seven : ∀ j : Fin 7, ((indices 7).filter fun i => decide (i ≤ j)).length = j.val + 1 := by
  decide

/-- A boundary satisfies a downward closed property exactly when its number lies below the count of those that do. -/
theorem iff_lt_count {p : Fin 7 → Bool} (hp : ∀ i j, i < j → p j = true → p i = true) (j : Fin 7) :
    p j = true ↔ j.val < ((indices 7).filter p).length := by
  constructor
  · intro h
    have sub : (indices 7).filter (fun i => decide (i ≤ j)) = ((indices 7).filter p).filter fun i => decide (i ≤ j) := by
      rw [List.filter_filter]
      refine List.filter_congr fun i _ => ?_
      by_cases hij : i ≤ j
      · have : p i = true := (lt_or_eq_of_le hij).elim (fun hlt => hp i j hlt h) fun he => he ▸ h
        simp [hij, this]
      · simp [hij]
    have := List.length_filter_le (fun i => decide (i ≤ j)) ((indices 7).filter p)
    rw [← sub, length_filter_le_seven] at this
    omega
  · intro h
    by_contra hn
    have sub : (indices 7).filter p = ((indices 7).filter fun i => decide (i < j)).filter p := by
      rw [List.filter_filter]
      refine List.filter_congr fun i _ => ?_
      by_cases hij : i < j
      · simp [hij]
      · have : p i = false := by
          by_contra hi
          rcases lt_or_eq_of_le (not_lt.1 hij) with hlt | he
          · exact hn (hp j i hlt (by simpa using hi))
          · exact hn (by simpa [he] using hi)
        simp [this]
    have := List.length_filter_le p ((indices 7).filter fun i => decide (i < j))
    rw [← sub, length_filter_lt_seven] at this
    omega

/-- Moving up through boundaries that are reached below a number. -/
theorem foldl_up : ∀ k up : Fin 8,
    ((indices 7).foldl (fun b j => if b.val = j.val ∧ j.val < up.val then j.succ else b) k).val =
      if k.val < up.val then up.val else k.val := by decide

/-- Moving down through boundaries that are left from a number on. -/
theorem foldl_down : ∀ k down : Fin 8,
    ((indices 7).reverse.foldl (fun b j => if b.val = j.val + 1 ∧ ¬ j.val < down.val then j.castSucc else b) k).val =
      if down.val < k.val then down.val else k.val := by decide

section Band
variable (table : BandTable) (temp : Int) (ascending : ∀ i j : Fin 7, i < j → table.bounds.get i < table.bounds.get j)

/-- The number of boundaries at or below a temperature. -/
def boundsReached : Nat := ((indices 7).filter fun j => decide (table.bounds.get j ≤ temp)).length

/-- The number of boundaries that lie less than 2 above a temperature. -/
def boundsHeld : Nat := ((indices 7).filter fun j => decide (table.bounds.get j < temp + 2)).length

theorem boundsReached_le : boundsReached table temp ≤ boundsHeld table temp := by
  unfold boundsReached boundsHeld
  rw [← List.countP_eq_length_filter, ← List.countP_eq_length_filter]
  exact List.countP_mono_left fun j _ h => by simp at h ⊢; omega

theorem boundsReached_lt : boundsReached table temp < 8 :=
  Nat.lt_succ_of_le ((List.length_filter_le _ _).trans (by simp))

theorem boundsHeld_lt : boundsHeld table temp < 8 :=
  Nat.lt_succ_of_le ((List.length_filter_le _ _).trans (by simp))

include ascending

theorem bandUp_val (k : Fin 8) : (bandUp table temp k).val =
    if k.val < boundsReached table temp then boundsReached table temp else k.val := by
  have reached (j : Fin 7) : table.bounds.get j ≤ temp ↔ j.val < boundsReached table temp := by
    have := iff_lt_count (p := fun j => decide (table.bounds.get j ≤ temp))
      (fun i j hij h => by have := ascending i j hij; simp at h ⊢; omega) j
    simpa [boundsReached] using this
  simp only [bandUp, reached]
  exact foldl_up k ⟨boundsReached table temp, boundsReached_lt table temp⟩

theorem bandDown_val (k : Fin 8) : (bandDown table temp k).val =
    if boundsHeld table temp < k.val then boundsHeld table temp else k.val := by
  have held (j : Fin 7) : temp ≤ table.bounds.get j - 2 ↔ ¬ j.val < boundsHeld table temp := by
    have := iff_lt_count (p := fun j => decide (table.bounds.get j < temp + 2))
      (fun i j hij h => by have := ascending i j hij; simp at h ⊢; omega) j
    have h2 : table.bounds.get j < temp + 2 ↔ j.val < boundsHeld table temp := by simpa [boundsHeld] using this
    rw [← h2]
    omega
  simp only [bandDown, held]
  exact foldl_down k ⟨boundsHeld table temp, boundsHeld_lt table temp⟩

theorem bandFresh_val : (bandFresh table temp).val = boundsReached table temp := by
  rw [bandFresh, bandUp_val table temp ascending]
  split
  · rfl
  next h => simp at h ⊢; omega

theorem bandFor_some_val (k : Fin 8) : (bandFor table temp (some k)).val =
    if k.val < boundsReached table temp then boundsReached table temp
    else if boundsHeld table temp < k.val then boundsHeld table temp else k.val := by
  have := boundsReached_le table temp
  rw [bandFor, bandDown_val table temp ascending, bandUp_val table temp ascending]
  split
  · rw [if_neg (by omega)]
  · rfl

end Band

/-! ### The fields of a BAY STATUS (Table 8-6) -/

/-- What a reading takes from the bytes of its payload. -/
structure ReadingOf (payload : List Byte) (x : Reading) : Prop where
  voltage : x.voltage = wordAt payload 5
  temperature : x.temperature = signedAt payload 11
  fault_clear : byteAt payload 7 = 0 → x.fault = false
  fault_set : byteAt payload 7 = 1 → x.fault = true
  mode : x.mode.code = byteAt payload 8
  assign_none : byteAt payload 9 = 255 → x.assign = none
  assign_some : byteAt payload 9 ≠ 255 → ∃ y, x.assign = some y ∧ y.channel.val = byteAt payload 9 ∧
    y.lamp = decide (byteAt payload 10 = 1)

theorem modeOfCode_eq_some {n : Nat} (h : n ≤ 2) : ∃ m, modeOfCode n = some m ∧ m.code = n := by
  interval_cases n
  exacts [⟨.off, rfl, rfl⟩, ⟨.trickle, rfl, rfl⟩, ⟨.fast, rfl, rfl⟩]

theorem assignOfCodes_eq_some {c l : Nat} (h : c = 255 ∨ (c < 24 ∧ l ≤ 1)) : ∃ x, assignOfCodes c l = some x ∧
    (c = 255 → x = none) ∧
    (c ≠ 255 → ∃ y, x = some y ∧ y.channel.val = c ∧ y.lamp = decide (l = 1)) := by
  rcases h with rfl | ⟨hc, hl⟩
  · exact ⟨none, rfl, fun _ => rfl, fun h => absurd rfl h⟩
  · have hne : c ≠ 255 := by omega
    have id : toId 24 c = some ⟨c, hc⟩ := dif_pos hc
    rcases Nat.le_one_iff_eq_zero_or_eq_one.1 hl with rfl | rfl
    · exact ⟨_, by rw [assignOfCodes, if_neg hne, id]; rfl, fun h => absurd h hne, fun _ => ⟨_, rfl, rfl, rfl⟩⟩
    · exact ⟨_, by rw [assignOfCodes, if_neg hne, id]; rfl, fun h => absurd h hne, fun _ => ⟨_, rfl, rfl, rfl⟩⟩

theorem shownByStatus_eq_some {p n : Nat} {shown : Option RxTag}
    (h : (p = 0 ∧ shown = none) ∨ (p = 1 ∧ n ≠ 0 ∧ shown = some (BitVec.ofNat 24 n))) :
    shownByStatus p n = some shown := by
  rcases h with ⟨rfl, rfl⟩ | ⟨rfl, hn, rfl⟩
  · rfl
  · simp [shownByStatus, hn]

theorem faultOfCode_spec (choice : Nat) (payload : List Byte) :
    (byteAt payload 7 = 0 → faultOfCode choice (payload.getD 7 0#8) = false) ∧
    (byteAt payload 7 = 1 → faultOfCode choice (payload.getD 7 0#8) = true) := by
  unfold byteAt faultOfCode
  generalize payload.getD 7 0#8 = code
  refine ⟨fun h => if_pos (BitVec.eq_of_toNat_eq h), fun h => ?_⟩
  have : code = 1#8 := BitVec.eq_of_toNat_eq h
  rw [this]
  rfl

theorem parseReading_of_shows {payload : List Byte} {b : Fin 24} {shown : Option RxTag} (choice : Nat)
    (h : StatusShows payload shown) (hb : byteAt payload 0 = b.val) :
    ∃ x, parseReading choice payload = some x ∧ x.bay = b ∧ x.shown = shown ∧ ReadingOf payload x := by
  obtain ⟨-, hm, ha, hs⟩ := h
  obtain ⟨m, mode, code⟩ := modeOfCode_eq_some hm
  obtain ⟨y, assign, unassigned, assigned⟩ := assignOfCodes_eq_some ha
  have id : toId 24 (byteAt payload 0) = some b := toId_eq_some.2 hb
  obtain ⟨clear, set⟩ := faultOfCode_spec choice payload
  refine ⟨⟨b, shown, wordAt payload 5, faultOfCode choice (payload.getD 7 0#8), m, y, signedAt payload 11⟩, ?_, rfl, rfl,
    rfl, rfl, clear, set, code, unassigned, assigned⟩
  rw [parseReading, id, shownByStatus_eq_some hs, mode, assign]

/-- The state in which RPL takes a rack frame that HLI has counted. -/
def statusTaken (s : State) : State := (countReceived s).useChoice

/-- A BAY STATUS from a rack, with the reading that its payload holds. -/
theorem exec_bayStatus {frame : List Byte} {station : Station} {payload : List Byte} {rack : Fin 12} {b : Fin 24}
    {shown : Option RxTag} (h : Arrives s frame .bayStatus station payload) (hr : FrameOfRack s station rack)
    (hs : StatusShows payload shown) (hb : byteAt payload 0 = b.val) :
    ∃ x, x.bay = b ∧ x.shown = shown ∧ ReadingOf payload x ∧
      exec (.bayStatus frame) s = .next (rackSender (takeReading rack x (settlePoll rack b (statusTaken s)))) := by
  obtain ⟨x, parsed, rfl, hx, fields⟩ := parseReading_of_shows (countReceived s).choices hs hb
  refine ⟨x, rfl, hx, fields, congrArg Host.Outcome.next ((arrive_accepted h).trans ?_)⟩
  have found : findRack station (countReceived s) = some rack := findRack_eq_some hr
  rw [dispatchFrame, if_pos hs.1, takeStatus, found]
  dsimp only
  rw [parsed]
  rfl

/-! ### Bands under a BAY STATUS -/

theorem settlePoll_sameBands (rack : Fin 12) (b : Fin 24) (s : State) : SameBands s (settlePoll rack b s) := by
  have live (u : State) (x : RackLive) : SameBands u (u.putRackLive rack x) :=
    .of_keeps (putRackLive_keeps (ps := [.rackLives]) .refl (by decide)) (by decide)
  have h := sameBands_bayWork
  have online (n : Nat) (u : State) : SameBands u (rackOnline rack n u) :=
    h.trans (h.trans (h.trans (live u _) (h.event _ _ _ _ _)) (h.markRackPending _ _)) (h.resync _ _)
  unfold settlePoll
  dsimp only
  split
  · split
    · exact h.trans (h.trans (live _ _) (online _ _)) (live _ _)
    · exact h.trans (live _ _) (live _ _)
  split
  · exact live _ _
  · exact h.refl s

theorem takeTemperature_band (rack r : Fin 12) (temp : Int) (s : State) :
    ((takeTemperature rack temp s).sched r).band =
      if r = rack then some (bandFor s.chs.table temp (s.sched rack).band) else (s.sched r).band := by
  unfold takeTemperature
  dsimp only
  split
  next h =>
    split
    next hr => exact hr ▸ h
    next => rfl
  next h =>
    obtain ⟨c, hc⟩ := changeBand_sched rack r (bandFor s.chs.table temp (s.sched rack).band) s
    rw [hc]
    split <;> rfl

theorem takeReading_band (rack r : Fin 12) (x : Reading) (s : State) : ((takeReading rack x s).sched r).band =
    if r = rack then some (bandFor s.chs.table (clampTemperature x.temperature) (s.sched rack).band)
    else (s.sched r).band := by
  have h := sameBands_bayWork
  have after : SameBands (readTemperature rack x.temperature s) (takeReading rack x s) :=
    h.trans (h.trans (h.comparePresence _ _ _) (h.readReported _ _ _ _)) (h.readElectrical _ _ _ _)
  rw [after r, readTemperature, takeTemperature_band]
  rfl

/-- Settles O44: the counts of boundaries, and the one step of a BAY STATUS that writes a band. -/
theorem bandFollowsTemperature : Obligations.BandFollowsTemperature := by
  unfold Obligations.BandFollowsTemperature
  refine ⟨fun table temp ascending => ?_, ?_⟩
  · exact ⟨bandFresh_val table temp ascending, bandFor_some_val table temp ascending⟩
  intro s frame station payload rack b shown h hr hs hb
  obtain ⟨x, -, -, fields, run⟩ := exec_bayStatus h hr hs hb
  have sender := rackSender_keeps (ps := [.bays, .sender, .egress])
    (t := takeReading rack x (settlePoll rack b (statusTaken s))) .refl (by decide) (by decide) (by decide)
  have polled := settlePoll_sameBands rack b (statusTaken s)
  have table : (settlePoll rack b (statusTaken s)).chs.table = s.chs.table :=
    settlePoll_keeps (ps := [.rackLives, .bays, .sched, .events, .egress]) (t := statusTaken s) .refl (by decide)
      (by decide) (by decide) (by decide) (by decide) .bandTable (by decide)
  refine ⟨_, run, ?_, fun r hne => ?_⟩
  · rw [sender.sched_eq (by decide), takeReading_band, if_pos rfl, polled, table, fields.temperature]
    rfl
  · rw [sender.sched_eq (by decide), takeReading_band, if_neg hne, polled]
    rfl

/-! ### Polls under a BAY STATUS (R117) -/

/-- The live fields of a rack after a reading has answered its poll, in another state as the caller gives it. -/
def answeredLive (now spacing : Nat) (l : RackLive) : RackLive :=
  { l with
    phase := if l.phase = .offline then .online else l.phase, outstanding := none, timedOut := none, missRun := 0
    spacingEnds := some (now + spacing)
    counters := { l.counters with answers := min (l.counters.answers + 1) 4294967295 } }

/-- The live fields of a rack after a late answer. -/
def lateLive (l : RackLive) : RackLive :=
  { l with timedOut := none, counters := { l.counters with lateAnswers := min (l.counters.lateAnswers + 1) 4294967295 } }

/-- The state in which an answered poll is no longer outstanding. -/
def pollAnswered (rack : Fin 12) (s : State) : State :=
  let l := (s.rack rack).live
  s.putRackLive rack { l with
    outstanding := none, missRun := 0, timedOut := none
    counters := { l.counters with answers := satAdd l.counters.answers 1 } }

theorem settlePoll_answered {rack : Fin 12} {b : Fin 24}
    (h : (s.rack rack).live.outstanding.map Outstanding.bay = some b) : settlePoll rack b s = startSpacing rack
      (if (s.rack rack).live.phase = .offline then rackOnline rack (s.rack rack).live.missRun (pollAnswered rack s)
       else pollAnswered rack s) := if_pos h

theorem settlePoll_late {rack : Fin 12} {b : Fin 24} (h : (s.rack rack).live.outstanding.map Outstanding.bay ≠ some b)
    (hl : (s.rack rack).live.timedOut = some b) :
    settlePoll rack b s = s.putRackLive rack (lateLive (s.rack rack).live) := (if_neg h).trans (if_pos hl)

theorem settlePoll_other {rack : Fin 12} {b : Fin 24} (h : (s.rack rack).live.outstanding.map Outstanding.bay ≠ some b)
    (hl : (s.rack rack).live.timedOut ≠ some b) : settlePoll rack b s = s := (if_neg h).trans (if_neg hl)

theorem putRackLive_live (s : State) (rack r : Fin 12) (x : RackLive) :
    ((s.putRackLive rack x).rack r).live = if r = rack then x else (s.rack r).live := by
  rw [State.putRackLive, State.putRack_rack]
  split <;> rfl

/-- What a rack's going ONLINE leaves of the racks' live fields. -/
theorem rackOnline_live (rack r : Fin 12) (n : Nat) (s : State) : ((rackOnline rack n s).rack r).live =
    if r = rack then { (s.rack rack).live with phase := .online } else (s.rack r).live := by
  have k (u : State) : KeepsAllBut [.sched, .bays, .events, .egress] u
      (resync rack (markRackPending rack (raiseEvent .rackOnline rack.val none n u))) :=
    resync_keeps (markRackPending_keeps (raiseEvent_keeps .refl (by decide) (by decide)) (by decide)) (by decide)
      (by decide)
  exact ((k _) .rackLives (by decide) r).trans (putRackLive_live s rack r _)

theorem rackOnline_clock (rack : Fin 12) (n : Nat) (s : State) : (rackOnline rack n s).clock = s.clock :=
  rackOnline_keeps (ps := [.rackLives, .sched, .bays, .events, .egress]) .refl (by decide) (by decide) (by decide)
    (by decide) (by decide) .clock (by decide)

end Sys2Proof.Machine
end

section
/-! What a BAY STATUS leaves of the polls (R117, R120). -/

namespace Sys2Proof.Machine

open Sys2Proof

variable {s t u : State}

theorem startSpacing_live (rack r : Fin 12) (s : State) : ((startSpacing rack s).rack r).live =
    if r = rack then { (s.rack rack).live with spacingEnds := some (s.clock.now + (s.rack rack).config.spacing) }
    else (s.rack r).live := putRackLive_live s rack r _

/-- The live fields of a rack after the poll part of a reading of one of its bays (R117). -/
def settledLive (now : Nat) (r : Rack) (b : Fin 24) : RackLive :=
  if r.live.outstanding.map Outstanding.bay = some b then answeredLive now r.config.spacing r.live
  else if r.live.timedOut = some b then lateLive r.live
  else r.live

theorem settlePoll_live (rack r : Fin 12) (b : Fin 24) (s : State) : ((settlePoll rack b s).rack r).live =
    if r = rack then settledLive s.clock.now (s.rack rack) b else (s.rack r).live := by
  by_cases ho : (s.rack rack).live.outstanding.map Outstanding.bay = some b
  · rw [settlePoll_answered ho, settledLive, if_pos ho, startSpacing_live]
    by_cases hp : (s.rack rack).live.phase = .offline
    · have k := rackOnline_keeps (ps := [.rackLives, .sched, .bays, .events, .egress]) (r := rack)
        (n := (s.rack rack).live.missRun) (t := pollAnswered rack s) .refl (by decide) (by decide) (by decide) (by decide)
        (by decide)
      have conf : ((rackOnline rack (s.rack rack).live.missRun (pollAnswered rack s)).rack rack).config =
          (s.rack rack).config := (k .rackConfigs (by decide) rack).trans (by simp [pollAnswered, State.putRackLive])
      rw [if_pos hp, rackOnline_clock, conf]
      simp only [rackOnline_live, pollAnswered, putRackLive_live, if_true, answeredLive, if_pos hp]
      split <;> rfl
    · have conf : ((pollAnswered rack s).rack rack).config = (s.rack rack).config := by
        simp [pollAnswered, State.putRackLive]
      rw [if_neg hp, conf]
      simp only [pollAnswered, putRackLive_live, if_true, answeredLive, if_neg hp]
      split <;> rfl
  · rw [settledLive, if_neg ho]
    by_cases hl : (s.rack rack).live.timedOut = some b
    · rw [settlePoll_late ho hl, putRackLive_live, if_pos hl]
    · rw [settlePoll_other ho hl, if_neg hl]
      split
      next h => rw [h]
      next => rfl

/-- What follows the temperature of a reading leaves the racks as they are. -/
theorem takeReading_live (rack r : Fin 12) (x : Reading) (s : State) : ((takeReading rack x s).rack r).live =
    if r = rack then { (s.rack rack).live with temperature := some (clampTemperature x.temperature) }
    else (s.rack r).live := by
  have reported (a : Fin 288) (u : State) : KeepsAllBut [.bays] u (readReported a x.mode x.assign u) :=
    putBay_keeps .refl (by decide)
  have k : KeepsAllBut [.sched, .bays, .receivers, .tours, .fleetCounters, .events, .egress]
      (s.putRackLive rack { (s.rack rack).live with temperature := some (clampTemperature x.temperature) })
      (takeReading rack x s) :=
    readElectrical_keeps ((comparePresence_keeps (takeTemperature_keeps .refl (by decide) (by decide) (by decide)
      (by decide)) (by decide) (by decide) (by decide) (by decide) (by decide) (by decide) (by decide)).trans
      ((reported _ _).mono (by decide))) (by decide) (by decide) (by decide) (by decide) (by decide)
  rw [k .rackLives (by decide) r, putRackLive_live]

/-- The scheduler work of a band change, ahead of its event (R151). -/
def bandSettled (rack : Fin 12) (new : Fin 8) (s : State) : State :=
  let t := s.putSched rack (bandedSched new (s.chs.table.entries.get new) (s.sched rack))
  let u := t.putSched rack { t.sched rack with capacity := capacityOf t rack }
  restartCadence rack (judgeRack rack (trimTurns rack (capacityOf t rack) u))

theorem changeBand_eq (rack : Fin 12) (new : Fin 8) (s : State) : changeBand rack new s =
    if (s.sched rack).band = some new then bandSettled rack new s
    else raiseEvent .bandChange rack.val none (detailPair (((s.sched rack).band.map Fin.val).getD 8) new.val)
      (bandSettled rack new s) := rfl

section
variable {R : State → State → Prop}

theorem ChargeClosed.bandSettled (h : ChargeClosed R) (hs : ∀ s r q, R s (s.putSched r q)) (rack : Fin 12) (new : Fin 8)
    (s : State) : R s (bandSettled rack new s) := by
  unfold Machine.bandSettled
  dsimp only
  refine h.trans (h.trans (h.trans (h.trans (hs _ _ _) (hs _ _ _)) (h.trimTurns _ _ _)) (h.judgeRack _ _))
    (h.restartCadence _ _)

theorem BayWorkClosed.changeBand (h : BayWorkClosed R) (hs : ∀ s r q, R s (s.putSched r q)) (rack : Fin 12)
    (new : Fin 8) (s : State) : R s (changeBand rack new s) := by
  rw [changeBand_eq]
  split
  · exact h.bandSettled hs _ _ _
  · exact h.trans (h.bandSettled hs _ _ _) (h.event _ _ _ _ _)

theorem BayWorkClosed.takeTemperature (h : BayWorkClosed R) (hs : ∀ s r q, R s (s.putSched r q)) (rack : Fin 12)
    (temp : Int) (s : State) : R s (takeTemperature rack temp s) := by
  unfold Machine.takeTemperature
  dsimp only
  split
  · exact h.refl s
  · exact h.changeBand hs _ _ _

end

/-- The poll, the band and the reading of a BAY STATUS raise events only. -/
theorem takeReading_reports (rack : Fin 12) (x : Reading) (s : State) : Reports s (takeReading rack x s) := by
  have h := reports_bayWork
  have temperature : Reports s (readTemperature rack x.temperature s) :=
    (Reports.of_keeps (putRackLive_keeps (ps := [.rackLives]) .refl (by decide)) (by decide)).trans
      (h.takeTemperature (fun _ _ _ => .of_keeps (putSched_keeps (ps := [.sched]) .refl (by decide)) (by decide)) _ _ _)
  exact ((temperature.trans (h.comparePresence _ _ _)).trans (h.readReported _ _ _ _)).trans (h.readElectrical _ _ _ _)

/-- Settles O19: the live fields by the bay that the reading names, and RACK_ONLINE ahead of every other event. -/
theorem statusAnswersPoll : Obligations.StatusAnswersPoll := by
  unfold Obligations.StatusAnswersPoll
  intro s frame station payload rack b shown h hr hs hb l up warm
  obtain ⟨x, rfl, -, fields, run⟩ := exec_bayStatus h hr hs hb
  have sender := rackSender_keeps (ps := [.bays, .sender, .egress])
    (t := takeReading rack x (settlePoll rack x.bay (statusTaken s))) .refl (by decide) (by decide) (by decide)
  have live (r : Fin 12) := (sender .rackLives (by decide) r).trans (takeReading_live rack r x _)
  simp only [settlePoll_live, fields.temperature, if_true] at live
  have mine : _ = { settledLive s.clock.now (s.rack rack) x.bay with temperature := warm } := (live rack).trans (if_pos rfl)
  have keeps : KeepsAllBut [.rackLives, .choices, .sched, .bays, .receivers, .tours, .fleetCounters, .sender, .events,
      .egress] s (rackSender (takeReading rack x (settlePoll rack x.bay (statusTaken s)))) :=
    rackSender_keeps (takeReading_keeps (settlePoll_keeps (useChoice_keeps (putLinkCounters_keeps .refl (by decide))
      (by decide)) (by decide) (by decide) (by decide) (by decide) (by decide)) (by decide) (by decide) (by decide)
      (by decide) (by decide) (by decide) (by decide) (by decide)) (by decide) (by decide) (by decide)
  have events : ∃ more, l.outstanding.map Outstanding.bay = some x.bay → l.phase = .offline →
      EventsTaken (⟨.rackOnline, s.mge.hubTime, rack.val, none, l.missRun⟩ :: more) s
        (rackSender (takeReading rack x (settlePoll rack x.bay (statusTaken s)))) := by
    by_cases ho : l.outstanding.map Outstanding.bay = some x.bay ∧ l.phase = .offline
    · obtain ⟨ho, hp⟩ := ho
      have answered : settlePoll rack x.bay (statusTaken s) =
          startSpacing rack (rackOnline rack l.missRun (pollAnswered rack (statusTaken s))) :=
        (settlePoll_answered (s := statusTaken s) ho).trans (congrArg _ (if_pos hp))
      have first : EventsTaken [⟨.rackOnline, s.mge.hubTime, rack.val, none, l.missRun⟩] s
          (raiseEvent .rackOnline rack.val none l.missRun ((pollAnswered rack (statusTaken s)).putRackLive rack
            { ((pollAnswered rack (statusTaken s)).rack rack).live with phase := .online })) := .raise_of_evq rfl rfl
      have h := reports_bayWork
      have spaced (u : State) : Reports u (startSpacing rack u) :=
        .of_keeps (startSpacing_keeps (ps := [.rackLives]) .refl (by decide)) (by decide)
      have sent (u : State) : Reports u (rackSender u) :=
        .of_keeps (rackSender_keeps (ps := [.bays, .sender, .egress]) .refl (by decide) (by decide) (by decide)) (by decide)
      obtain ⟨-, more, rest⟩ := ((((h.markRackPending rack (raiseEvent .rackOnline rack.val none l.missRun
        ((pollAnswered rack (statusTaken s)).putRackLive rack
          { ((pollAnswered rack (statusTaken s)).rack rack).live with phase := .online }))).trans (h.resync rack _)).trans
        (spaced _)).trans (takeReading_reports rack x _)).trans (sent _)
      refine ⟨more, fun _ _ => ?_⟩
      rw [answered]
      exact first.append rest ((raiseEvent_keeps (ps := eventParts) .refl (by decide) (by decide)) .enables (by decide))
    · exact ⟨[], fun h1 h2 => absurd ⟨h1, h2⟩ ho⟩
  obtain ⟨more, events⟩ := events
  refine ⟨_, more, run, fun ho => ⟨?_, fun hp => events ho hp⟩, fun ho ht => ?_, fun ho ht => ?_, fun r hne => ?_, keeps⟩
  · rw [mine, settledLive, if_pos ho]
    rfl
  · rw [mine, settledLive, if_neg ho, if_pos ht]
    rfl
  · rw [mine, settledLive, if_neg ho, if_neg ht]
  · exact (live r).trans ((if_neg hne).trans (if_neg hne))

end Sys2Proof.Machine
end

section
/-! The timers of racks and bays (R116, R118, R125, R127, R149). -/

namespace Sys2Proof.Machine

open Sys2Proof

variable {s t u : State}

/-! ### Whole records from their parts -/

theorem KeepsAllBut.evq_eq {ps : List Part} (k : KeepsAllBut ps s t)
    (hp : Part.enables ∉ ps ∧ Part.events ∉ ps ∧ Part.desk ∉ ps) : t.evq = s.evq := by
  have enables : t.evq.enables = s.evq.enables := k .enables hp.1
  obtain ⟨queue, overflow, drops⟩ := k .events hp.2.1
  have desk : t.evq.desk = s.evq.desk := k .desk hp.2.2
  cases ht : t.evq
  simp_all

theorem KeepsAllBut.chs_eq {ps : List Part} (k : KeepsAllBut ps s t) (hp : Part.sched ∉ ps ∧ Part.bandTable ∉ ps) :
    t.chs = s.chs := by
  have sched : t.chs.sched = s.chs.sched := k .sched hp.1
  have table : t.chs.table = s.chs.table := k .bandTable hp.2
  cases ht : t.chs
  simp_all

theorem putRackLive_rack (s : State) (rack r : Fin 12) (x : RackLive) :
    (s.putRackLive rack x).rack r = if r = rack then { s.rack rack with live := x } else s.rack r := by
  rw [State.putRackLive, State.putRack_rack]

/-- What the rack sender leaves as it is. -/
theorem rackSender_keepsParts (s : State) : KeepsAllBut [.bays, .sender, .egress] s (rackSender s) :=
  rackSender_keeps .refl (by decide) (by decide) (by decide)

/-! ### Settles (R125, R127) -/

theorem settleExpiry_of_running {a : Fin 288} {running next : Settle} {ends : Nat} (h : (s.bay a).settle = running)
    (he : (s.bay a).settleEnds = some ends) : settleExpiry a running next s =
      (s.reach ends).putBay a { s.bay a with settle := next, settleEnds := none } := by
  simp [settleExpiry, h, he]

theorem settleExpiry_of_not_running {a : Fin 288} {running next : Settle}
    (h : (s.bay a).settle ≠ running ∨ (s.bay a).settleEnds = none) : settleExpiry a running next s = s := by
  unfold settleExpiry
  dsimp only
  split
  next => rfl
  next ends he => exact if_neg (h.resolve_right (by simp [he]))

/-! ### Polls (R116) -/

/-- The live fields of a rack whose next POLL is built. -/
def polledLive (c : RackConfig) (l : RackLive) : RackLive :=
  { l with
    pointer := if l.pointer < c.scanHigh then l.pointer + 1 else c.scanLow, waiting := some l.pointer
    counters := { l.counters with polls := min (l.counters.polls + 1) 4294967295 } }

/-- A POLL frame (Table 8-6). -/
def pollFrame (rack : Fin 12) (c : RackConfig) (b : Fin 24) : EgressFrame :=
  { dest := c.station, origin := .poll rack b true, payload := [BitVec.ofNat 8 b.val] }

theorem sendPoll_eq (rack : Fin 12) (s : State) : sendPoll rack s =
    handOver (pollFrame rack (s.rack rack).config (s.rack rack).live.pointer)
      (s.putRackLive rack (polledLive (s.rack rack).config (s.rack rack).live)) := by
  have next : nextPointer (s.rack rack).config (s.rack rack).live.pointer =
      if (s.rack rack).live.pointer < (s.rack rack).config.scanHigh then (s.rack rack).live.pointer + 1
      else (s.rack rack).config.scanLow := rfl
  rw [sendPoll, next]
  rfl

/-- What sending a POLL leaves of the racks, and the frame held where the link is UP. -/
theorem sendPoll_spec (rack : Fin 12) (s : State) :
    (∀ r, (sendPoll rack s).rack r = if r = rack then { s.rack rack with
      live := { polledLive (s.rack rack).config (s.rack rack).live with
        waiting := if s.hli.linkUp then some (s.rack rack).live.pointer else none
        outstanding := if s.hli.linkUp then (s.rack rack).live.outstanding
          else some ⟨(s.rack rack).live.pointer, s.clock.now + 20⟩ } } else s.rack r) ∧
    (s.hli.linkUp = true →
      pollFrame rack (s.rack rack).config (s.rack rack).live.pointer ∈ heldFrames (sendPoll rack s).hli) := by
  rw [sendPoll_eq]
  set f := pollFrame rack (s.rack rack).config (s.rack rack).live.pointer
  set u := s.putRackLive rack (polledLive (s.rack rack).config (s.rack rack).live) with hu
  have rack_ (r : Fin 12) : u.rack r = _ := putRackLive_rack s rack r _
  cases hl : s.hli.linkUp with
  | true =>
    have up : u.hli.linkUp = true := hl
    refine ⟨fun r => ?_, fun _ => (mem_heldFrames_handOver up).2 (.inl rfl)⟩
    rw [handOver_linkUp up]
    refine (rack_ r).trans ?_
    split <;> rfl
  | false =>
    refine ⟨fun r => ?_, fun h => absurd h (by simp)⟩
    have down : handOver f u = pollOutstanding rack (s.rack rack).live.pointer (countDiscard u) := by
      have : u.hli.linkUp = false := hl
      rw [handOver, this]
      rfl
    rw [down, pollOutstanding, putRackLive_rack]
    have counted (r : Fin 12) : (countDiscard u).rack r = u.rack r := rfl
    simp only [counted, rack_, if_true]
    split <;> rfl

/-- The state at the end of a spacing timer. -/
def spacingEnded (rack : Fin 12) (ends : Nat) (s : State) : State :=
  (s.reach ends).putRackLive rack { (s.rack rack).live with spacingEnds := none }

theorem spacingEnded_rack (rack r : Fin 12) (ends : Nat) (s : State) : (spacingEnded rack ends s).rack r =
    if r = rack then { s.rack rack with live := { (s.rack rack).live with spacingEnds := none } } else s.rack r :=
  putRackLive_rack (s.reach ends) rack r _

/-- A rack whose next POLL is due at the end of its spacing timer. -/
def pollIdle (r : Rack) : Bool := r.config.enabled && r.live.outstanding.isNone && r.live.waiting.isNone

theorem pollIdle_iff (r : Rack) :
    pollIdle r = true ↔ r.config.enabled = true ∧ r.live.outstanding = none ∧ r.live.waiting = none := by
  simp [pollIdle, and_assoc]

theorem spacingExpiry_eq {rack : Fin 12} {ends : Nat} (h : (s.rack rack).live.spacingEnds = some ends) :
    spacingExpiry rack s = if pollIdle (s.rack rack) then sendPoll rack (spacingEnded rack ends s)
      else spacingEnded rack ends s := by
  have idle : pollIdle (s.rack rack) = pollIdle ((spacingEnded rack ends s).rack rack) := by
    rw [spacingEnded_rack, if_pos rfl]
    rfl
  rw [idle, spacingExpiry, h]
  rfl

/-! ### Poll timeouts (R118, R149) -/

/-- The state at the end of an outstanding poll's timer, the miss counted. -/
def pollMissed (rack : Fin 12) (o : Outstanding) (s : State) : State :=
  (s.reach o.ends).putRackLive rack (timedOutLive o.bay (s.rack rack).live)

theorem pollTimeout_eq {rack : Fin 12} {o : Outstanding} (h : (s.rack rack).live.outstanding = some o) :
    pollTimeout rack s = startSpacing rack
      (if (s.rack rack).live.phase = .online ∧ 3 ≤ min ((s.rack rack).live.missRun + 1) 255
       then rackOffline rack (pollMissed rack o s) else pollMissed rack o s) := by
  unfold pollTimeout
  rw [h]
  rfl

theorem rackOffline_live (rack r : Fin 12) (s : State) : ((rackOffline rack s).rack r).live =
    if r = rack then { (s.rack rack).live with phase := .offline } else (s.rack r).live := by
  have k (n : Nat) (u : State) : KeepsAllBut [.sched, .bays, .events, .egress] u
      (leaveOnline rack (raiseEvent .rackOffline rack.val none n u)) :=
    leaveOnline_keeps (raiseEvent_keeps .refl (by decide) (by decide)) (by decide) (by decide)
  exact ((k _ _) .rackLives (by decide) r).trans (putRackLive_live s rack r _)

/-- A rack going OFFLINE keeps its counts, ends its turns and raises RACK_OFFLINE alone (R115, R149). -/
theorem rackOffline_sched (rack r : Fin 12) (s : State) : (rackOffline rack s).sched r =
    if r = rack then { s.sched rack with active := [], cadenceEnds := none } else s.sched r := by
  have k : KeepsAllBut [.rackLives, .events, .egress] s (raiseEvent .rackOffline rack.val none
      ((s.putRackLive rack { (s.rack rack).live with phase := .offline }).rack rack).live.missRun
      (s.putRackLive rack { (s.rack rack).live with phase := .offline })) :=
    raiseEvent_keeps (putRackLive_keeps .refl (by decide)) (by decide) (by decide)
  refine (leaveOnline_sched rack r _).trans ?_
  rw [k.sched_eq (by decide), k.sched_eq (by decide), keptTurns_zero]

theorem rackOffline_events (rack : Fin 12) (s : State) :
    EventsTaken [⟨.rackOffline, s.mge.hubTime, rack.val, none, (s.rack rack).live.missRun⟩] s (rackOffline rack s) := by
  have miss : ((s.putRackLive rack { (s.rack rack).live with phase := .offline }).rack rack).live.missRun =
      (s.rack rack).live.missRun := by rw [putRackLive_live, if_pos rfl]
  have left (u : State) : (leaveOnline rack u).evq = u.evq :=
    (leaveOnline_keeps (ps := [.sched, .bays]) .refl (by decide) (by decide)).evq_eq (by decide)
  refine EventsTaken.to_evq ?_ (left _)
  rw [miss]
  exact .raise_of_evq rfl rfl

/-- The end of a spacing timer, as `RackTimersExpire` states it. -/
theorem spacingTimer_expires {rack : Fin 12} {ends : Nat} (h : (s.rack rack).live.spacingEnds = some ends) :
    let c := (s.rack rack).config
    let l := (s.rack rack).live
    ∃ t, exec (.spacingTimerExpiry rack) s = .next t ∧ t.clock = { s.clock with now := max s.clock.now ends } ∧
      (∀ r, r ≠ rack → t.rack r = s.rack r) ∧
      (let idle := c.enabled = true ∧ l.outstanding = none ∧ l.waiting = none
       (¬ idle → (t.rack rack).live = { l with spacingEnds := none } ∧ KeepsAllBut [.clock, .rackLives] s t) ∧
       (idle → (t.rack rack).live = { l with
           spacingEnds := none
           pointer := if l.pointer < c.scanHigh then l.pointer + 1 else c.scanLow
           waiting := if s.hli.linkUp then some l.pointer else none
           outstanding := if s.hli.linkUp then none else some ⟨l.pointer, max s.clock.now ends + 20⟩
           counters := { l.counters with polls := min (l.counters.polls + 1) 4294967295 } } ∧
         (s.hli.linkUp = true → heldFrames t.hli ≠ [] ∧ pollFrame rack c l.pointer ∈ heldFrames t.hli))) ∧
      KeepsAllBut [.clock, .rackLives, .egress] s t := by
  intro c l
  have run : exec (.spacingTimerExpiry rack) s = .next (spacingExpiry rack s) := rfl
  have k : KeepsAllBut [.clock, .rackLives] s (spacingEnded rack ends s) :=
    putRackLive_keeps (reach_keeps .refl (by decide)) (by decide)
  have ended : (spacingEnded rack ends s).rack rack = _ := (spacingEnded_rack rack rack ends s).trans (if_pos rfl)
  by_cases idle : pollIdle (s.rack rack) = true
  · obtain ⟨racks, held⟩ := sendPoll_spec rack (spacingEnded rack ends s)
    obtain ⟨-, outstanding, -⟩ := (pollIdle_iff _).1 idle
    rw [run, spacingExpiry_eq h, if_pos idle]
    have sent := sendPoll_keeps (ps := [.clock, .rackLives, .egress]) (r := rack) (k.mono (by decide)) (by decide)
      (by decide)
    have polled := sendPoll_keeps (ps := [.rackLives, .egress]) (r := rack) (t := spacingEnded rack ends s) .refl
      (by decide) (by decide)
    rw [ended] at held
    refine ⟨_, rfl, polled .clock (by decide), fun r hr => ?_, ⟨fun hn => absurd ((pollIdle_iff _).1 idle) hn, fun _ =>
      ⟨?_, fun hl => ⟨List.ne_nil_of_mem (held hl), held hl⟩⟩⟩, sent⟩
    · rw [racks, if_neg hr, spacingEnded_rack, if_neg hr]
    · rw [racks, if_pos rfl, ended]
      simp only [polledLive, outstanding]
      rfl
  · rw [run, spacingExpiry_eq h, if_neg idle]
    refine ⟨_, rfl, rfl, fun r hr => ?_, ⟨fun _ => ⟨?_, k⟩, fun hi => absurd ((pollIdle_iff _).2 hi) idle⟩,
      k.mono (by decide)⟩
    · rw [spacingEnded_rack, if_neg hr]
    · rw [ended]

theorem pollMissed_rack (rack r : Fin 12) (o : Outstanding) (s : State) : (pollMissed rack o s).rack r =
    if r = rack then { s.rack rack with live := timedOutLive o.bay (s.rack rack).live } else s.rack r :=
  putRackLive_rack (s.reach o.ends) rack r _

theorem startSpacing_rack (rack r : Fin 12) (s : State) : (startSpacing rack s).rack r = if r = rack then
    { s.rack rack with live := { (s.rack rack).live with
        spacingEnds := some (s.clock.now + (s.rack rack).config.spacing) } } else s.rack r :=
  putRackLive_rack s rack r _

/-- The timeout of an outstanding poll, as `RackTimersExpire` states it. -/
theorem pollTimeout_acts {rack : Fin 12} {o : Outstanding} (h : (s.rack rack).live.outstanding = some o) :
    let c := (s.rack rack).config
    let l := (s.rack rack).live
    ∃ t, exec (.pollTimeout rack) s = .next t ∧ t.clock = { s.clock with now := max s.clock.now o.ends } ∧
      (∀ r, r ≠ rack → t.rack r = s.rack r) ∧
      (let miss := min (l.missRun + 1) 255
       let lost := l.phase = .online ∧ 3 ≤ miss
       (t.rack rack).live = { l with
         outstanding := none, timedOut := some o.bay, missRun := miss
         spacingEnds := some (max s.clock.now o.ends + c.spacing)
         phase := if l.phase = .online ∧ 3 ≤ miss then .offline else l.phase
         counters := { l.counters with timeouts := min (l.counters.timeouts + 1) 4294967295 } } ∧
       (¬ lost → t.chs = s.chs ∧ t.evq = s.evq) ∧
       (lost → (t.sched rack).active = [] ∧ (t.sched rack).cadenceEnds = none ∧
         (t.sched rack).postponed = (s.sched rack).postponed ∧ (t.sched rack).pulledIn = (s.sched rack).pulledIn ∧
         (t.sched rack).round = (s.sched rack).round ∧
         EventsTaken [⟨.rackOffline, s.mge.hubTime, rack.val, none, miss⟩] s t)) ∧
      KeepsAllBut [.clock, .rackLives, .sched, .events, .bays, .sender, .egress] s t := by
  intro c l
  have run : exec (.pollTimeout rack) s = .next (rackSender (pollTimeout rack s)) := rfl
  have sent := rackSender_keepsParts (pollTimeout rack s)
  have missed (r : Fin 12) := pollMissed_rack rack r o s
  have spaced (u : State) : KeepsAllBut [.rackLives] u (startSpacing rack u) := startSpacing_keeps .refl (by decide)
  have k : KeepsAllBut [.clock, .rackLives] s (pollMissed rack o s) :=
    putRackLive_keeps (reach_keeps .refl (by decide)) (by decide)
  have keeps : KeepsAllBut [.clock, .rackLives, .sched, .events, .bays, .sender, .egress] s
      (rackSender (pollTimeout rack s)) :=
    rackSender_keeps (pollTimeout_keeps .refl (by decide) (by decide) (by decide) (by decide) (by decide) (by decide))
      (by decide) (by decide) (by decide)
  refine ⟨_, run, ?_⟩
  by_cases lost : l.phase = .online ∧ 3 ≤ min (l.missRun + 1) 255
  · have eq : pollTimeout rack s = startSpacing rack (rackOffline rack (pollMissed rack o s)) :=
      (pollTimeout_eq h).trans (congrArg _ (if_pos lost))
    have off : KeepsAllBut [.rackLives, .sched, .bays, .events, .egress] (pollMissed rack o s)
        (rackOffline rack (pollMissed rack o s)) :=
      rackOffline_keeps .refl (by decide) (by decide) (by decide) (by decide) (by decide)
    have live (r : Fin 12) := rackOffline_live rack r (pollMissed rack o s)
    have config (r : Fin 12) : ((rackOffline rack (pollMissed rack o s)).rack r).config = (s.rack r).config := by
      have h1 : _ = ((pollMissed rack o s).rack r).config := off .rackConfigs (by decide) r
      rw [h1, missed]
      split
      next h => rw [h]
      next => rfl
    have clock : (rackOffline rack (pollMissed rack o s)).clock = { s.clock with now := max s.clock.now o.ends } :=
      off .clock (by decide)
    have sched (r : Fin 12) := rackOffline_sched rack r (pollMissed rack o s)
    have events := rackOffline_events rack (pollMissed rack o s)
    rw [missed, if_pos rfl] at events
    rw [eq] at sent keeps ⊢
    refine ⟨(sent .clock (by decide)).trans clock, fun r hr => ?_, ⟨?_, fun h => absurd lost h, fun _ => ?_⟩, keeps⟩
    · rw [sent.rack_eq (by decide) (by decide), startSpacing_rack, if_neg hr]
      have same := (live r).trans (if_neg hr)
      rw [missed, if_neg hr] at same
      exact congrArg₂ Rack.mk (config r) same
    · rw [sent.rack_eq (by decide) (by decide), startSpacing_rack, if_pos rfl, if_pos lost, live, if_pos rfl, config, clock,
        missed, if_pos rfl]
      rfl
    · have mine : (rackSender (startSpacing rack (rackOffline rack (pollMissed rack o s)))).sched rack = _ :=
        (sent.sched_eq (by decide) rack).trans (((spaced _).sched_eq (by decide) rack).trans ((sched rack).trans (if_pos rfl)))
      rw [mine]
      refine ⟨rfl, rfl, rfl, rfl, rfl, ?_⟩
      refine (events.of_evq (u := s) rfl).to_evq ?_
      rw [sent.evq_eq (by decide), (spaced _).evq_eq (by decide)]
  · have eq : pollTimeout rack s = startSpacing rack (pollMissed rack o s) :=
      (pollTimeout_eq h).trans (congrArg _ (if_neg lost))
    rw [eq] at sent keeps ⊢
    refine ⟨sent .clock (by decide), fun r hr => ?_, ⟨?_, fun _ => ⟨?_, ?_⟩, fun h => absurd h lost⟩, keeps⟩
    · rw [sent.rack_eq (by decide) (by decide), startSpacing_rack, if_neg hr, missed, if_neg hr]
    · rw [sent.rack_eq (by decide) (by decide), startSpacing_rack, if_pos rfl, missed, if_pos rfl, if_neg lost]
      rfl
    · rw [sent.chs_eq (by decide), (spaced _).chs_eq (by decide), k.chs_eq (by decide)]
    · rw [sent.evq_eq (by decide), (spaced _).evq_eq (by decide), k.evq_eq (by decide)]

/-- Settles O58: each timer at its end, and where it does not run. -/
theorem rackTimersExpire : Obligations.RackTimersExpire := by
  unfold Obligations.RackTimersExpire
  intro s
  refine ⟨fun rack => ?_, fun a => ?_⟩
  · intro c l others at_
    refine ⟨fun hn => ?_, fun hn => ?_, fun ends hs => ?_, fun o ho => ?_⟩
    · have : spacingExpiry rack s = s := by rw [spacingExpiry, hn]
      exact congrArg Host.Outcome.next this
    · have same : pollTimeout rack s = s := by rw [pollTimeout, hn]
      have run : exec (.pollTimeout rack) s = .next (rackSender s) :=
        congrArg (fun u => Host.Outcome.next (rackSender u)) same
      exact ⟨_, run, rackSender_keepsParts s⟩
    · exact spacingTimer_expires hs
    · exact pollTimeout_acts ho
  · intro b ended
    exact ⟨fun ends h he => congrArg Host.Outcome.next (settleExpiry_of_running h he),
      fun ends h he => congrArg Host.Outcome.next (settleExpiry_of_running h he),
      fun h => congrArg Host.Outcome.next (settleExpiry_of_not_running h),
      fun h => congrArg Host.Outcome.next (settleExpiry_of_not_running h)⟩

end Sys2Proof.Machine
end

section
/-! Selection of a bay for a fast turn (R143, R144), what the start of a turn writes (R145), and what the rack sender leaves
of a bay (R132). -/

namespace Sys2Proof.Machine

open Sys2Proof

variable {s t u : State}

/-! ### Candidates (R143) -/

/-- A bay is a candidate for a fast turn, the list of active turns given. -/
def Candidate (s : State) (rack : Fin 12) (turns : List Turn) (b : Fin 24) : Prop :=
  (s.rack rack).live.phase = .online ∧ 0 < (s.sched rack).capacity ∧
  (∃ h r, (s.bay (bayAddress rack b)).presence = .known h ∧ s.receiver h = some r ∧ r.fault = false) ∧
  (s.bay (bayAddress rack b)).settle ≠ .dock ∧ (s.bay (bayAddress rack b)).settle ≠ .dockEnded ∧
  (s.bay (bayAddress rack b)).level ≠ none ∧ (s.bay (bayAddress rack b)).full = false ∧ ∀ x ∈ turns, x.bay ≠ b

theorem receiverIn_eq_some {a : Fin 288} {r : Receiver} :
    receiverIn s a = some r ↔ ∃ h, (s.bay a).presence = .known h ∧ s.receiver h = some r := by
  unfold receiverIn
  cases (s.bay a).presence <;> simp

theorem turnOn_isNone {rack : Fin 12} {b : Fin 24} :
    (turnOn s rack b).isNone = true ↔ ∀ x ∈ (s.sched rack).active, x.bay ≠ b := by
  simp [turnOn, List.find?_eq_none]

theorem isCandidate_iff {rack : Fin 12} {b : Fin 24} :
    isCandidate s rack b = true ↔ Candidate s rack (s.sched rack).active b := by
  have known : (receiverIn s (bayAddress rack b)).any (fun r => !r.fault) = true ↔
      ∃ h r, (s.bay (bayAddress rack b)).presence = .known h ∧ s.receiver h = some r ∧ r.fault = false := by
    simp only [Option.any_eq_true, receiverIn_eq_some, Bool.not_eq_true']
    constructor
    · rintro ⟨r, ⟨h, hp, hr⟩, hf⟩
      exact ⟨h, r, hp, hr, hf⟩
    · rintro ⟨h, r, hp, hr, hf⟩
      exact ⟨r, ⟨h, hp, hr⟩, hf⟩
  have eq : isCandidate s rack b = (isOnline s rack && decide (0 < (s.sched rack).capacity) &&
      (receiverIn s (bayAddress rack b)).any (fun r => !r.fault) &&
      decide ((s.bay (bayAddress rack b)).settle ≠ .dock) && decide ((s.bay (bayAddress rack b)).settle ≠ .dockEnded) &&
      (s.bay (bayAddress rack b)).level.isSome && !(s.bay (bayAddress rack b)).full && (turnOn s rack b).isNone) := by
    unfold isCandidate
    cases receiverIn s (bayAddress rack b) <;> rfl
  rw [eq]
  simp only [Bool.and_eq_true, known, isOnline, decide_eq_true_eq, turnOn_isNone, Candidate, Option.isSome_iff_ne_none,
    Bool.not_eq_true', and_assoc]

theorem isEligible_iff {rack : Fin 12} {b : Fin 24} : isEligible s rack b = true ↔
    Candidate s rack (s.sched rack).active b ∧ (s.bay (bayAddress rack b)).served = false := by
  simp [isEligible, isCandidate_iff]

theorem hasCandidate_iff {rack : Fin 12} :
    hasCandidate s rack = true ↔ ∃ b, Candidate s rack (s.sched rack).active b := by
  simp [hasCandidate, isCandidate_iff]

/-! ### The order of selection (R144) -/

/-- The level of a bay for selection. -/
def turnLevel (s : State) (rack : Fin 12) (b : Fin 24) : Nat := (s.bay (bayAddress rack b)).level.getD 0

/-- Bay `b` comes before bay `x` in the order of selection, or is that bay. -/
def FirstOf (s : State) (rack : Fin 12) (b x : Fin 24) : Prop :=
  turnClass s (bayAddress rack b) < turnClass s (bayAddress rack x) ∨
  (turnClass s (bayAddress rack b) = turnClass s (bayAddress rack x) ∧
    (turnLevel s rack b < turnLevel s rack x ∨ (turnLevel s rack b = turnLevel s rack x ∧ b ≤ x)))

theorem FirstOf.refl (s : State) (rack : Fin 12) (b : Fin 24) : FirstOf s rack b b := .inr ⟨rfl, .inr ⟨rfl, le_rfl⟩⟩

theorem FirstOf.trans {rack : Fin 12} {x y z : Fin 24} (h : FirstOf s rack x y) (k : FirstOf s rack y z) :
    FirstOf s rack x z := by
  unfold FirstOf at *
  omega

theorem ranksBefore_iff {rack : Fin 12} {x y : Fin 24} : ranksBefore s rack x y = true ↔
    turnClass s (bayAddress rack x) < turnClass s (bayAddress rack y) ∨
    (turnClass s (bayAddress rack x) = turnClass s (bayAddress rack y) ∧
      turnLevel s rack x < turnLevel s rack y) := by
  simp [ranksBefore, turnLevel]

/-- The better of the best bay so far and the next one. -/
def betterBay (s : State) (rack : Fin 12) (best : Option (Fin 24)) (b : Fin 24) : Option (Fin 24) :=
  match best with
  | none => some b
  | some x => if ranksBefore s rack b x then some b else some x

theorem foldl_betterBay {rack : Fin 12} {x : Fin 24} {rest : List (Fin 24)} (h : (x :: rest).Pairwise (· < ·)) :
    ∃ b ∈ x :: rest, rest.foldl (betterBay s rack) (some x) = some b ∧ ∀ y ∈ x :: rest, FirstOf s rack b y := by
  induction rest generalizing x with
  | nil => exact ⟨x, by simp, rfl, fun y hy => by simp at hy; exact hy ▸ .refl s rack x⟩
  | cons y rest ih =>
    obtain ⟨hx, hrest⟩ := List.pairwise_cons.1 h
    have hxy : x < y := hx y (by simp)
    by_cases better : ranksBefore s rack y x = true
    · obtain ⟨b, hb, fold, first⟩ := ih hrest
      have yx : FirstOf s rack y x := (ranksBefore_iff.1 better).imp id (And.imp id .inl)
      refine ⟨b, List.mem_cons_of_mem x hb, ?_, fun z hz => ?_⟩
      · rw [List.foldl_cons, betterBay, if_pos better, fold]
      · rcases List.mem_cons.1 hz with rfl | hz
        · exact (first y (by simp)).trans yx
        · exact first z hz
    · have hpair : (x :: rest).Pairwise (· < ·) :=
        List.pairwise_cons.2 ⟨fun z hz => hx z (by simp [hz]), (List.pairwise_cons.1 hrest).2⟩
      obtain ⟨b, hb, fold, first⟩ := ih hpair
      have xy : FirstOf s rack x y := by
        have := mt ranksBefore_iff.2 better
        unfold FirstOf
        omega
      refine ⟨b, ?_, ?_, fun z hz => ?_⟩
      · rcases List.mem_cons.1 hb with rfl | hb <;> simp_all
      · rw [List.foldl_cons, betterBay, if_neg better, fold]
      · rcases List.mem_cons.1 hz with rfl | hz
        · exact first z (by simp)
        · rcases List.mem_cons.1 hz with rfl | hz
          · exact (first x (by simp)).trans xy
          · exact first z (by simp [hz])

theorem bestBay_eq (s : State) (rack : Fin 12) :
    bestBay s rack = ((indices 24).filter (isEligible s rack)).foldl (betterBay s rack) none := rfl

theorem bestBay_eq_none {rack : Fin 12} (h : ∀ b, isEligible s rack b = false) : bestBay s rack = none := by
  rw [bestBay_eq, List.filter_eq_nil_iff.2 fun b _ => by simp [h b]]
  rfl

/-- The best bay of the eligible ones comes first among them. -/
theorem bestBay_eq_some {rack : Fin 12} (h : ∃ b, isEligible s rack b = true) : ∃ b, bestBay s rack = some b ∧
    isEligible s rack b = true ∧ ∀ x, isEligible s rack x = true → FirstOf s rack b x := by
  obtain ⟨b, hb⟩ := h
  rw [bestBay_eq]
  cases hl : (indices 24).filter (isEligible s rack) with
  | nil => exact absurd hb (by simpa using List.filter_eq_nil_iff.1 hl b (List.mem_finRange b))
  | cons x rest =>
    have sorted : (x :: rest).Pairwise (· < ·) := hl ▸ (pairwise_finRange_lt 24).filter _
    obtain ⟨c, hc, fold, first⟩ := foldl_betterBay (s := s) (rack := rack) sorted
    have mem (y : Fin 24) : y ∈ x :: rest ↔ isEligible s rack y = true := by rw [← hl]; simp
    exact ⟨c, fold, (mem c).1 hc, fun y hy => first y ((mem y).2 hy)⟩

/-! ### A new round (R144) -/

theorem bayAddress_inj_right {rack : Fin 12} {b c : Fin 24} : bayAddress rack b = bayAddress rack c ↔ b = c := by
  constructor
  · intro h
    have := congrArg bayNumber h
    rwa [bayNumber_bayAddress, bayNumber_bayAddress] at this
  · exact fun h => h ▸ rfl

/-- The bays of a rack with their served flags cleared. -/
theorem newRound_bay (rack : Fin 12) (s : State) (a : Fin 288) : (newRound rack s).bay a =
    if rackOf a = rack then { s.bay a with served := false } else s.bay a := by
  have cleared : (forEach (indices 24)
      (fun b u => u.putBay (bayAddress rack b) { u.bay (bayAddress rack b) with served := false }) s).bay a =
      if rackOf a = rack then { s.bay a with served := false } else s.bay a := by
    have each (bs : List (Fin 24)) (u : State) : (forEach bs
        (fun b u => u.putBay (bayAddress rack b) { u.bay (bayAddress rack b) with served := false }) u).bay a =
        if ∃ b ∈ bs, a = bayAddress rack b then { u.bay a with served := false } else u.bay a := by
      induction bs generalizing u with
      | nil => simp [forEach]
      | cons b bs ih =>
        refine (ih _).trans ?_
        rw [State.putBay_bay]
        by_cases h : a = bayAddress rack b
        · subst h
          simp
        · simp [h]
    rw [each]
    by_cases h : rackOf a = rack
    · rw [if_pos h, if_pos ⟨bayNumber a, List.mem_finRange _, by rw [← h, bayAddress_rackOf]⟩]
    · rw [if_neg h, if_neg]
      rintro ⟨b, -, rfl⟩
      exact h (rackOf_bayAddress rack b)
  simp only [newRound, State.putSched_bay, cleared]

theorem newRound_keepsParts (rack : Fin 12) (s : State) : KeepsAllBut [.sched, .bays] s (newRound rack s) :=
  newRound_keeps .refl (by decide) (by decide)

/-- A served flag aside, a new round leaves every bay as it is. -/
theorem newRound_bay_fields (rack : Fin 12) (s : State) (a : Fin 288) :
    ∃ v, (newRound rack s).bay a = { s.bay a with served := v } := by
  rw [newRound_bay]
  split
  exacts [⟨_, rfl⟩, ⟨_, rfl⟩]

/-- What tells candidates and their order is the same in two states. -/
structure SameChoice (s t : State) (rack : Fin 12) : Prop where
  phase : (t.rack rack).live.phase = (s.rack rack).live.phase
  capacity : (t.sched rack).capacity = (s.sched rack).capacity
  receiver : ∀ h, t.receiver h = s.receiver h
  bay : ∀ a, (t.bay a).presence = (s.bay a).presence ∧
    (((t.bay a).settle ≠ .dock ∧ (t.bay a).settle ≠ .dockEnded) ↔
      (s.bay a).settle ≠ .dock ∧ (s.bay a).settle ≠ .dockEnded) ∧
    (t.bay a).level = (s.bay a).level ∧ (t.bay a).full = (s.bay a).full

theorem SameChoice.candidate {rack : Fin 12} (h : SameChoice s t rack) (turns : List Turn) (b : Fin 24) :
    Candidate t rack turns b ↔ Candidate s rack turns b := by
  obtain ⟨presence, settle, level, full⟩ := h.bay (bayAddress rack b)
  simp only [Candidate, h.phase, h.capacity, h.receiver, presence, level, full]
  tauto

theorem SameChoice.firstOf {rack : Fin 12} (h : SameChoice s t rack) (b x : Fin 24) :
    FirstOf t rack b x ↔ FirstOf s rack b x := by
  have cls (a : Fin 288) : turnClass t a = turnClass s a := by
    have same : receiverIn t a = receiverIn s a := by
      unfold receiverIn
      rw [(h.bay a).1]
      cases (s.bay a).presence <;> simp [h.receiver]
    simp only [turnClass, same]
  have level (b : Fin 24) : turnLevel t rack b = turnLevel s rack b := by
    unfold turnLevel
    rw [(h.bay _).2.2.1]
  simp only [FirstOf, cls, level]

theorem newRound_sameChoice (rack r : Fin 12) (s : State) : SameChoice s (newRound rack s) r where
  phase := congrArg RackLive.phase (newRound_keepsParts rack s .rackLives (by decide) r)
  capacity := by
    rw [newRound_sched]
    split
    next h => rw [h]
    next => rfl
  receiver := (newRound_keepsParts rack s).receiver_eq (by decide)
  bay a := by
    obtain ⟨v, hv⟩ := newRound_bay_fields rack s a
    rw [hv]
    exact ⟨rfl, Iff.rfl, rfl, rfl⟩

theorem newRound_active (rack : Fin 12) (s : State) :
    ((newRound rack s).sched rack).active = (s.sched rack).active := by
  rw [newRound_sched, if_pos rfl]

/-! ### Selection (R144) -/

/-- A candidate whose served flag is clear. -/
def Unserved (s : State) (rack : Fin 12) (turns : List Turn) (b : Fin 24) : Prop :=
  Candidate s rack turns b ∧ (s.bay (bayAddress rack b)).served = false

/-- A candidate that selection may choose: an unserved one, or any where all are served. -/
def Open (s : State) (rack : Fin 12) (turns : List Turn) (b : Fin 24) : Prop :=
  Candidate s rack turns b ∧ ((s.bay (bayAddress rack b)).served = false ∨ ∀ x, ¬ Unserved s rack turns x)

/-- Selection takes the first open candidate, after a new round where every candidate is served. -/
theorem selectBay_eq_some {rack : Fin 12} (h : ∃ b, Candidate s rack (s.sched rack).active b) :
    ∃ b u, selectBay rack s = (some b, u) ∧ Open s rack (s.sched rack).active b ∧
      (∀ x, Open s rack (s.sched rack).active x → FirstOf s rack b x) ∧
      ((∃ x, Unserved s rack (s.sched rack).active x) → u = s) ∧
      ((∀ x, ¬ Unserved s rack (s.sched rack).active x) → u = newRound rack s) := by
  by_cases hu : ∃ x, Unserved s rack (s.sched rack).active x
  · obtain ⟨x, hx⟩ := hu
    obtain ⟨b, best, eligible, first⟩ := bestBay_eq_some ⟨x, isEligible_iff.2 hx⟩
    obtain ⟨hc, hs⟩ := isEligible_iff.1 eligible
    refine ⟨b, s, by rw [selectBay, best], ⟨hc, .inl hs⟩, fun y ⟨hyc, hy⟩ => first y (isEligible_iff.2 ⟨hyc, ?_⟩),
      fun _ => rfl, fun none => absurd hx (none x)⟩
    exact hy.resolve_right fun none => none x hx
  · have none : ∀ x, ¬ Unserved s rack (s.sched rack).active x := fun x hx => hu ⟨x, hx⟩
    have best : bestBay s rack = .none :=
      bestBay_eq_none fun b => Bool.not_eq_true _ ▸ fun he => none b (isEligible_iff.1 he)
    have same := newRound_sameChoice rack rack s
    have eligible (b : Fin 24) : isEligible (newRound rack s) rack b = true ↔
        Candidate s rack (s.sched rack).active b := by
      rw [isEligible_iff, newRound_active, same.candidate, newRound_bay, rackOf_bayAddress, if_pos rfl]
      exact and_iff_left rfl
    obtain ⟨x, hx⟩ := h
    obtain ⟨b, best', he, first⟩ := bestBay_eq_some ⟨x, (eligible x).2 hx⟩
    refine ⟨b, newRound rack s, ?_, ⟨(eligible b).1 he, .inr none⟩,
      fun y hy => (same.firstOf b y).1 (first y ((eligible y).2 hy.1)), fun hu' => absurd hu' hu, fun _ => rfl⟩
    rw [selectBay, best]
    dsimp only
    rw [if_pos (hasCandidate_iff.2 ⟨x, hx⟩), best']

theorem selectBay_eq_none {rack : Fin 12} (h : ∀ b, ¬ Candidate s rack (s.sched rack).active b) :
    selectBay rack s = (none, s) := by
  have best : bestBay s rack = none :=
    bestBay_eq_none fun b => Bool.not_eq_true _ ▸ fun he => h b (isEligible_iff.1 he).1
  rw [selectBay, best]
  exact if_neg fun hc => (hasCandidate_iff.1 hc).elim h

/-! ### The start of a turn (R145) -/

theorem setMode_bay (a : Fin 288) (m : ChargeMode) (s : State) (a' : Fin 288) : ∃ p, (setMode a m s).bay a' =
    { s.bay a' with mode := if a' = a then m else (s.bay a').mode, pending := p } := by
  unfold setMode
  dsimp only
  split
  next h =>
    refine ⟨(s.bay a').pending, ?_⟩
    split
    next he => rw [he, ← h]
    next => rfl
  next h =>
    rw [State.putBay_bay]
    split
    next he => exact ⟨true, by rw [he]⟩
    next => exact ⟨(s.bay a').pending, rfl⟩

/-- A turn settle is not started on a bay that is EMPTY or in its dock settle (R127). -/
def settlesTurn (b : Bay) : Bool :=
  decide (b.presence ≠ .empty) && decide (b.settle ≠ .dock) && decide (b.settle ≠ .dockEnded)

theorem settlesTurn_iff (b : Bay) :
    settlesTurn b = true ↔ b.presence ≠ .empty ∧ b.settle ≠ .dock ∧ b.settle ≠ .dockEnded := by
  simp [settlesTurn, and_assoc]

theorem startTurnSettle_bay (a : Fin 288) (s : State) (a' : Fin 288) : (startTurnSettle a s).bay a' =
    if a' = a ∧ settlesTurn (s.bay a) = true then
      { s.bay a with settle := .turn, settleEnds := some (s.clock.now + 2000) } else s.bay a' := by
  unfold startTurnSettle
  dsimp only
  by_cases h : settlesTurn (s.bay a) = true
  · have := (settlesTurn_iff _).1 h
    rw [if_neg (by tauto), State.putBay_bay]
    simp [h, Config.turnSettleMs]
  · have := mt (settlesTurn_iff (s.bay a)).2 h
    rw [if_pos (by tauto), if_neg (fun hh => h hh.2)]

theorem countTurn_bay (a a' : Fin 288) (s : State) : (countTurn a s).bay a' = s.bay a' :=
  (countTurn_keeps (ps := [.receivers]) .refl (by decide)).bay_eq (by decide) a'

/-- The bays after the start of a turn: the bay's mode is FAST, its served flag set and a turn settle running; the
others are as they were. -/
theorem startTurn_bay (rack : Fin 12) (b : Fin 24) (s : State) (a : Fin 288) :
    ∃ p, (startTurn rack b s).bay a = if a = bayAddress rack b then
      { s.bay a with
        mode := .fast, pending := p, served := true
        settle := if settlesTurn (s.bay a) then .turn else (s.bay a).settle
        settleEnds := if settlesTurn (s.bay a) then some (s.clock.now + 2000) else (s.bay a).settleEnds }
      else { s.bay a with pending := p } := by
  set q : Sched := { s.sched rack with
    active := (s.sched rack).active ++ [⟨b, s.clock.now + (s.rack rack).config.turnLength * 1000⟩]
    counters := { (s.sched rack).counters with started := satAdd (s.sched rack).counters.started 1 } }
  set u := (s.putSched rack q).putBay (bayAddress rack b)
    { (s.putSched rack q).bay (bayAddress rack b) with served := true } with hu
  have marked (a : Fin 288) : u.bay a = if a = bayAddress rack b then { s.bay a with served := true } else s.bay a := by
    rw [hu, State.putBay_bay]
    split
    next h => rw [h]; rfl
    next => rfl
  have clock : (setMode (bayAddress rack b) .fast u).clock.now = s.clock.now :=
    congrArg Clock.now ((setMode_keeps (ps := [.bays]) .refl (by decide)) .clock (by decide))
  have eq : startTurn rack b s = countTurn (bayAddress rack b)
    (startTurnSettle (bayAddress rack b) (setMode (bayAddress rack b) .fast u)) := rfl
  rw [eq, countTurn_bay, startTurnSettle_bay, clock]
  obtain ⟨p, mode⟩ := setMode_bay (bayAddress rack b) .fast u a
  refine ⟨p, ?_⟩
  by_cases h : a = bayAddress rack b
  · rw [← h] at mode marked ⊢
    rw [mode, marked, if_pos rfl, if_pos rfl]
    have settles : settlesTurn { s.bay a with mode := .fast, pending := p, served := true } = settlesTurn (s.bay a) := rfl
    simp only [true_and, if_true]
    rw [settles]
    split <;> rfl
  · rw [if_neg (fun hh => h hh.1), if_neg h, mode, if_neg h, marked, if_neg h]

/-- The receivers after the start of a turn: the one in the bay has one turn more. -/
theorem startTurn_receiver (rack : Fin 12) (b : Fin 24) (s : State) (h : Fin 384) (r : Receiver)
    (hp : (s.bay (bayAddress rack b)).presence = .known h) (hr : s.receiver h = some r) :
    (startTurn rack b s).receiver h = some { r with turnCount := min (r.turnCount + 1) 65535 } := by
  set v := startTurnSettle (bayAddress rack b) (setMode (bayAddress rack b) .fast
    ((s.putSched rack { s.sched rack with
      active := (s.sched rack).active ++ [⟨b, s.clock.now + (s.rack rack).config.turnLength * 1000⟩]
      counters := { (s.sched rack).counters with started := satAdd (s.sched rack).counters.started 1 } }).putBay
      (bayAddress rack b) { s.bay (bayAddress rack b) with served := true })) with hv
  have eq : startTurn rack b s = countTurn (bayAddress rack b) v := rfl
  have k : KeepsAllBut [.sched, .bays] s v :=
    startTurnSettle_keeps (setMode_keeps (putBay_keeps (putSched_keeps .refl (by decide)) (by decide)) (by decide))
      (by decide)
  obtain ⟨p, after⟩ := startTurn_bay rack b s (bayAddress rack b)
  have presence : (v.bay (bayAddress rack b)).presence = .known h := by
    rw [← countTurn_bay (bayAddress rack b), ← eq, after, if_pos rfl]
    exact hp
  have same : v.receiver h = some r := (k.receiver_eq (by decide) h).trans hr
  rw [eq, countTurn, presence]
  dsimp only
  rw [same]
  exact State.putReceiver_receiver_self _ _ _

/-! ### The rack sender and the bays (R132) -/

theorem rackSender_bay (s : State) (a : Fin 288) : ∃ p, (rackSender s).bay a = { s.bay a with pending := p } := by
  have run (n : Nat) (s : State) : ∃ p, (runSender n s).bay a = { s.bay a with pending := p } := by
    induction n generalizing s with
    | zero => exact ⟨_, rfl⟩
    | succ n ih =>
      rw [runSender]
      split
      · exact ⟨_, rfl⟩
      split
      · exact ⟨_, rfl⟩
      next r b _ =>
        obtain ⟨p, hp⟩ := ih (sendCommand r b s)
        have sent : (sendCommand r b s).bay a = (buildCommand r b s).bay a := by
          rw [sendCommand_eq]
          exact (handOver_keeps (ps := [.sender, .egress]) .refl (by decide)
            (show told .bayCommand ⊆ [.sender, .egress] by decide)).bay_eq (by decide) a
        refine ⟨p, ?_⟩
        rw [hp, sent, buildCommand_bay]
        split <;> rfl
  exact run 289 s

end Sys2Proof.Machine
end

section
/-! The expiry of a cadence and of a turn (R142, R145 to R148). -/

namespace Sys2Proof.Machine

open Sys2Proof

variable {s t u w : State}

/-! ### A turn started by selection -/

/-- What the start of a turn by selection leaves: the scheduler part before `pay`, the bays and the receiver. -/
structure TurnStarted (s t : State) (rack : Fin 12) (b : Fin 24) (q : Sched) : Prop where
  isOpen : Open s rack (s.sched rack).active b
  first : ∀ x, Open s rack (s.sched rack).active x → FirstOf s rack b x
  sched : q = { s.sched rack with
    active := (s.sched rack).active ++ [⟨b, s.clock.now + (s.rack rack).config.turnLength * 1000⟩], round := q.round
    counters := { (s.sched rack).counters with started := min ((s.sched rack).counters.started + 1) 4294967295 } }
  sameRound : (∃ x, Unserved s rack (s.sched rack).active x) → q.round = (s.sched rack).round
  newRound : (∀ x, ¬ Unserved s rack (s.sched rack).active x) → q.round = (s.sched rack).round + 1#16
  bay : (t.bay (bayAddress rack b)).mode = .fast ∧ (t.bay (bayAddress rack b)).served = true ∧
    (t.bay (bayAddress rack b)).settle = .turn ∧ (t.bay (bayAddress rack b)).settleEnds = some (s.clock.now + 2000)
  served : ∀ x, x ≠ b → (t.bay (bayAddress rack x)).served =
    ((s.bay (bayAddress rack x)).served && decide (q.round = (s.sched rack).round))
  mode : ∀ a, a ≠ bayAddress rack b → (t.bay a).mode = (s.bay a).mode
  receiver : ∀ h r, (s.bay (bayAddress rack b)).presence = .known h → s.receiver h = some r →
    t.receiver h = some { r with turnCount := min (r.turnCount + 1) 65535 }

theorem startSelected_of_candidate {rack : Fin 12} {pay : Sched → Sched}
    (h : ∃ b, Candidate s rack (s.sched rack).active b) : ∃ b q, TurnStarted s (startSelected rack pay s) rack b q ∧
      ∀ r, (startSelected rack pay s).sched r = if r = rack then pay q else s.sched r := by
  obtain ⟨b, u, selected, isOpen, first, same, fresh⟩ := selectBay_eq_some h
  have eq : startSelected rack pay s =
      (startTurn rack b u).putSched rack (pay ((startTurn rack b u).sched rack)) := by rw [startSelected, selected]
  have hu : u = s ∨ u = Machine.newRound rack s := by
    by_cases hx : ∃ x, Unserved s rack (s.sched rack).active x
    · exact .inl (same hx)
    · exact .inr (fresh fun x hx' => hx ⟨x, hx'⟩)
  have bay (a : Fin 288) : (startSelected rack pay s).bay a = (startTurn rack b u).bay a := by
    rw [eq]
    rfl
  have k : KeepsAllBut [.sched, .bays] s u := by
    rcases hu with rfl | rfl
    exacts [.refl, newRound_keepsParts rack s]
  have fields (a : Fin 288) : ∃ v, u.bay a = { s.bay a with served := v } := by
    rcases hu with rfl | rfl
    exacts [⟨_, rfl⟩, newRound_bay_fields rack s a]
  have clock : u.clock = s.clock := k .clock (by decide)
  have conf : (u.rack rack).config = (s.rack rack).config := k .rackConfigs (by decide) rack
  have sched : u.sched rack = { s.sched rack with round := (u.sched rack).round } := by
    rcases hu with rfl | rfl
    · rfl
    · rw [newRound_sched, if_pos rfl]
  have known := isOpen.1
  obtain ⟨-, -, ⟨h0, r0, hp0, -, -⟩, hs1, hs2, -⟩ := known
  refine ⟨b, (startTurn rack b u).sched rack, ⟨isOpen, first, ?_, fun hx => ?_, fun hx => ?_, ?_, fun x hx => ?_,
    fun a ha => ?_, fun n r hp hr => ?_⟩, fun r => ?_⟩
  · rw [startTurn_sched, if_pos rfl, clock, conf]
    conv_lhs => rw [sched]
    rfl
  · rw [startTurn_sched, if_pos rfl, same hx]
  · rw [startTurn_sched, if_pos rfl, fresh hx, newRound_sched, if_pos rfl]
    rfl
  · obtain ⟨p, after⟩ := startTurn_bay rack b u (bayAddress rack b)
    obtain ⟨v, hv⟩ := fields (bayAddress rack b)
    have settles : settlesTurn (u.bay (bayAddress rack b)) = true := by
      rw [settlesTurn_iff, hv]
      exact ⟨by simp [hp0], hs1, hs2⟩
    rw [bay, after, if_pos rfl, if_pos settles, if_pos settles, clock]
    exact ⟨rfl, rfl, rfl, rfl⟩
  · obtain ⟨p, after⟩ := startTurn_bay rack b u (bayAddress rack x)
    rw [bay, after, if_neg (mt bayAddress_inj_right.1 hx), startTurn_sched, if_pos rfl]
    rcases hu with rfl | rfl
    · simp
    · simp only [newRound_bay, rackOf_bayAddress, if_true, newRound_sched]
      simp
  · obtain ⟨p, after⟩ := startTurn_bay rack b u a
    obtain ⟨v, hv⟩ := fields a
    rw [bay, after, if_neg ha, hv]
  · obtain ⟨v, hv⟩ := fields (bayAddress rack b)
    have hr' : u.receiver n = some r := (k.receiver_eq (by decide) n).trans hr
    rw [eq]
    exact startTurn_receiver rack b u n r (by rw [hv]; exact hp) hr'
  · rw [eq, State.putSched_sched]
    split
    · rfl
    next hr =>
      rw [startTurn_sched, if_neg hr]
      rcases hu with rfl | rfl
      · rfl
      · rw [newRound_sched, if_neg hr]

theorem startSelected_of_no_candidate {rack : Fin 12} {pay : Sched → Sched}
    (h : ∀ b, ¬ Candidate s rack (s.sched rack).active b) : startSelected rack pay s = s := by
  rw [startSelected, selectBay_eq_none h]

/-! ### The expiry of a cadence (R146) -/

theorem cadenceExpiry_eq {rack : Fin 12} {ends : Nat} (h : (s.sched rack).cadenceEnds = some ends) :
    cadenceExpiry rack s = rackSender (restartCadence rack (cadenceAct rack (s.reach ends))) := by
  rw [cadenceExpiry, h]

/-- What follows the action of a cadence expiry, and what it leaves of the scheduler. -/
structure CadenceActed (s w t : State) (rack : Fin 12) (ends : Nat) : Prop where
  clock : t.clock = { s.clock with now := max s.clock.now ends }
  others : (∀ r, r ≠ rack → w.sched r = s.sched r) → ∀ r, r ≠ rack → t.sched r = s.sched r
  sched : t.sched rack = { w.sched rack with cadenceEnds := (t.sched rack).cadenceEnds }
  cadence : (w.sched rack).band = (s.sched rack).band → (w.sched rack).capacity = (s.sched rack).capacity →
    (t.sched rack).cadenceEnds = if (s.rack rack).live.phase = .online ∧ 0 < (s.sched rack).capacity
      then some (max s.clock.now ends + cadencePeriod s rack) else none
  bay : ∀ a, ∃ p, t.bay a = { w.bay a with pending := p }
  receiver : ∀ h, t.receiver h = w.receiver h
  evq : t.evq = w.evq

theorem cadenceActed {rack : Fin 12} {ends : Nat}
    (k : KeepsAllBut [.sched, .receivers, .bays, .events, .egress] (s.reach ends) w) :
    CadenceActed s w (rackSender (restartCadence rack w)) rack ends := by
  have sent := rackSender_keepsParts (restartCadence rack w)
  have restarted : KeepsAllBut [.sched] w (restartCadence rack w) := restartCadence_keeps .refl (by decide)
  have sched (r : Fin 12) : (rackSender (restartCadence rack w)).sched r = if r = rack then
      { w.sched rack with cadenceEnds := loadedCadence w rack } else w.sched r :=
    (sent.sched_eq (by decide) r).trans (restartCadence_sched rack r w)
  have clock : w.clock = { s.clock with now := max s.clock.now ends } := k .clock (by decide)
  refine ⟨(sent .clock (by decide)).trans ((restarted .clock (by decide)).trans clock),
    fun hw r hr => ((sched r).trans (if_neg hr)).trans (hw r hr), ?_, fun hb hc => ?_, fun a => ?_, fun h => ?_, ?_⟩
  · rw [sched, if_pos rfl]
  · have online : isOnline w rack = isOnline (s.reach ends) rack := k.isOnline_eq (by decide) rack
    have entry : bandEntry w rack = bandEntry (s.reach ends) rack := k.bandEntry_eq (by decide) hb
    have conf : (w.rack rack).config = (s.rack rack).config := k .rackConfigs (by decide) rack
    have period : cadencePeriod w rack = cadencePeriod s rack := by
      unfold cadencePeriod
      rw [entry, conf]
      rfl
    rw [sched, if_pos rfl]
    dsimp only
    rw [loadedCadence, online, hc, clock, period]
    simp only [isOnline, Bool.and_eq_true, decide_eq_true_eq]
    rfl
  · obtain ⟨p, hp⟩ := rackSender_bay (restartCadence rack w) a
    exact ⟨p, hp.trans (by rw [restarted.bay_eq (by decide)])⟩
  · rw [sent.receiver_eq (by decide), restarted.receiver_eq (by decide)]
  · rw [sent.evq_eq (by decide), restarted.evq_eq (by decide)]

section CadenceCases
variable {rack : Fin 12}

theorem cadenceAct_pulledIn (h : 0 < (s.sched rack).pulledIn) : cadenceAct rack s =
    s.putSched rack { s.sched rack with pulledIn := (s.sched rack).pulledIn - 1 } := if_pos h

theorem cadenceAct_no_candidate (h : (s.sched rack).pulledIn = 0)
    (hc : ∀ b, ¬ Candidate s rack (s.sched rack).active b) : cadenceAct rack s = s := by
  have none : hasCandidate s rack = false := Bool.not_eq_true _ ▸ fun hh => (hasCandidate_iff.1 hh).elim hc
  simp [cadenceAct, h, none]

theorem cadenceAct_room (h : (s.sched rack).pulledIn = 0) (hc : ∃ b, Candidate s rack (s.sched rack).active b)
    (room : (s.sched rack).active.length < (s.sched rack).capacity) :
    cadenceAct rack s = startSelected rack id s := by
  simp [cadenceAct, h, hasCandidate_iff.2 hc, room]

theorem cadenceAct_full {e : BandEntry} (h : (s.sched rack).pulledIn = 0)
    (hc : ∃ b, Candidate s rack (s.sched rack).active b)
    (full : (s.sched rack).capacity ≤ (s.sched rack).active.length) (he : bandEntry s rack = some e) :
    cadenceAct rack s = if (s.sched rack).postponed < e.pMax
      then s.putSched rack { s.sched rack with postponed := (s.sched rack).postponed + 1 }
      else raiseEvent .turnStarved rack.val none
        ((((s.sched rack).band.map Fin.val).getD 8) * 256 + (s.sched rack).active.length)
        (s.putSched rack { s.sched rack with counters := { (s.sched rack).counters with
          starved := min ((s.sched rack).counters.starved + 1) 4294967295 } }) := by
  have : ¬ (s.sched rack).active.length < (s.sched rack).capacity := by omega
  simp only [cadenceAct, h, hasCandidate_iff.2 hc, this, he]
  rfl

end CadenceCases

/-- Whatever a cadence expiry does, it leaves other racks, the band and C as they are. -/
theorem cadenceAct_common (rack : Fin 12) (s : State) :
    (∀ r, r ≠ rack → (cadenceAct rack s).sched r = s.sched r) ∧
    ((cadenceAct rack s).sched rack).band = (s.sched rack).band ∧
    ((cadenceAct rack s).sched rack).capacity = (s.sched rack).capacity := by
  have put (x : Sched) (hb : x.band = (s.sched rack).band) (hc : x.capacity = (s.sched rack).capacity) :
      (∀ r, r ≠ rack → (s.putSched rack x).sched r = s.sched r) ∧
      ((s.putSched rack x).sched rack).band = (s.sched rack).band ∧
      ((s.putSched rack x).sched rack).capacity = (s.sched rack).capacity := by
    simp only [State.putSched_sched, if_true]
    exact ⟨fun r hr => if_neg hr, hb, hc⟩
  by_cases hp : 0 < (s.sched rack).pulledIn
  · rw [cadenceAct_pulledIn hp]
    exact put _ rfl rfl
  have h0 : (s.sched rack).pulledIn = 0 := by omega
  by_cases hc : ∃ b, Candidate s rack (s.sched rack).active b
  · by_cases room : (s.sched rack).active.length < (s.sched rack).capacity
    · rw [cadenceAct_room h0 hc room]
      obtain ⟨b, q, started, sched⟩ := startSelected_of_candidate (pay := id) hc
      refine ⟨fun r hr => (sched r).trans (if_neg hr), ?_, ?_⟩
      all_goals rw [sched, if_pos rfl, id, started.sched]
    · cases he : bandEntry s rack with
      | none =>
        have : cadenceAct rack s = s := by simp [cadenceAct, h0, hasCandidate_iff.2 hc, room, he]
        rw [this]
        exact ⟨fun _ _ => rfl, rfl, rfl⟩
      | some e =>
        rw [cadenceAct_full h0 hc (by omega) he]
        split
        · exact put _ rfl rfl
        · have raised (k : EventKind) (n d : Nat) (u : State) (r : Fin 12) :
              (raiseEvent k n none d u).sched r = u.sched r :=
            (raiseEvent_keeps (ps := eventParts) .refl (by decide) (by decide)).sched_eq (by decide) r
          simp only [raised]
          exact put _ rfl rfl
  · rw [cadenceAct_no_candidate h0 fun b hb => hc ⟨b, hb⟩]
    exact ⟨fun _ _ => rfl, rfl, rfl⟩

/-- The frame of a cadence expiry, by what its action changes. -/
theorem cadenceFrame {rack : Fin 12} {ends : Nat} {ps qs : List Part} (k : KeepsAllBut ps (s.reach ends) w)
    (hp : ps ⊆ qs) (hq : [Part.clock, .sched, .bays, .sender, .egress] ⊆ qs) :
    KeepsAllBut qs s (rackSender (restartCadence rack w)) :=
  rackSender_keeps (restartCadence_keeps ((reach_keeps .refl (hq (by decide))).trans (k.mono hp)) (hq (by decide)))
    (hq (by decide)) (hq (by decide)) (hq (by decide))

/-- Settles O59: the cases of R146 in order, each with the reload of the cadence and the rack sender after it. -/
theorem cadenceExpiryActs : Obligations.CadenceExpiryActs := by
  unfold Obligations.CadenceExpiryActs
  intro s rack
  refine ⟨fun hn => ?_, fun ends he => ?_⟩
  · have : cadenceExpiry rack s = s := by rw [cadenceExpiry, hn]
    exact congrArg Host.Outcome.next this
  intro q now place candidate unserved open_ level
  have run : exec (.cadenceExpiry rack) s = .next (rackSender (restartCadence rack (cadenceAct rack (s.reach ends)))) :=
    congrArg Host.Outcome.next (cadenceExpiry_eq he)
  have kept : KeepsAllBut [.sched, .receivers, .bays, .events, .egress] (s.reach ends)
      (cadenceAct rack (s.reach ends)) :=
    cadenceAct_keeps .refl (by decide) (by decide) (by decide) (by decide) (by decide)
  have acted := cadenceActed (rack := rack) kept
  obtain ⟨others, band, capacity⟩ := cadenceAct_common rack (s.reach ends)
  have sched_ (x : Sched) (hx : (cadenceAct rack (s.reach ends)).sched rack = x) :
      (rackSender (restartCadence rack (cadenceAct rack (s.reach ends)))).sched rack =
        { x with cadenceEnds := ((rackSender (restartCadence rack (cadenceAct rack (s.reach ends)))).sched rack).cadenceEnds } :=
    hx ▸ acted.sched
  have put (x : Sched) : ((s.reach ends).putSched rack x).sched rack = x := by rw [State.putSched_sched, if_pos rfl]
  refine ⟨_, run, acted.clock, acted.others others, acted.cadence band capacity, ?_, ?_, fun hp => ?_, fun h0 hc => ?_,
    fun h0 hc room => ?_, fun e h0 hc full hb => ⟨fun hlt => ?_, fun hge => ?_⟩⟩
  · rw [acted.sched]
    exact band
  · rw [acted.sched]
    exact capacity
  · have eq := cadenceAct_pulledIn (s := s.reach ends) (rack := rack) hp
    refine ⟨sched_ _ (by rw [eq, put]), cadenceFrame (ends := ends) (ps := [.sched]) ?_ (by decide) (by decide)⟩
    rw [eq]
    exact putSched_keeps .refl (by decide)
  · have eq := cadenceAct_no_candidate (s := s.reach ends) (rack := rack) h0 hc
    refine ⟨sched_ _ (by rw [eq]; rfl), cadenceFrame (ends := ends) (ps := []) ?_ (by decide) (by decide)⟩
    rw [eq]
    exact .refl
  · have eq := cadenceAct_room (s := s.reach ends) (rack := rack) h0 hc room
    obtain ⟨b, p, started, sched⟩ := startSelected_of_candidate (s := s.reach ends) (rack := rack) (pay := id) hc
    rw [← eq] at started sched
    have after : (cadenceAct rack (s.reach ends)).sched rack = p := (sched rack).trans (if_pos rfl)
    have round : ((rackSender (restartCadence rack (cadenceAct rack (s.reach ends)))).sched rack).round = p.round := by
      rw [acted.sched, after]
    have bay (x : Fin 24) := acted.bay (bayAddress rack x)
    refine ⟨b, started.isOpen, started.first, ?_, fun hx => round.trans (started.sameRound hx),
      fun hx => round.trans (started.newRound hx), ?_, fun x hx => ?_, fun h r hp hr => ?_,
      cadenceFrame (ends := ends) (ps := [.sched, .bays, .receivers]) ?_ (by decide) (by decide)⟩
    · refine (sched_ _ (after.trans started.sched)).trans ?_
      rw [round]
      rfl
    · obtain ⟨v, hv⟩ := bay b
      rw [hv]
      exact started.bay
    · obtain ⟨v, hv⟩ := bay x
      rw [hv, round]
      exact started.served x hx
    · rw [acted.receiver]
      exact started.receiver h r hp hr
    · rw [eq]
      exact startSelected_keeps .refl (by decide) (by decide) (by decide)
  · have eq := (cadenceAct_full (s := s.reach ends) (rack := rack) h0 hc full hb).trans (if_pos hlt)
    refine ⟨sched_ _ (by rw [eq, put]), cadenceFrame (ends := ends) (ps := [.sched]) ?_ (by decide) (by decide)⟩
    rw [eq]
    exact putSched_keeps .refl (by decide)
  · have eq := (cadenceAct_full (s := s.reach ends) (rack := rack) h0 hc full hb).trans (if_neg (by exact Nat.not_lt.2 hge))
    refine ⟨sched_ { q with counters := { q.counters with starved := min (q.counters.starved + 1) 4294967295 } } ?_,
      fun k hk => ?_, cadenceFrame (ends := ends) (ps := [.sched, .events, .egress]) ?_ (by decide) (by decide)⟩
    · rw [eq, (raiseEvent_keeps (ps := eventParts) .refl (by decide) (by decide)).sched_eq (by decide), put]
      rfl
    · refine EventsTaken.to_evq ?_ acted.evq
      rw [eq]
      have detail : (((s.reach ends).sched rack).band.map Fin.val).getD 8 = k.val := by
        have : ((s.reach ends).sched rack).band = some k := hk
        rw [this]
        rfl
      rw [detail]
      exact .raise_of_evq rfl rfl
    · rw [eq]
      exact raiseEvent_keeps (putSched_keeps .refl (by decide)) (by decide) (by decide)

end Sys2Proof.Machine
end

section
/-! The end of a turn and the turn that may follow it (R147, R148). -/

namespace Sys2Proof.Machine

open Sys2Proof

variable {s t u w : State}

/-! ### The turn stopped (R148, steps 1 to 3) -/

theorem judgedMode_ne_fast {a : Fin 288} (h : turnOn s (rackOf a) (bayNumber a) = none) : judgedMode s a ≠ .fast := by
  unfold judgedMode
  rw [h, if_neg (by simp)]
  split
  · simp
  split
  · simp
  split <;> simp

theorem stopTurn_bay (rack : Fin 12) (b : Fin 24) (s : State) : ∃ m p, m ≠ ChargeMode.fast ∧
    ∀ a, (stopTurn rack b s).bay a = if a = bayAddress rack b then
      { s.bay a with
        mode := m, pending := p
        settle := if settlesTurn (s.bay a) then .turn else (s.bay a).settle
        settleEnds := if settlesTurn (s.bay a) then some (s.clock.now + 2000) else (s.bay a).settleEnds }
      else s.bay a := by
  set v := s.putSched rack { s.sched rack with
    active := (s.sched rack).active.filter fun x => decide (x.bay ≠ b) } with hv
  have off : turnOn v (rackOf (bayAddress rack b)) (bayNumber (bayAddress rack b)) = none := by
    rw [rackOf_bayAddress, bayNumber_bayAddress, turnOn, hv, State.putSched_sched, if_pos rfl]
    simp [List.find?_eq_none]
  have judged (a : Fin 288) (h : a ≠ bayAddress rack b) : (judge (bayAddress rack b) v).bay a = s.bay a := by
    unfold judge setMode
    dsimp only
    split
    · rfl
    · rw [State.putBay_bay, if_neg h]
      rfl
  obtain ⟨p, hp⟩ := setMode_bay (bayAddress rack b) (judgedMode v (bayAddress rack b)) v (bayAddress rack b)
  have clock : (judge (bayAddress rack b) v).clock.now = s.clock.now :=
    congrArg Clock.now (show (judge (bayAddress rack b) v).clock = s.clock from
      (setMode_keeps (ps := [.bays]) .refl (by decide)) .clock (by decide))
  refine ⟨judgedMode v (bayAddress rack b), p, judgedMode_ne_fast off, fun a => ?_⟩
  have eq : stopTurn rack b s = startTurnSettle (bayAddress rack b) (judge (bayAddress rack b) v) := rfl
  rw [eq, startTurnSettle_bay, clock]
  by_cases h : a = bayAddress rack b
  · subst h
    have here : (judge (bayAddress rack b) v).bay (bayAddress rack b) =
        { s.bay (bayAddress rack b) with mode := judgedMode v (bayAddress rack b), pending := p } :=
      hp.trans (by rw [if_pos rfl]; rfl)
    rw [here]
    have settles (m : ChargeMode) : settlesTurn { s.bay (bayAddress rack b) with mode := m, pending := p } =
        settlesTurn (s.bay (bayAddress rack b)) := rfl
    simp only [true_and, if_true]
    rw [settles]
    split <;> rfl
  · rw [if_neg (fun hh => h hh.1), if_neg h, judged a h]

/-- What tells the candidates for the turn that follows is as it was before the turn that ends, its list aside. -/
theorem stopTurn_sameChoice (rack r : Fin 12) (b : Fin 24) (s : State) : SameChoice s (stopTurn rack b s) r := by
  have k : KeepsAllBut [.sched, .bays] s (stopTurn rack b s) := stopTurn_keeps .refl (by decide) (by decide)
  obtain ⟨m, p, -, after⟩ := stopTurn_bay rack b s
  refine ⟨congrArg RackLive.phase (k .rackLives (by decide) r), ?_, k.receiver_eq (by decide), fun a => ?_⟩
  · rw [stopTurn_sched]
    split
    next h => rw [h]
    next => rfl
  · rw [after]
    split
    · refine ⟨rfl, ?_, rfl, rfl⟩
      by_cases h : settlesTurn (s.bay a) = true
      · have := (settlesTurn_iff _).1 h
        simp [h, this]
      · simp [h]
    · exact ⟨rfl, Iff.rfl, rfl, rfl⟩

/-! ### The turn that follows (R148, step 4) -/

/-- A turn may follow on a rack whose list has room: a postponement is owed, or a pull-in is allowed. -/
def Follows (s : State) (rack : Fin 12) : Prop :=
  ((s.rack rack).live.phase = .online ∧ (s.sched rack).active.length < (s.sched rack).capacity) ∧
  (0 < (s.sched rack).postponed ∨
    ((s.sched rack).postponed = 0 ∧ ∃ e, bandEntry s rack = some e ∧ (s.sched rack).pulledIn < e.iMax))

/-- What the turn that follows does to the counts: it repays a postponement, or is a pull-in. -/
def followPay (owed : Bool) (x : Sched) : Sched :=
  if owed then { x with postponed := x.postponed - 1 } else { x with pulledIn := x.pulledIn + 1 }

theorem followPay_eq (owed : Bool) (x : Sched) : followPay owed x = { x with
    postponed := if owed then x.postponed - 1 else x.postponed
    pulledIn := if owed then x.pulledIn else x.pulledIn + 1 } := by
  cases owed <;> rfl

theorem followTurn_of_follows {rack : Fin 12} (h : Follows s rack) :
    followTurn rack s = startSelected rack (followPay (decide (0 < (s.sched rack).postponed))) s := by
  obtain ⟨⟨online, room⟩, hp | ⟨h0, e, he, hi⟩⟩ := h
  · have pay : followPay (decide (0 < (s.sched rack).postponed)) = fun x => { x with postponed := x.postponed - 1 } := by
      funext x
      simp [followPay, hp]
    rw [pay]
    simp [followTurn, isOnline, online, room, hp]
  · have pay : followPay (decide (0 < (s.sched rack).postponed)) = fun x => { x with pulledIn := x.pulledIn + 1 } := by
      funext x
      simp [followPay, h0]
    rw [pay]
    simp [followTurn, isOnline, online, room, h0, he, hi]

theorem followTurn_of_not_follows {rack : Fin 12} (h : ¬ Follows s rack) : followTurn rack s = s := by
  unfold followTurn
  dsimp only
  split
  next room =>
    simp only [isOnline, Bool.and_eq_true, decide_eq_true_eq] at room
    split
    next hp => exact absurd ⟨room, .inl hp⟩ h
    next hp =>
      split
      · rfl
      next e he =>
        refine if_neg fun hi => h ⟨room, .inr ⟨by omega, e, he, hi⟩⟩
  · rfl


/-- The candidates, their order and the round after the turn has ended are those of before it, with its bay's turn left
out. -/
theorem SameChoice.unserved {rack : Fin 12} (h : SameChoice s t rack)
    (served : ∀ x, (t.bay (bayAddress rack x)).served = (s.bay (bayAddress rack x)).served) (turns : List Turn) (b : Fin 24) :
    Unserved t rack turns b ↔ Unserved s rack turns b := by
  rw [Unserved, Unserved, h.candidate, served]

theorem SameChoice.isOpen {rack : Fin 12} (h : SameChoice s t rack)
    (served : ∀ x, (t.bay (bayAddress rack x)).served = (s.bay (bayAddress rack x)).served) (turns : List Turn) (b : Fin 24) :
    Open t rack turns b ↔ Open s rack turns b := by
  simp only [Open, h.candidate, served, h.unserved served]

theorem turnExpiry_eq {rack : Fin 12} {b : Fin 24} {turn : Turn} (h : turnOn s rack b = some turn) :
    exec (.turnExpiry rack b) s = .next (rackSender (endTurn rack b (s.reach turn.ends))) := by
  show Host.Outcome.next (turnExpiry rack b s) = _
  rw [turnExpiry, h]

/-- What the end of a turn leaves ahead of the turn that may follow. -/
structure TurnStopped (s v : State) (rack : Fin 12) (b : Fin 24) (now : Nat) (left : List Turn) : Prop where
  sched : ∀ x, v.sched x = if x = rack then { s.sched rack with active := left } else s.sched x
  clock : v.clock.now = now
  config : (v.rack rack).config = (s.rack rack).config
  same : SameChoice s v rack
  served : ∀ x, (v.bay (bayAddress rack x)).served = (s.bay (bayAddress rack x)).served
  entry : bandEntry v rack = bandEntry s rack
  slow : (v.bay (bayAddress rack b)).mode ≠ .fast
  settles : settlesTurn (s.bay (bayAddress rack b)) = true →
    (v.bay (bayAddress rack b)).settle = .turn ∧ (v.bay (bayAddress rack b)).settleEnds = some (now + 2000)
  others : ∀ x, x ≠ b → (v.bay (bayAddress rack x)).mode = (s.bay (bayAddress rack x)).mode

theorem turnStopped (s : State) (rack : Fin 12) (b : Fin 24) (ends : Nat) :
    TurnStopped s (stopTurn rack b (s.reach ends)) rack b (max s.clock.now ends)
      ((s.sched rack).active.filter fun x => decide (x.bay ≠ b)) := by
  have k : KeepsAllBut [.sched, .bays] (s.reach ends) (stopTurn rack b (s.reach ends)) :=
    stopTurn_keeps .refl (by decide) (by decide)
  have sched := fun x => stopTurn_sched rack x b (s.reach ends)
  obtain ⟨m, p, slow, bay⟩ := stopTurn_bay rack b (s.reach ends)
  have same := stopTurn_sameChoice rack rack b (s.reach ends)
  have here := bay (bayAddress rack b)
  rw [if_pos rfl] at here
  refine ⟨sched, congrArg Clock.now (k .clock (by decide)), k .rackConfigs (by decide) rack,
    ⟨same.phase, same.capacity, same.receiver, same.bay⟩, fun x => ?_,
    k.bandEntry_eq (by decide) (by rw [sched, if_pos rfl]), ?_, fun h => ?_, fun x hx => ?_⟩
  · rw [bay]
    split <;> rfl
  · rw [here]
    exact slow
  · have settles : settlesTurn ((s.reach ends).bay (bayAddress rack b)) = true := h
    rw [here, if_pos settles, if_pos settles]
    exact ⟨rfl, rfl⟩
  · rw [bay, if_neg fun h => hx (bayAddress_inj_right.1 h)]
    rfl

/-- The turn that follows starts on the first open candidate, and pays for it. -/
theorem TurnStopped.follows {v : State} {rack : Fin 12} {b : Fin 24} {now : Nat} {left : List Turn}
    (h : TurnStopped s v rack b now left) : Follows v rack ↔
      ((s.rack rack).live.phase = .online ∧ left.length < (s.sched rack).capacity) ∧
      (0 < (s.sched rack).postponed ∨
        ((s.sched rack).postponed = 0 ∧ ∃ e, bandEntry s rack = some e ∧ (s.sched rack).pulledIn < e.iMax)) := by
  rw [Follows, h.sched, if_pos rfl, h.same.phase, h.entry]

/-- What a turn expiry leaves of the scheduler, the clock and the receivers is what the end of the turn leaves. -/
theorem turnExpiry_after (s : State) (rack : Fin 12) (b : Fin 24) (ends : Nat) :
    let w := endTurn rack b (s.reach ends)
    (∀ x, (rackSender w).sched x = w.sched x) ∧ (∀ h, (rackSender w).receiver h = w.receiver h) ∧
    (∀ a, ∃ p, (rackSender w).bay a = { w.bay a with pending := p }) ∧
    (rackSender w).clock = { s.clock with now := max s.clock.now ends } ∧
    KeepsAllBut [.clock, .sched, .receivers, .bays, .sender, .egress] s (rackSender w) := by
  have sent := rackSender_keepsParts (endTurn rack b (s.reach ends))
  have ended : KeepsAllBut [.sched, .receivers, .bays] (s.reach ends) (endTurn rack b (s.reach ends)) :=
    endTurn_keeps .refl (by decide) (by decide) (by decide)
  refine ⟨sent.sched_eq (by decide), sent.receiver_eq (by decide), rackSender_bay _,
    (sent .clock (by decide)).trans (ended .clock (by decide)), rackSender_keeps (endTurn_keeps (reach_keeps .refl
      (by decide)) (by decide) (by decide) (by decide)) (by decide) (by decide) (by decide)⟩

/-- Settles O60: the turn stops; where a count allows it and a bay is a candidate, the next one starts on the bay that
selection finds after the stop. -/
theorem turnExpiryEndsTurn : Obligations.TurnExpiryEndsTurn := by
  unfold Obligations.TurnExpiryEndsTurn
  intro s rack b q place a left candidate unserved open_ level room owed pulls
  refine ⟨fun hn => ?_, fun turn ht => ?_⟩
  · have none : turnOn s rack b = none := Option.isNone_iff_eq_none.1 (turnOn_isNone.2 hn)
    have : turnExpiry rack b s = s := by rw [turnExpiry, none]
    exact congrArg Host.Outcome.next this
  have stopped : TurnStopped s _ rack b _ left := turnStopped s rack b turn.ends
  obtain ⟨v, hv⟩ : ∃ v, v = stopTurn rack b (s.reach turn.ends) := ⟨_, rfl⟩
  obtain ⟨final, receivers, pends, clock, frame⟩ := turnExpiry_after s rack b turn.ends
  have ended : endTurn rack b (s.reach turn.ends) = followTurn rack v := by rw [hv]; rfl
  rw [← hv] at stopped
  have here : v.sched rack = { q with active := left } := (stopped.sched rack).trans (if_pos rfl)
  rw [turnExpiry_eq ht]
  rw [ended] at final receivers pends clock frame ⊢
  by_cases fc : Follows v rack ∧ ∃ x, Candidate v rack (v.sched rack).active x
  · obtain ⟨x, n, started, after⟩ := startSelected_of_candidate (s := v) (rack := rack)
      (pay := followPay (decide (0 < (v.sched rack).postponed))) fc.2
    rw [← followTurn_of_follows fc.1] at started after
    have opens (y : Fin 24) : Open v rack (v.sched rack).active y ↔ open_ y := by
      rw [here]
      exact stopped.same.isOpen stopped.served left y
    have fresh (y : Fin 24) : Unserved v rack (v.sched rack).active y ↔ unserved y := by
      rw [here]
      exact stopped.same.unserved stopped.served left y
    have pay : (rackSender (followTurn rack v)).sched rack = followPay (decide (0 < q.postponed)) n := by
      rw [final, after, if_pos rfl, here]
    have round : ((rackSender (followTurn rack v)).sched rack).round = n.round := by rw [pay, followPay_eq]
    have nOf := started.sched
    rw [here, stopped.clock, stopped.config] at nOf
    refine ⟨_, [⟨x, max s.clock.now turn.ends + (s.rack rack).config.turnLength * 1000⟩], rfl,
      ⟨clock, fun y hy => ?_, ?_, ?_, ?_, ?_, fun h => absurd h (by simp), fun h => ?_, fun hroom hpay hc =>
        ⟨x, (opens x).1 started.isOpen, fun y hy => ?_, rfl, ?_, ?_, ?_, fun hy => ?_, fun hy => ?_, ?_, fun y hy => ?_,
          fun hb => ?_, fun h z hp hz => ?_⟩⟩, frame⟩
    · rw [final, after, if_neg hy, stopped.sched, if_neg hy]
    · rw [pay, followPay_eq, nOf]
    · rw [pay, followPay_eq, nOf]
    · rw [pay, followPay_eq, nOf]
    · rw [pay, followPay_eq, nOf]
    · obtain ⟨hroom, hpay⟩ := stopped.follows.1 fc.1
      exact absurd ⟨hroom, hpay, x, ((opens x).1 started.isOpen).1⟩ h
    · exact (stopped.same.firstOf x y).1 (started.first y ((opens y).2 hy))
    · rw [pay, followPay_eq, nOf]
      simp only [decide_eq_true_eq]
      rfl
    · rw [pay, followPay_eq, nOf]
      simp only [decide_eq_true_eq]
      rfl
    · rw [pay, followPay_eq, nOf]
    · rw [round, started.sameRound (hy.imp fun y => (fresh y).2), here]
    · rw [round, started.newRound fun y hu => hy y ((fresh y).1 hu), here]
    · obtain ⟨o, ho⟩ := pends (place x)
      rw [ho, ← stopped.clock]
      exact started.bay
    · obtain ⟨o, ho⟩ := pends (place y)
      have kept := started.served y hy
      rw [here, stopped.served y] at kept
      rw [ho, round]
      exact kept
    · obtain ⟨o, ho⟩ := pends a
      have mode := started.mode a fun h => hb (bayAddress_inj_right.1 h)
      rw [ho]
      exact mode.trans_ne stopped.slow
    · rw [receivers]
      exact started.receiver h z (((stopped.same.bay _).1).trans hp) ((stopped.same.receiver h).trans hz)
  · have eq : followTurn rack v = v := by
      by_cases hf : Follows v rack
      · refine (followTurn_of_follows hf).trans (startSelected_of_no_candidate fun x hx => fc ⟨hf, x, hx⟩)
      · exact followTurn_of_not_follows hf
    have cands (x : Fin 24) : Candidate v rack (v.sched rack).active x ↔ candidate x := by
      rw [here]
      exact stopped.same.candidate left x
    have never (hroom : room) (hpay : owed ∨ pulls) (hc : ∃ x, candidate x) : False :=
      fc ⟨stopped.follows.2 ⟨hroom, hpay⟩, hc.imp fun x hx => (cands x).2 hx⟩
    rw [eq] at final receivers pends clock frame ⊢
    refine ⟨_, [], rfl, ⟨clock, fun x hx => ?_, ?_, ?_, ?_, ?_, fun _ => ⟨?_, ?_, fun h1 h2 h3 => ?_, fun x hx => ?_,
      fun x => ?_, fun h => ?_⟩, fun _ => rfl, fun hroom hpay hc => (never hroom hpay hc).elim⟩, frame⟩
    · rw [final, stopped.sched, if_neg hx]
    · rw [final, here, List.append_nil]
    · rw [final, here]
    · rw [final, here]
    · rw [final, here]
    · rw [final, here]
    · obtain ⟨o, ho⟩ := pends a
      rw [ho]
      exact stopped.slow
    · obtain ⟨o, ho⟩ := pends a
      rw [ho]
      exact stopped.settles ((settlesTurn_iff _).2 ⟨h1, h2, h3⟩)
    · obtain ⟨o, ho⟩ := pends (place x)
      rw [ho]
      exact stopped.others x hx
    · obtain ⟨o, ho⟩ := pends (place x)
      rw [ho]
      exact stopped.served x
    · rw [receivers]
      exact stopped.same.receiver h

end Sys2Proof.Machine
end

section
/-! LOAD THERMAL TABLE: its operands, and the treatment of every rack (R138, R139). -/

namespace Sys2Proof.Machine

open Sys2Proof

variable {s t u : State}

/-- An action that changes its own entry by `Q` and no other entry, taken for every index, changes every entry by `Q`. -/
theorem forEach_indices_own {n : Nat} {α : Type} {get : State → Fin n → α} {I : State → Prop} {f : Fin n → State → State}
    {Q : Fin n → α → α → Prop}
    (hf : ∀ i u, I u → I (f i u) ∧ Q i (get u i) (get (f i u) i) ∧ ∀ j, j ≠ i → get (f i u) j = get u j) (hI : I s)
    (i : Fin n) : Q i (get s i) (get (forEach (indices n) f s) i) := by
  have split : ∀ (is : List (Fin n)) u, is.Nodup → I u →
      if i ∈ is then Q i (get u i) (get (forEach is f u) i) else get (forEach is f u) i = get u i := by
    intro is
    induction is with
    | nil => exact fun u _ _ => by simp [forEach]
    | cons a as ih =>
      intro u nodup hu
      obtain ⟨ha, has⟩ := List.nodup_cons.1 nodup
      obtain ⟨inv, own, other⟩ := hf a u hu
      have rest := ih (f a u) has inv
      by_cases e : i = a
      · subst e
        rw [if_neg ha] at rest
        rw [if_pos (by simp), show get (forEach (i :: as) f u) i = get (f i u) i from rest]
        exact own
      · rw [other i e] at rest
        by_cases hi : i ∈ as
        · rw [if_pos hi] at rest
          rw [if_pos (by simp [hi])]
          exact rest
        · rw [if_neg hi] at rest
          rw [if_neg (by simp [e, hi])]
          exact rest
  have := split (indices n) s (List.nodup_finRange n) hI
  rwa [if_pos (List.mem_finRange i)] at this

/-! ### The operands (R138) -/

/-- Band entry `k` of a LOAD THERMAL TABLE, clamped. -/
def givenBand (a : List Byte) (k : Nat) : BandEntry :=
  { cap := min (byteAt a (7 + 5 * k)) 6, multiplier := max 1 (min 8 (byteAt a (8 + 5 * k)))
    pMax := min (byteAt a (9 + 5 * k)) 8, iMax := min (byteAt a (10 + 5 * k)) 8
    trickle := decide (byteAt a (11 + 5 * k) = 0) }

/-- A value of band entry `k` of a LOAD THERMAL TABLE is out of its range. -/
def BandClamped (a : List Byte) (k : Nat) : Prop :=
  6 < byteAt a (7 + 5 * k) ∨ byteAt a (8 + 5 * k) = 0 ∨ 8 < byteAt a (8 + 5 * k) ∨
    8 < byteAt a (9 + 5 * k) ∨ 8 < byteAt a (10 + 5 * k)

theorem trickleOfCode_eq_none {n : Nat} (h : 1 < n) : trickleOfCode n = none := by
  rw [trickleOfCode, if_neg (by omega), if_neg (by omega)]

theorem trickleOfCode_eq_some {n : Nat} (h : n ≤ 1) : trickleOfCode n = some (decide (n = 0)) := by
  rcases Nat.le_one_iff_eq_zero_or_eq_one.1 h with rfl | rfl <;> rfl

theorem parseBand_eq_none {a : List Byte} {k : Fin 8} (h : 1 < byteAt a (11 + 5 * k.val)) : parseBand a k = none := by
  have at_ : 7 + 5 * k.val + 4 = 11 + 5 * k.val := by omega
  unfold parseBand
  dsimp only
  rw [at_, trickleOfCode_eq_none h, Option.map_none]

theorem exists_parseBand {a : List Byte} {k : Fin 8} (h : byteAt a (11 + 5 * k.val) ≤ 1) : ∃ c : Bool,
    parseBand a k = some (givenBand a k.val, c) ∧ (c = true ↔ BandClamped a k.val) := by
  have at_ (n : Nat) : 7 + 5 * k.val + n = 7 + n + 5 * k.val := by omega
  refine ⟨decide ((⟨min (byteAt a (7 + 5 * k.val)) 6, clampTo 1 8 (byteAt a (8 + 5 * k.val)),
    min (byteAt a (9 + 5 * k.val)) 8, min (byteAt a (10 + 5 * k.val)) 8, true⟩ : BandEntry) ≠
      ⟨byteAt a (7 + 5 * k.val), byteAt a (8 + 5 * k.val), byteAt a (9 + 5 * k.val), byteAt a (10 + 5 * k.val), true⟩),
    ?_, ?_⟩
  · unfold parseBand
    dsimp only
    simp only [at_, trickleOfCode_eq_some h, Option.map_some]
    rfl
  · simp only [decide_eq_true_eq, ne_eq, BandEntry.mk.injEq, BandClamped, clampTo, and_true]
    omega

theorem boundsValid_iff {a : List Byte} : boundsValid (parseBounds a) = true ↔
    (∀ k < 7, -40 ≤ signedAt a k ∧ signedAt a k ≤ 125) ∧ ∀ k < 6, signedAt a k < signedAt a (k + 1) := by
  have order : (∀ ⦃i j : Fin 7⦄, i < j → signedAt a i.val < signedAt a j.val) ↔
      ∀ k : Fin 6, signedAt a k.val < signedAt a (k.val + 1) :=
    Fin.strictMono_iff_lt_succ (f := fun i : Fin 7 => signedAt a i.val)
  simp only [boundsValid, parseBounds, Bool.and_eq_true, List.all_eq_true, decide_eq_true_eq, forall_items_ofFn,
    pairwise_items_ofFn]
  rw [order]
  exact and_congr ⟨fun h k hk => h ⟨k, hk⟩, fun h k => h k k.isLt⟩ ⟨fun h k hk => h ⟨k, hk⟩, fun h k => h k k.isLt⟩

/-- The operands of LOAD THERMAL TABLE are refused. -/
def TableMalformed (a : List Byte) : Prop :=
  (∃ k < 7, signedAt a k < -40 ∨ 125 < signedAt a k) ∨ (∃ k < 6, signedAt a (k + 1) ≤ signedAt a k) ∨
    ∃ k < 8, 1 < byteAt a (11 + 5 * k)

theorem parseBandTable_eq_none {a : List Byte} (h : TableMalformed a) : parseBandTable a = none := by
  unfold parseBandTable
  have invalid (h : ¬ boundsValid (parseBounds a) = true) : boundsValid (parseBounds a) = false := by simpa using h
  rcases h with ⟨k, hk, h⟩ | ⟨k, hk, h⟩ | ⟨k, hk, h⟩
  · rw [invalid fun valid => by have := (boundsValid_iff.1 valid).1 k hk; omega]
  · rw [invalid fun valid => by have := (boundsValid_iff.1 valid).2 k hk; omega]
  · rw [allPresent_indices_eq_none (k := ⟨k, hk⟩) (parseBand_eq_none h)]
    split <;> simp_all

theorem exists_parseBandTable {a : List Byte} (h : ¬ TableMalformed a) : ∃ table clamped,
    parseBandTable a = some (table, clamped) ∧ (∀ k, table.bounds.get k = signedAt a k.val) ∧
    (∀ k, table.entries.get k = givenBand a k.val) ∧ (clamped = true ↔ ∃ k < 8, BandClamped a k) ∧
    ∀ i j : Fin 7, i < j → table.bounds.get i < table.bounds.get j := by
  simp only [TableMalformed, not_or, not_exists, not_and, not_le, not_lt] at h
  obtain ⟨range, order, codes⟩ := h
  have valid : boundsValid (parseBounds a) = true := boundsValid_iff.2 ⟨range, order⟩
  choose c hc clamped using fun k : Fin 8 => exists_parseBand (codes k.val k.isLt)
  refine ⟨_, _, by rw [parseBandTable, valid, allPresent_indices hc], fun k => Tab.get_ofFn _ k, fun k => ?_, ?_,
    fun i j hij => ?_⟩
  · simp [List.getElem_map, indices]
  · simp only [List.any_map, List.any_eq_true, Function.comp_apply, clamped]
    exact ⟨fun ⟨k, _, hk⟩ => ⟨k.val, k.isLt, hk⟩, fun ⟨k, hk, hb⟩ => ⟨⟨k, hk⟩, List.mem_finRange _, hb⟩⟩
  · have ascending := pairwise_items_ofFn.1 (of_decide_eq_true (Bool.and_eq_true_iff.1 valid).2)
    show (parseBounds a).get i < (parseBounds a).get j
    rw [parseBounds, Tab.get_ofFn, Tab.get_ofFn]
    exact ascending hij

/-! ### The treatment of the racks (R139) -/

/-- What the treatment leaves of the scheduler part of a rack, the state under the new table given. -/
structure Treated (s : State) (r : Fin 12) (q q' : Sched) : Prop where
  bandless : q.band = none → q' = q
  banded : ∀ k temp, q.band = some k → (s.rack r).live.temperature = some temp → ∃ c,
    let new := bandFresh s.chs.table temp
    q' = { bandedSched new (s.chs.table.entries.get new) q with
      capacity := bandCapacity s r new, active := keptTurns (bandCapacity s r new) q.active, cadenceEnds := c }

theorem bandCapacity_congr {ps : List Part} (k : KeepsAllBut ps s t) (hb : Part.bandTable ∉ ps) (hm : Part.mode ∉ ps)
    (hc : Part.rackConfigs ∉ ps) (r : Fin 12) (new : Fin 8) : bandCapacity t r new = bandCapacity s r new := by
  have table : t.chs.table = s.chs.table := k .bandTable hb
  have mode : t.mge.mode = s.mge.mode := k .mode hm
  have conf : (t.rack r).config = (s.rack r).config := k .rackConfigs hc r
  unfold bandCapacity
  rw [table, mode, conf]

theorem treatRacks_sched (s : State) (r : Fin 12) :
    Treated s r (s.sched r) ((forEach (indices 12) treatRack s).sched r) := by
  refine forEach_indices_own (get := State.sched) (Q := Treated s) (I := KeepsAllBut [.sched, .bays, .events, .egress] s)
    (fun i u k => ⟨treatRack_keeps k (by decide) (by decide) (by decide) (by decide), ⟨fun hn => ?_,
      fun b temp hb ht => ?_⟩, fun j hj => ?_⟩) .refl r
  · rw [treatRack, hn]
  · have table : u.chs.table = s.chs.table := k .bandTable (by decide)
    have live : (u.rack i).live = (s.rack i).live := k .rackLives (by decide) i
    have treated : treatRack i u = changeBand i (bandFresh s.chs.table temp) u := by
      rw [treatRack, hb, live, ht, table]
    obtain ⟨c, sched⟩ := changeBand_sched i i (bandFresh s.chs.table temp) u
    refine ⟨c, ?_⟩
    rw [treated, sched, if_pos rfl, table, bandCapacity_congr k (by decide) (by decide) (by decide)]
  · rcases treatRack_cases i u with ⟨-, e⟩ | ⟨k, e⟩ <;> rw [e]
    exact changeBand_sched_ne hj k u

/-- Settles O43: the operands are parsed once; the new table stands before any rack is treated. -/
theorem thermalTableLoaded : Obligations.ThermalTableLoaded := by
  unfold Obligations.ThermalTableLoaded
  intro s req serving a bad clamped
  refine ⟨fun h => ?_, fun h => ?_⟩
  · have refused : loadThermalTable a s = refuse .badArgument s := by
      rw [loadThermalTable, parseBandTable_eq_none h]
    exact exec_servingRacks (by rfl) serving refused
  · obtain ⟨table, c, parsed, bounds, entries, hc, ascending⟩ := exists_parseBandTable h
    set v := s.withChs { s.chs with table := table } with hv
    obtain ⟨w, hw⟩ : ∃ w, w = forEach (indices 12) treatRack v := ⟨_, rfl⟩
    have applied : loadThermalTable a s = answer (appliedStatus c) w := by
      rw [hw, loadThermalTable, parsed]
      rfl
    have run : exec .loadThermalTable s = .next (offerReply (replyTo req (appliedStatus c) []) (rackSender w)) :=
      exec_servingRacks (by rfl) serving applied
    have treat : KeepsAllBut [.sched, .bays, .events, .egress] v w := hw ▸
      forEach_keeps (fun _ _ k => treatRack_keeps k (by decide) (by decide) (by decide) (by decide)) .refl
    have sent := rackSender_keepsParts w
    have kept : KeepsAllBut [.sched, .bays, .events, .sender, .egress] v (rackSender w) :=
      rackSender_keeps (treat.mono (by decide)) (by decide) (by decide) (by decide)
    have newTable : (rackSender w).chs.table = table := kept .bandTable (by decide)
    have sched (r : Fin 12) : Treated v r (s.sched r) ((rackSender w).sched r) := by
      rw [sent.sched_eq (by decide), hw]
      exact treatRacks_sched v r
    refine ⟨rackSender w, fun hk => ?_, fun hk => ?_, fun k => ?_, fun k => ?_, fun r => (sched r).bandless,
      fun r k temp hb ht => ?_, ?_⟩
    · rw [run, appliedStatus, if_pos (hc.2 hk)]
    · rw [run, appliedStatus, if_neg fun hk' => hk (hc.1 hk')]
    · rw [newTable, bounds]
    · rw [newTable, entries]
      rfl
    · obtain ⟨ends, after⟩ := (sched r).banded k temp hb ht
      refine ⟨bandFresh table temp, congrArg Sched.band after, ?_, ?_, ?_, ?_, ?_, ?_, ?_⟩
      · rw [newTable]
        exact bandFresh_val table temp ascending
      · rw [capacityOf_of_band (k := bandFresh table temp) (congrArg Sched.band after),
          bandCapacity_congr kept (by decide) (by decide) (by decide)]
        exact congrArg Sched.capacity after
      · exact congrArg Sched.pulledIn after
      · rw [newTable]
        exact congrArg Sched.postponed after
      · rw [newTable]
        exact congrArg Sched.counters after
      · intro nodup
        rw [after]
        exact keptTurns_eq_take nodup
      · exact (congrArg Sched.round after :)
    · exact (withTable_keeps .refl (by decide)).trans (kept.mono (by decide))

end Sys2Proof.Machine
end

section
/-! LOAD RACK CONFIG: its operands (R113), and the changes of a rack's state it brings (R114, R116). -/

namespace Sys2Proof.Machine

open Sys2Proof

variable {s t u : State}

/-! ### The operands (R113) -/

/-- The operands of LOAD RACK CONFIG are refused. -/
def RackMalformed (a : List Byte) : Prop :=
  12 ≤ byteAt a 0 ∨ 1 < byteAt a 2 ∨ 24 ≤ (if bitAt a 1 0 then 0 else byteAt a 5) ∨
    24 ≤ (if bitAt a 1 1 then 23 else byteAt a 6)

/-- The loaded fields that well-formed operands of LOAD RACK CONFIG name, before the clamps. -/
structure NamesRack (a : List Byte) (c : RackConfig) : Prop where
  enabled : c.enabled = true ↔ byteAt a 2 = 1
  station : c.station = BitVec.ofNat 16 (wordAt a 3)
  scanLow : c.scanLow.val = if bitAt a 1 0 then 0 else byteAt a 5
  scanHigh : c.scanHigh.val = if bitAt a 1 1 then 23 else byteAt a 6
  spacing : c.spacing = if bitAt a 1 2 then 50 else wordAt a 7
  openCap : c.openCap = if bitAt a 1 3 then 3 else byteAt a 9
  closedCap : c.closedCap = if bitAt a 1 4 then 6 else byteAt a 10
  baseInterval : c.baseInterval = if bitAt a 1 5 then 60 else wordAt a 11
  turnLength : c.turnLength = if bitAt a 1 6 then 300 else wordAt a 13

theorem parseRack_eq_none {a : List Byte} (h : RackMalformed a) : parseRack a = none := by
  unfold parseRack orDefault
  rcases h with h | h | h | h
  · simp only [toId_eq_none.2 h]
  · simp only [flagOfCode_eq_none.2 h]
    split <;> simp_all
  · simp only [toId_eq_none.2 h]
    split <;> simp_all
  · simp only [toId_eq_none.2 h]
    split <;> simp_all

theorem exists_parseRack {a : List Byte} {rack : Fin 12} (hr : byteAt a 0 = rack.val) (h : ¬ RackMalformed a) :
    ∃ c, parseRack a = some (rack, c) ∧ NamesRack a c := by
  simp only [RackMalformed, not_or, not_lt, not_le] at h
  obtain ⟨-, hf, hlow, hhigh⟩ := h
  have flag : flagOfCode (byteAt a 2) = some (decide (byteAt a 2 = 1)) := by
    rw [flagOfCode_eq_some]
    by_cases h1 : byteAt a 2 = 1
    · simp [h1]
    · simp only [h1, decide_false]
      simp
      omega
  refine ⟨{ enabled := decide (byteAt a 2 = 1), station := BitVec.ofNat 16 (wordAt a 3), scanLow := ⟨_, hlow⟩
            scanHigh := ⟨_, hhigh⟩, spacing := orDefault (bitAt a 1 2) 50 (wordAt a 7)
            openCap := orDefault (bitAt a 1 3) 3 (byteAt a 9), closedCap := orDefault (bitAt a 1 4) 6 (byteAt a 10)
            baseInterval := orDefault (bitAt a 1 5) 60 (wordAt a 11)
            turnLength := orDefault (bitAt a 1 6) 300 (wordAt a 13) }, ?_, by simp, rfl, rfl, rfl, rfl, rfl, rfl, rfl, rfl⟩
  unfold parseRack
  rw [toId_val rack hr, flag]
  simp only [show orDefault (bitAt a 1 0) 0 (byteAt a 5) = if bitAt a 1 0 then 0 else byteAt a 5 from rfl,
    show orDefault (bitAt a 1 1) 23 (byteAt a 6) = if bitAt a 1 1 then 23 else byteAt a 6 from rfl,
    toId_val (⟨_, hlow⟩ : Fin 24) rfl, toId_val (⟨_, hhigh⟩ : Fin 24) rfl]

theorem clampRack_ne_iff {c : RackConfig} : clampRack c ≠ c ↔ c.scanHigh.val < c.scanLow.val ∨ c.spacing < 10 ∨
    1000 < c.spacing ∨ 6 < c.openCap ∨ 6 < c.closedCap ∨ c.baseInterval < 10 ∨ 600 < c.baseInterval ∨
    c.turnLength < 30 ∨ 1800 < c.turnLength := by
  have high : (if c.scanHigh < c.scanLow then c.scanLow else c.scanHigh) = c.scanHigh ↔
      ¬ c.scanHigh.val < c.scanLow.val := by
    rw [← Fin.lt_def]
    split
    next h => exact ⟨fun e => absurd (e ▸ h) (lt_irrefl _), fun hn => absurd h hn⟩
    next h => simp [h]
  have fields : clampRack c = c ↔ (if c.scanHigh < c.scanLow then c.scanLow else c.scanHigh) = c.scanHigh ∧
      clampTo 10 1000 c.spacing = c.spacing ∧ min c.openCap 6 = c.openCap ∧ min c.closedCap 6 = c.closedCap ∧
      clampTo 10 600 c.baseInterval = c.baseInterval ∧ clampTo 30 1800 c.turnLength = c.turnLength := by
    cases c
    simp [clampRack]
  rw [Ne, fields, high]
  unfold clampTo
  omega

theorem clampRack_scanHigh (c : RackConfig) : (clampRack c).scanHigh.val = max c.scanLow.val c.scanHigh.val := by
  show (if c.scanHigh < c.scanLow then c.scanLow else c.scanHigh).val = _
  split
  next h =>
    rw [Fin.lt_def] at h
    omega
  next h =>
    rw [Fin.lt_def] at h
    omega

theorem stationTaken_iff {rack : Fin 12} {c : RackConfig} : stationTaken s rack c = true ↔ c.enabled = true ∧
    ∃ r, r ≠ rack ∧ (s.rack r).config.enabled = true ∧ (s.rack r).config.station = c.station := by
  simp [stationTaken, and_assoc]

/-! ### A rack enabled (R114, R116) -/

/-- The live fields of a rack that is enabled: OFFLINE, with its first POLL waiting, or discarded over a link that is
DOWN. -/
def enabledLive (linkUp : Bool) (now : Nat) (c : RackConfig) (l : RackLive) : RackLive :=
  { l with
    phase := .offline, missRun := 0, timedOut := none
    pointer := if c.scanLow < c.scanHigh then c.scanLow + 1 else c.scanLow
    waiting := if linkUp then some c.scanLow else none
    outstanding := if linkUp then l.outstanding else some ⟨c.scanLow, now + 20⟩
    counters := { l.counters with polls := min (l.counters.polls + 1) 4294967295 } }

theorem enableRack_spec (rack : Fin 12) (s : State) :
    (∀ r, (enableRack rack s).rack r = if r = rack then { s.rack rack with
      live := enabledLive s.hli.linkUp s.clock.now (s.rack rack).config (s.rack rack).live } else s.rack r) ∧
    (s.hli.linkUp = true → pollFrame rack (s.rack rack).config (s.rack rack).config.scanLow ∈
      heldFrames (enableRack rack s).hli) := by
  set v := s.putRackLive rack { (s.rack rack).live with
    phase := .offline, missRun := 0, pointer := (s.rack rack).config.scanLow, timedOut := none } with hv
  have rack_ (r : Fin 12) : v.rack r = _ := putRackLive_rack s rack r _
  obtain ⟨racks, held⟩ := sendPoll_spec rack v
  have eq : enableRack rack s = sendPoll rack v := rfl
  rw [rack_, if_pos rfl] at held
  refine ⟨fun r => ?_, eq ▸ held⟩
  rw [eq, racks, rack_, rack_, if_pos rfl]
  split <;> rfl

theorem enableRack_keepsParts (rack : Fin 12) (s : State) : KeepsAllBut [.rackLives, .egress] s (enableRack rack s) :=
  enableRack_keeps .refl (by decide) (by decide)

/-! ### A rack disabled (R114, R149) -/

theorem KeepsAllBut.hli_eq {ps : List Part} (k : KeepsAllBut ps s t)
    (hp : Part.station ∉ ps ∧ Part.link ∉ ps ∧ Part.egress ∉ ps) : t.hli = s.hli := by
  have station : t.hli.station = s.hli.station := k .station hp.1
  have link : t.hli.linkUp = s.hli.linkUp := k .link hp.2.1
  have egress := k .egress hp.2.2
  simp only [Part.same] at egress
  cases ht : t.hli
  simp_all

/-- The live fields of a rack whose poll and timers are abandoned. -/
def silencedLive (l : RackLive) : RackLive := { l with outstanding := none, waiting := none, spacingEnds := none }

theorem disableRack_rack (rack r : Fin 12) (s : State) : (disableRack rack s).rack r =
    if r = rack then { s.rack rack with live := { silencedLive (s.rack rack).live with phase := .disabled } }
    else s.rack r := by
  have left (u : State) : (leaveOnline rack u).rack r = u.rack r :=
    (leaveOnline_keeps (ps := [.sched, .bays]) .refl (by decide) (by decide)).rack_eq (by decide) (by decide) r
  have silenced := putRackLive_rack s rack r { silencedLive (s.rack rack).live with phase := .disabled }
  unfold disableRack
  dsimp only
  split
  · exact (left _).trans silenced
  · exact silenced

theorem disableRack_sched (rack r : Fin 12) (s : State) : (disableRack rack s).sched r =
    if r = rack ∧ isOnline s rack = true then { s.sched rack with active := [], cadenceEnds := none } else s.sched r := by
  unfold disableRack
  dsimp only
  by_cases h : isOnline s rack = true
  · rw [if_pos h, leaveOnline_sched, keptTurns_zero]
    by_cases hr : r = rack
    · rw [if_pos hr, if_pos ⟨hr, h⟩]
      rfl
    · rw [if_neg hr, if_neg fun hh => hr hh.1]
      rfl
  · rw [if_neg h, if_neg fun hh => h hh.2]
    rfl

/-- The arbiter after a rack is disabled: no POLL of it counts any more. -/
theorem disableRack_hli (rack : Fin 12) (s : State) : (disableRack rack s).hli = { s.hli with
    class2 := s.hli.class2.filter fun f => !isPollOf rack f, placing := s.hli.placing.map (voidPoll rack) } := by
  have left (u : State) : (leaveOnline rack u).hli = u.hli := by
    have k := leaveOnline_keeps (ps := [.sched, .bays]) (r := rack) (t := u) .refl (by decide) (by decide)
    exact k.hli_eq (by decide)
  unfold disableRack
  dsimp only
  split
  · exact left _
  · rfl

theorem disableRack_no_poll {rack : Fin 12} (h : QueuesBounded s) {b : Fin 24} {f : EgressFrame}
    (hf : f ∈ heldFrames (disableRack rack s).hli) : f.origin ≠ .poll rack b true := by
  obtain ⟨-, -, -, class1, -, class3⟩ := h
  rw [disableRack_hli] at hf
  simp only [heldFrames, List.mem_append, Option.mem_toList, Option.map_eq_some_iff, List.mem_filter] at hf
  intro ho
  rcases hf with ((⟨g, -, rfl⟩ | hf) | ⟨-, hf⟩) | hf
  · unfold voidPoll at ho
    split at ho
    next r b' v hg =>
      split at ho
      next => simp at ho
      next hr =>
        rw [hg] at ho
        exact hr (by injection ho)
    all_goals simp_all
  · obtain ⟨ch, hc⟩ := class1 f hf
    rw [hc] at ho
    exact absurd ho (by simp)
  · simp [isPollOf, ho] at hf
  · rcases class3 f hf with hc | hc
    all_goals
      rw [hc] at ho
      exact absurd ho (by simp)

theorem disableRack_keepsParts (rack : Fin 12) (s : State) :
    KeepsAllBut [.rackLives, .sched, .bays, .egress] s (disableRack rack s) :=
  disableRack_keeps .refl (by decide) (by decide) (by decide) (by decide)

/-! ### A load, before C is computed afresh (R114) -/

/-- The state in which the loaded fields are the new ones and nothing has acted on them. -/
def configured (rack : Fin 12) (c : RackConfig) (s : State) : State :=
  s.putRack rack { s.rack rack with config := c }

theorem configured_rack (rack r : Fin 12) (c : RackConfig) (s : State) : (configured rack c s).rack r =
    if r = rack then { s.rack rack with config := c } else s.rack r := State.putRack_rack s rack r _

theorem configured_keeps (rack : Fin 12) (c : RackConfig) (s : State) :
    KeepsAllBut [.rackConfigs, .rackLives] s (configured rack c s) := putRack_keeps .refl (by decide) (by decide)

/-- What a load leaves before C is computed afresh, of the racks and of the turns of other racks. -/
structure Reconfigured (s v : State) (rack : Fin 12) (c : RackConfig) (live : RackLive) : Prop where
  keeps : KeepsAllBut [.rackConfigs, .rackLives, .sched, .bays, .events, .egress] s v
  racks : ∀ r, v.rack r = if r = rack then ⟨c, live⟩ else s.rack r
  others : ∀ r, r ≠ rack → v.sched r = s.sched r

section
variable {rack : Fin 12} {c : RackConfig}

theorem applyRackConfig_of_off (ho : (s.rack rack).config.enabled = false) (hc : c.enabled = false) :
    applyRackConfig rack c s = refreshCapacity rack (configured rack c s) := by
  unfold applyRackConfig
  dsimp only
  rw [ho, hc]
  rfl

theorem applyRackConfig_of_enabled (ho : (s.rack rack).config.enabled = false) (hc : c.enabled = true) :
    applyRackConfig rack c s = refreshCapacity rack (enableRack rack (configured rack c s)) := by
  unfold applyRackConfig
  dsimp only
  rw [ho, hc]
  rfl

theorem applyRackConfig_of_disabled (ho : (s.rack rack).config.enabled = true) (hc : c.enabled = false) :
    applyRackConfig rack c s = refreshCapacity rack (disableRack rack (configured rack c s)) := by
  unfold applyRackConfig
  dsimp only
  rw [ho, hc]
  rfl

theorem applyRackConfig_of_rekeyed (ho : (s.rack rack).config.enabled = true) (hc : c.enabled = true)
    (hs : (s.rack rack).config.station ≠ c.station) :
    applyRackConfig rack c s = refreshCapacity rack (rekeyRack rack (configured rack c s)) := by
  unfold applyRackConfig
  dsimp only
  rw [ho, hc]
  exact congrArg _ (if_neg hs)

/-- The live fields of a rack that stays enabled with its station. -/
def repointedLive (old : Rack) (c : RackConfig) : RackLive := { old.live with
  pointer := if old.config.scanLow = c.scanLow ∧ old.config.scanHigh = c.scanHigh then old.live.pointer
    else c.scanLow }

theorem applyRackConfig_of_kept (ho : (s.rack rack).config.enabled = true) (hc : c.enabled = true)
    (hs : (s.rack rack).config.station = c.station) : applyRackConfig rack c s =
      refreshCapacity rack ((configured rack c s).putRackLive rack (repointedLive (s.rack rack) c)) := by
  have live : ((configured rack c s).rack rack).live = (s.rack rack).live := by rw [configured_rack, if_pos rfl]
  unfold applyRackConfig
  dsimp only
  rw [ho, hc]
  refine congrArg _ ((if_pos hs).trans ?_)
  exact congrArg _ (by
    show { ((configured rack c s).rack rack).live with
      pointer := keptPointer (s.rack rack).config c ((configured rack c s).rack rack).live.pointer } = _
    rw [live]
    rfl)

theorem reconfigured_off : Reconfigured s (configured rack c s) rack c (s.rack rack).live :=
  ⟨(configured_keeps rack c s).mono (by decide), fun r => configured_rack rack r c s,
    fun r _ => (configured_keeps rack c s).sched_eq (by decide) r⟩

theorem reconfigured_kept :
    Reconfigured s ((configured rack c s).putRackLive rack (repointedLive (s.rack rack) c)) rack c
      (repointedLive (s.rack rack) c) := by
  refine ⟨putRackLive_keeps ((configured_keeps rack c s).mono (by decide)) (by decide), fun r => ?_,
    fun r _ => (configured_keeps rack c s).sched_eq (by decide) r⟩
  rw [putRackLive_rack, configured_rack, configured_rack, if_pos rfl]
  split <;> rfl

theorem reconfigured_enabled : Reconfigured s (enableRack rack (configured rack c s)) rack c
    (enabledLive s.hli.linkUp s.clock.now c (s.rack rack).live) := by
  have k := enableRack_keepsParts rack (configured rack c s)
  refine ⟨((configured_keeps rack c s).mono (by decide)).trans (k.mono (by decide)), fun r => ?_, fun r _ => ?_⟩
  · rw [(enableRack_spec rack _).1, configured_rack, configured_rack, if_pos rfl]
    split <;> rfl
  · rw [k.sched_eq (by decide), (configured_keeps rack c s).sched_eq (by decide)]

theorem reconfigured_disabled : Reconfigured s (disableRack rack (configured rack c s)) rack c
    { silencedLive (s.rack rack).live with phase := .disabled } := by
  refine ⟨((configured_keeps rack c s).mono (by decide)).trans ((disableRack_keepsParts rack _).mono (by decide)),
    fun r => ?_, fun r hr => ?_⟩
  · rw [disableRack_rack, configured_rack, configured_rack, if_pos rfl]
    split <;> rfl
  · rw [disableRack_sched, if_neg fun h => hr h.1, (configured_keeps rack c s).sched_eq (by decide)]

/-- The state of a rack that is re-keyed once it is disabled and its event is raised. -/
def unkeyed (rack : Fin 12) (s : State) : State :=
  if isOnline s rack then raiseEvent .rackOffline rack.val none (s.rack rack).live.missRun (disableRack rack s)
  else disableRack rack s

theorem rekeyRack_eq (rack : Fin 12) (s : State) : rekeyRack rack s = enableRack rack (unkeyed rack s) := rfl

theorem unkeyed_keeps (rack : Fin 12) (s : State) :
    KeepsAllBut [.events, .egress] (disableRack rack s) (unkeyed rack s) := by
  unfold unkeyed
  split
  · exact raiseEvent_keeps .refl (by decide) (by decide)
  · exact .refl

theorem reconfigured_rekeyed : Reconfigured s (rekeyRack rack (configured rack c s)) rack c
    (enabledLive s.hli.linkUp s.clock.now c { silencedLive (s.rack rack).live with phase := .disabled }) := by
  have disabled := reconfigured_disabled (s := s) (rack := rack) (c := c)
  have k := unkeyed_keeps rack (configured rack c s)
  have e := enableRack_keepsParts rack (unkeyed rack (configured rack c s))
  have up : (unkeyed rack (configured rack c s)).hli.linkUp = s.hli.linkUp :=
    (k .link (by decide)).trans (disabled.keeps .link (by decide))
  have clock : (unkeyed rack (configured rack c s)).clock = s.clock :=
    (k .clock (by decide)).trans (disabled.keeps .clock (by decide))
  rw [rekeyRack_eq]
  refine ⟨(disabled.keeps.trans (k.mono (by decide))).trans (e.mono (by decide)), fun r => ?_, fun r hr => ?_⟩
  · rw [(enableRack_spec rack _).1, up, clock, k.rack_eq (by decide) (by decide), k.rack_eq (by decide) (by decide),
      disabled.racks, disabled.racks, if_pos rfl]
    split <;> rfl
  · rw [e.sched_eq (by decide), k.sched_eq (by decide), disabled.others r hr]

end

end Sys2Proof.Machine
end

section
/-! LOAD RACK CONFIG as a whole (R113, R114, R141). -/

namespace Sys2Proof.Machine

open Sys2Proof

variable {s t u v : State}

/-! ### The rack sender and the held frames -/

theorem rackSender_linkKept (s : State) : LinkKept s.hli (rackSender s).hli := linkKept_runSender 289 s

/-- The frames that the rack sender adds are BAY COMMANDs. -/
theorem mem_heldFrames_rackSender {f : EgressFrame} (h : f ∈ heldFrames (rackSender s).hli) :
    f.origin = .bayCommand ∨ f ∈ heldFrames s.hli := by
  cases hl : s.hli.linkUp with
  | false =>
    obtain ⟨d, hd, -⟩ := runSender_linkDown_hli 289 s hl
    rw [rackSender, hd] at h
    exact .inr h
  | true =>
    cases hs : s.rpl.senderHolds with
    | true => exact .inr (rackSender_of_holds hs ▸ h)
    | false =>
      cases hn : nextServed s with
      | none => exact .inr (rackSender_of_none hn ▸ h)
      | some x =>
        rw [rackSender_linkUp hs hn hl, sendCommand_eq, mem_heldFrames_handOver (s := buildCommand x.1 x.2 s) hl] at h
        rcases h with rfl | h
        exacts [.inl rfl, .inr h]

/-! ### C afresh, and the rack sender -/

section
variable {rack : Fin 12} {c : RackConfig} {live : RackLive}

theorem refreshCapacity_keepsParts (rack : Fin 12) (s : State) : KeepsAllBut [.sched, .bays] s (refreshCapacity rack s) :=
  refreshCapacity_keeps .refl (by decide) (by decide)

/-- What C computed afresh and the rack sender leave after a load. -/
structure RackLoaded (s v u : State) (rack : Fin 12) (c : RackConfig) (live : RackLive) : Prop where
  keeps : KeepsAllBut [.rackConfigs, .rackLives, .sched, .bays, .events, .sender, .egress] s u
  racks : ∀ r, u.rack r = if r = rack then ⟨c, live⟩ else s.rack r
  others : ∀ r, r ≠ rack → u.sched r = s.sched r
  capacity : (u.sched rack).capacity = capacityOf u rack
  active : (v.sched rack).active = [] → (u.sched rack).active = []
  evq : u.evq = v.evq
  held : ∀ f ∈ heldFrames v.hli, f ∈ heldFrames u.hli
  added : ∀ f ∈ heldFrames u.hli, f.origin = .bayCommand ∨ f ∈ heldFrames v.hli

theorem Reconfigured.loaded (h : Reconfigured s v rack c live) :
    RackLoaded s v (rackSender (refreshCapacity rack v)) rack c live := by
  have k := refreshCapacity_keepsParts rack v
  have sent := rackSender_keepsParts (refreshCapacity rack v)
  have sched (r : Fin 12) := sent.sched_eq (by decide) r
  obtain ⟨ends, fresh⟩ := refreshCapacity_sched rack rack v
  rw [if_pos rfl] at fresh
  have hli : (refreshCapacity rack v).hli = v.hli := k.hli_eq (by decide)
  refine ⟨?_, fun r => ?_, fun r hr => ?_, ?_, fun ha => ?_, ?_, fun f hf => ?_, fun f hf => ?_⟩
  · exact ((h.keeps.mono (by decide)).trans (k.mono (by decide))).trans (sent.mono (by decide))
  · rw [sent.rack_eq (by decide) (by decide), k.rack_eq (by decide) (by decide), h.racks]
  · obtain ⟨ends, other⟩ := refreshCapacity_sched rack r v
    rw [sched, other, if_neg hr, h.others r hr]
  · have band : (rackSender (refreshCapacity rack v)).sched rack = (refreshCapacity rack v).sched rack := sched rack
    rw [sent.capacityOf_eq (by decide) (by decide) (by decide) (congrArg Sched.band band),
      k.capacityOf_eq (by decide) (by decide) (by decide) (by rw [fresh]), band, fresh]
  · rw [sched, fresh]
    show keptTurns _ (v.sched rack).active = []
    rw [ha]
    rfl
  · rw [sent.evq_eq (by decide), k.evq_eq (by decide)]
  · exact (rackSender_linkKept _).held f (hli ▸ hf)
  · exact hli ▸ mem_heldFrames_rackSender hf

/-- The turns and the event of a rack that leaves ONLINE by a load, and of one that does not. -/
theorem unkeyed_events (rack : Fin 12) (s : State) :
    (isOnline s rack = true → EventsTaken [⟨.rackOffline, s.mge.hubTime, rack.val, none, (s.rack rack).live.missRun⟩] s
      (unkeyed rack s)) ∧
    (isOnline s rack = false → (unkeyed rack s).evq = s.evq) := by
  have k := disableRack_keepsParts rack s
  refine ⟨fun h => ?_, fun h => ?_⟩
  · rw [unkeyed, if_pos h]
    exact .raise_of_evq (k.evq_eq (by decide)) (k .hubTime (by decide))
  · rw [unkeyed, if_neg (by simp [h])]
    exact k.evq_eq (by decide)

theorem disableRack_active (h : isOnline s rack = true) : ((disableRack rack s).sched rack).active = [] := by
  rw [disableRack_sched, if_pos ⟨rfl, h⟩]

theorem rekeyRack_active (h : isOnline s rack = true) : ((rekeyRack rack s).sched rack).active = [] := by
  rw [rekeyRack_eq, (enableRack_keepsParts rack _).sched_eq (by decide), (unkeyed_keeps rack s).sched_eq (by decide),
    disableRack_active h]

theorem rekeyRack_evq (rack : Fin 12) (s : State) : (rekeyRack rack s).evq = (unkeyed rack s).evq :=
  (enableRack_keepsParts rack _).evq_eq (by decide)

/-- A rack that a load re-keys (R114). -/
def Rekeyed (old : RackConfig) (c : RackConfig) : Prop :=
  old.enabled = true ∧ c.enabled = true ∧ old.station ≠ c.station

/-- What a load does to its rack before C is computed afresh, by the enabled field before and after (R114). -/
structure LoadedByEnabled (s v : State) (rack : Fin 12) (c : RackConfig) (live : RackLive) : Prop where
  off : (s.rack rack).config.enabled = false → ¬ c.enabled = true → live = (s.rack rack).live
  enabled : (s.rack rack).config.enabled = false → c.enabled = true →
    live = enabledLive s.hli.linkUp s.clock.now c (s.rack rack).live ∧
      (s.hli.linkUp = true → pollFrame rack c c.scanLow ∈ heldFrames v.hli)
  disabled : (s.rack rack).config.enabled = true → ¬ c.enabled = true →
    live = { silencedLive (s.rack rack).live with phase := .disabled } ∧
      (QueuesBounded s → ∀ b, ∀ f ∈ heldFrames v.hli, f.origin ≠ .poll rack b true)
  rekeyed : (s.rack rack).config.enabled = true → c.enabled = true → (s.rack rack).config.station ≠ c.station →
    live = enabledLive s.hli.linkUp s.clock.now c (silencedLive (s.rack rack).live) ∧
      (s.hli.linkUp = true → pollFrame rack c c.scanLow ∈ heldFrames v.hli)
  kept : (s.rack rack).config.enabled = true → c.enabled = true → (s.rack rack).config.station = c.station →
    live = repointedLive (s.rack rack) c
  event : Rekeyed (s.rack rack).config c ∧ (s.rack rack).live.phase = .online →
    EventsTaken [⟨.rackOffline, s.mge.hubTime, rack.val, none, (s.rack rack).live.missRun⟩] s v
  quiet : ¬ (Rekeyed (s.rack rack).config c ∧ (s.rack rack).live.phase = .online) → v.evq = s.evq
  active : (s.rack rack).config.enabled = true → (¬ c.enabled = true ∨ Rekeyed (s.rack rack).config c) →
    (s.rack rack).live.phase = .online → (v.sched rack).active = []

theorem exists_reconfigured (s : State) (rack : Fin 12) (c : RackConfig) : ∃ v live,
    applyRackConfig rack c s = refreshCapacity rack v ∧ Reconfigured s v rack c live ∧
    LoadedByEnabled s v rack c live := by
  have k := configured_keeps rack c s
  have here : (configured rack c s).rack rack = { s.rack rack with config := c } :=
    (configured_rack rack rack c s).trans (if_pos rfl)
  have phase : isOnline (configured rack c s) rack = decide ((s.rack rack).live.phase = .online) := by rw [isOnline, here]
  have differ {x y : Bool} (hx : x = y) {p : Prop} (hne : x = !y) : p := by simp [hx] at hne
  cases ho : (s.rack rack).config.enabled with
  | false =>
    have kept : ¬ Rekeyed (s.rack rack).config c := fun h => differ ho h.1
    cases hc : c.enabled with
    | false =>
      exact ⟨_, _, applyRackConfig_of_off ho hc, reconfigured_off,
        { off := fun _ _ => rfl
          enabled := fun _ h => differ hc h
          disabled := fun h => differ ho h
          rekeyed := fun h => differ ho h
          kept := fun h => differ ho h
          event := fun h => absurd h.1 kept
          quiet := fun _ => k.evq_eq (by decide)
          active := fun h => differ ho h }⟩
    | true =>
      have held := (enableRack_spec rack (configured rack c s)).2
      rw [here] at held
      exact ⟨_, _, applyRackConfig_of_enabled ho hc, reconfigured_enabled,
        { off := fun _ h => absurd hc h
          enabled := fun _ _ => ⟨rfl, held⟩
          disabled := fun h => differ ho h
          rekeyed := fun h => differ ho h
          kept := fun h => differ ho h
          event := fun h => absurd h.1 kept
          quiet := fun _ => ((enableRack_keepsParts rack _).evq_eq (by decide)).trans (k.evq_eq (by decide))
          active := fun h => differ ho h }⟩
  | true =>
    cases hc : c.enabled with
    | false =>
      have kept : ¬ Rekeyed (s.rack rack).config c := fun h => differ hc h.2.1
      exact ⟨_, _, applyRackConfig_of_disabled ho hc, reconfigured_disabled,
        { off := fun h => differ ho h
          enabled := fun h => differ ho h
          disabled := fun _ _ => ⟨rfl, fun bounded _ _ hf => disableRack_no_poll (s := configured rack c s) bounded hf⟩
          rekeyed := fun _ h => differ hc h
          kept := fun _ h => differ hc h
          event := fun h => absurd h.1 kept
          quiet := fun _ => ((disableRack_keepsParts rack _).evq_eq (by decide)).trans (k.evq_eq (by decide))
          active := fun _ _ online => disableRack_active (phase.trans (decide_eq_true online)) }⟩
    | true =>
      by_cases hs : (s.rack rack).config.station = c.station
      · have kept : ¬ Rekeyed (s.rack rack).config c := fun h => h.2.2 hs
        exact ⟨_, _, applyRackConfig_of_kept ho hc hs, reconfigured_kept,
          { off := fun h => differ ho h
            enabled := fun h => differ ho h
            disabled := fun _ h => absurd hc h
            rekeyed := fun _ _ h => absurd hs h
            kept := fun _ _ _ => rfl
            event := fun h => absurd h.1 kept
            quiet := fun _ => k.evq_eq (by decide)
            active := fun _ h => (h.elim (absurd hc) fun h => absurd h kept) }⟩
      · have rekeyed : Rekeyed (s.rack rack).config c := ⟨ho, hc, hs⟩
        obtain ⟨online, offline⟩ := unkeyed_events rack (configured rack c s)
        rw [phase, here] at online
        rw [phase] at offline
        have held := (enableRack_spec rack (unkeyed rack (configured rack c s))).2
        have left : KeepsAllBut [.rackLives, .sched, .bays, .events, .egress] (configured rack c s)
            (unkeyed rack (configured rack c s)) :=
          ((disableRack_keepsParts rack _).mono (by decide)).trans ((unkeyed_keeps rack _).mono (by decide))
        have conf : ((unkeyed rack (configured rack c s)).rack rack).config = c :=
          (left .rackConfigs (by decide) rack).trans (by rw [here])
        have up : (unkeyed rack (configured rack c s)).hli.linkUp = s.hli.linkUp := left .link (by decide)
        rw [conf, up, ← rekeyRack_eq] at held
        have evq := rekeyRack_evq rack (configured rack c s)
        exact ⟨_, _, applyRackConfig_of_rekeyed ho hc hs, reconfigured_rekeyed,
          { off := fun h => differ ho h
            enabled := fun h => differ ho h
            disabled := fun _ h => absurd hc h
            rekeyed := fun _ _ _ => ⟨rfl, held⟩
            kept := fun _ _ h => absurd h hs
            event := fun h => ((online (decide_eq_true h.2)).of_evq (k.evq_eq (by decide)).symm).to_evq evq
            quiet := fun h => evq.trans ((offline (decide_eq_false fun on => h ⟨rekeyed, on⟩)).trans
              (k.evq_eq (by decide)))
            active := fun _ _ online => rekeyRack_active (phase.trans (decide_eq_true online)) }⟩

end

/-- Settles O41: the operands are parsed once; the five cases of R114 stand before C is computed afresh and the rack sender
acts. -/
theorem rackConfigApplied : Obligations.RackConfigApplied := by
  unfold Obligations.RackConfigApplied
  intro s req serving a refused low high spacing openCap closedCap base turn station on bad clamped
  refine ⟨fun h => ?_, fun h rack hr => ?_⟩
  · have malformed : loadRackConfig a s = refuse .badArgument s := by rw [loadRackConfig, parseRack_eq_none h]
    exact exec_servingRacks (by rfl) serving malformed
  obtain ⟨given, parsed, names⟩ := exists_parseRack hr h
  have load : loadRackConfig a s = if stationTaken s rack given then refuse .exists s
      else answer (appliedStatus (decide (clampRack given ≠ given))) (applyRackConfig rack (clampRack given) s) := by
    rw [loadRackConfig, parsed]
  intro old taken
  have taken_iff : stationTaken s rack given = true ↔ taken := by
    rw [stationTaken_iff, names.enabled, names.station]
  refine ⟨fun ht => exec_servingRacks (by rfl) serving (load.trans (if_pos (taken_iff.2 ht))), fun ht => ?_⟩
  have run := exec_servingRacks (c := .loadRackConfig) (by rfl) serving (load.trans (if_neg (mt taken_iff.1 ht)))
  simp only [answer_status, answer_data, answer_state, appliedStatus, decide_eq_true_eq] at run
  have clamped_iff : clampRack given ≠ given ↔ clamped := by
    rw [clampRack_ne_iff, names.scanLow, names.scanHigh, names.spacing, names.openCap, names.closedCap,
      names.baseInterval, names.turnLength]
  have enabled_iff : (clampRack given).enabled = true ↔ on := names.enabled
  obtain ⟨v, live, applied, reconfigured, cases_⟩ := exists_reconfigured s rack (clampRack given)
  have loaded := reconfigured.loaded
  rw [← applied] at loaded
  have here := (loaded.racks rack).trans (if_pos rfl)
  have low_ : (clampRack given).scanLow.val = low := names.scanLow
  have sent : pollFrame rack (clampRack given) (clampRack given).scanLow =
      { dest := station, origin := .poll rack (clampRack given).scanLow true, payload := [BitVec.ofNat 8 low] } := by
    rw [pollFrame, low_, show (clampRack given).station = station from names.station]
  refine ⟨rackSender (applyRackConfig rack (clampRack given) s), fun hk => ?_, fun hk => ?_, ?_, loaded.keeps⟩
  · rw [run, if_pos (clamped_iff.2 hk)]
  · rw [run, if_neg (mt clamped_iff.1 hk)]
  rw [here]
  refine ⟨enabled_iff, names.station, names.scanLow, ?_, ?_, ?_, ?_, ?_, ?_, loaded.capacity,
    fun r hr => ⟨(loaded.racks r).trans (if_neg hr), loaded.others r hr⟩, ?_⟩
  · rw [clampRack_scanHigh, names.scanLow, names.scanHigh]
  · exact congrArg (clampTo 10 1000) names.spacing
  · exact congrArg (min · 6) names.openCap
  · exact congrArg (min · 6) names.closedCap
  · exact congrArg (clampTo 10 600) names.baseInterval
  · exact congrArg (clampTo 30 1800) names.turnLength
  have station_ : (clampRack given).station = station := names.station
  have rekeyed_iff : Rekeyed old.config (clampRack given) ↔
      old.config.enabled = true ∧ on ∧ old.config.station ≠ station := by
    rw [Rekeyed, enabled_iff, station_]
  intro l polled sent' silenced
  have polled_held (h : s.hli.linkUp = true → pollFrame rack (clampRack given) (clampRack given).scanLow ∈ heldFrames v.hli)
      (up : s.hli.linkUp = true) : sent' ∈ heldFrames (rackSender (applyRackConfig rack (clampRack given) s)).hli :=
    loaded.held _ (show sent' ∈ heldFrames v.hli from (show _ = sent' from sent) ▸ h up)
  refine ⟨fun ho hc => cases_.off ho (mt enabled_iff.1 hc), fun ho hc => ?_, fun ho hc => ?_, fun ho hc hs => ?_,
    fun ho hc hs => cases_.kept ho (enabled_iff.2 hc) (hs.trans station_.symm), fun h => ?_, fun h => ?_,
    fun ho h hp => ?_⟩
  · obtain ⟨hl, held⟩ := cases_.enabled ho (enabled_iff.2 hc)
    exact ⟨hl, polled_held held⟩
  · obtain ⟨hl, silent⟩ := cases_.disabled ho (mt enabled_iff.1 hc)
    refine ⟨hl, fun bounded b f hf => ?_⟩
    rcases loaded.added f hf with h | h
    · rw [h]
      simp
    · exact silent bounded b f h
  · obtain ⟨hl, held⟩ := cases_.rekeyed ho (enabled_iff.2 hc) (by rw [station_]; exact hs)
    exact ⟨hl, polled_held held⟩
  · exact (cases_.event ⟨rekeyed_iff.2 h.1, h.2⟩).to_evq loaded.evq
  · exact loaded.evq.trans (cases_.quiet fun hh => h ⟨rekeyed_iff.1 hh.1, hh.2⟩)
  · exact loaded.active (cases_.active ho (h.imp (mt enabled_iff.1) rekeyed_iff.2) hp)

end Sys2Proof.Machine
end

section
/-! What the end of a turn leaves of bays and receivers that take no part in it, and a bay that is emptied (R124, R143,
R147, R153). -/

namespace Sys2Proof.Machine

open Sys2Proof

variable {s t u : State}

/-! ### What the charge scheduler leaves of bays and receivers -/

/-- Two bay records that differ at most in mode, pending and served flag, and settle. -/
structure SameHolding (x y : Bay) : Prop where
  presence : y.presence = x.presence
  voltage : y.voltage = x.voltage
  level : y.level = x.level
  rackFault : y.rackFault = x.rackFault
  docked : y.docked = x.docked
  ready : y.ready = x.ready
  full : y.full = x.full
  fault : y.fault = x.fault
  assign : y.assign = x.assign
  reported : y.reportedMode = x.reportedMode ∧ y.reportedAssign = x.reportedAssign

theorem SameHolding.refl (x : Bay) : SameHolding x x := ⟨rfl, rfl, rfl, rfl, rfl, rfl, rfl, rfl, rfl, rfl, rfl⟩

theorem SameHolding.trans {x y z : Bay} (h : SameHolding x y) (k : SameHolding y z) : SameHolding x z :=
  ⟨k.presence.trans h.presence, k.voltage.trans h.voltage, k.level.trans h.level, k.rackFault.trans h.rackFault,
    k.docked.trans h.docked, k.ready.trans h.ready, k.full.trans h.full, k.fault.trans h.fault, k.assign.trans h.assign,
    k.reported.1.trans h.reported.1, k.reported.2.trans h.reported.2⟩

/-- What every bay holds is kept, and a receiver that no bay names. -/
structure HoldingsKept (s t : State) : Prop where
  bay : ∀ a, SameHolding (s.bay a) (t.bay a)
  receiver : ∀ h, (∀ a, (s.bay a).presence ≠ .known h) → t.receiver h = s.receiver h

theorem HoldingsKept.refl (s : State) : HoldingsKept s s := ⟨fun _ => .refl _, fun _ _ => rfl⟩

theorem HoldingsKept.trans (h : HoldingsKept s t) (k : HoldingsKept t u) : HoldingsKept s u :=
  ⟨fun a => (h.bay a).trans (k.bay a), fun n hn => (k.receiver n fun a => (h.bay a).presence ▸ hn a).trans (h.receiver n hn)⟩

theorem HoldingsKept.of_keeps {ps : List Part} (k : KeepsAllBut ps s t) (hp : Part.bays ∉ ps ∧ Part.receivers ∉ ps) :
    HoldingsKept s t :=
  ⟨fun a => k.bay_eq hp.1 a ▸ .refl _, fun h _ => k.receiver_eq hp.2 h⟩

theorem holdingsKept_charge : ChargeClosed HoldingsKept where
  refl := HoldingsKept.refl
  trans := HoldingsKept.trans
  flags s a _ _ _ := by
    refine ⟨fun a' => ?_, fun h _ => rfl⟩
    rw [State.putBay_bay]
    split
    next h => exact h ▸ ⟨rfl, rfl, rfl, rfl, rfl, rfl, rfl, rfl, rfl, rfl, rfl⟩
    next => exact .refl _
  turnSettle s a := by
    refine ⟨fun a' => ?_, fun h _ => (startTurnSettle_keeps (ps := [.bays]) .refl (by decide)).receiver_eq (by decide) h⟩
    rw [startTurnSettle_bay]
    split
    next h => exact h.1 ▸ ⟨rfl, rfl, rfl, rfl, rfl, rfl, rfl, rfl, rfl, rfl, rfl⟩
    next => exact .refl _
  sched s r q _ := .of_keeps (putSched_keeps (ps := [.sched]) .refl (by decide)) (by decide)
  countTurn s a := by
    refine ⟨fun a' => countTurn_bay a a' s ▸ .refl _, fun h hh => ?_⟩
    unfold countTurn
    split
    next n hn =>
      split
      · rw [State.putReceiver_receiver, if_neg]
        rintro rfl
        exact hh a hn
      · rfl
    all_goals rfl

/-! ### A bay that is no candidate takes no turn (R143) -/

/-- A bay without a receiver is none that selection may choose. -/
theorem Candidate.known {rack : Fin 12} {turns : List Turn} {b : Fin 24} (h : Candidate s rack turns b) :
    ∃ n, (s.bay (bayAddress rack b)).presence = .known n := by
  obtain ⟨-, -, ⟨n, -, hn, -⟩, -⟩ := h
  exact ⟨n, hn⟩

/-- What a turn that follows leaves of a bay that is no candidate, and of the turns there. -/
structure Untouched (s t : State) (a : Fin 288) : Prop where
  bay : ∃ p v, t.bay a = { s.bay a with pending := p, served := v }
  active : (∀ x ∈ (s.sched (rackOf a)).active, x.bay ≠ bayNumber a) →
    ∀ x ∈ (t.sched (rackOf a)).active, x.bay ≠ bayNumber a

theorem Untouched.refl (s : State) (a : Fin 288) : Untouched s s a := ⟨⟨_, _, rfl⟩, id⟩

/-- A bay is no candidate on any rack's list. -/
def NoCandidate (s : State) (a : Fin 288) : Prop :=
  ∀ rack b, a = bayAddress rack b → ¬ Candidate s rack (s.sched rack).active b

theorem noCandidate_of_unknown {a : Fin 288} (h : ∀ n, (s.bay a).presence ≠ .known n) : NoCandidate s a := by
  rintro rack b rfl hc
  obtain ⟨n, hn⟩ := hc.known
  exact h n hn

theorem startSelected_untouched {rack : Fin 12} {pay : Sched → Sched} (hp : ∀ q, (pay q).active = q.active) {a : Fin 288}
    (ha : NoCandidate s a) : Untouched s (startSelected rack pay s) a := by
  by_cases hc : ∃ b, Candidate s rack (s.sched rack).active b
  · obtain ⟨b, u, selected, isOpen, -, same, fresh⟩ := selectBay_eq_some hc
    have hab : a ≠ bayAddress rack b := fun h => ha rack b h isOpen.1
    have eq : startSelected rack pay s =
        (startTurn rack b u).putSched rack (pay ((startTurn rack b u).sched rack)) := by rw [startSelected, selected]
    have hu : u = s ∨ u = Machine.newRound rack s := by
      by_cases hx : ∃ x, Unserved s rack (s.sched rack).active x
      · exact .inl (same hx)
      · exact .inr (fresh fun x hx' => hx ⟨x, hx'⟩)
    have fields : ∃ v, u.bay a = { s.bay a with served := v } := by
      rcases hu with rfl | rfl
      exacts [⟨_, rfl⟩, newRound_bay_fields rack s a]
    have turns (r : Fin 12) : (u.sched r).active = (s.sched r).active := by
      rcases hu with rfl | rfl
      · rfl
      · rw [newRound_sched]
        split
        next h => rw [h]
        next => rfl
    refine ⟨?_, fun h x hx => ?_⟩
    · obtain ⟨p, after⟩ := startTurn_bay rack b u a
      obtain ⟨v, hv⟩ := fields
      rw [if_neg hab, hv] at after
      exact ⟨p, v, eq ▸ after⟩
    · have active : ((startSelected rack pay s).sched (rackOf a)).active = ((startTurn rack b u).sched (rackOf a)).active := by
        rw [eq, State.putSched_sched]
        split
        next hr => rw [hp, hr]
        next => rfl
      rw [active, startTurn_sched] at hx
      split at hx
      next hr =>
        rcases List.mem_append.1 hx with hx | hx
        · exact h x (by rwa [hr, ← turns])
        · rw [List.mem_singleton.1 hx]
          intro hb
          exact hab (by rw [← hr, show b = bayNumber a from hb, bayAddress_rackOf])
      next => exact h x (by rwa [← turns])
  · rw [startSelected_of_no_candidate fun b hb => hc ⟨b, hb⟩]
    exact .refl s a

theorem followTurn_untouched (rack : Fin 12) {a : Fin 288} (ha : NoCandidate s a) :
    Untouched s (followTurn rack s) a := by
  by_cases hf : Follows s rack
  · rw [followTurn_of_follows hf]
    refine startSelected_untouched (fun q => ?_) ha
    rw [followPay_eq]
  · rw [followTurn_of_not_follows hf]
    exact .refl s a

/-! ### A turn that ends at a bay, or a mode judged (R154) -/

theorem judgedMode_eq_off {a : Fin 288} (ht : turnOn s (rackOf a) (bayNumber a) = none) (hb : isBarred s a = true) :
    judgedMode s a = .off := by
  rw [judgedMode, ht, hb]
  rfl

theorem isBarred_of_empty {a : Fin 288} (h : (s.bay a).presence = .empty) : isBarred s a = true := by
  rw [isBarred, h]

/-- A bay has no active turn. -/
def NoTurn (s : State) (a : Fin 288) : Prop := ∀ x ∈ (s.sched (rackOf a)).active, x.bay ≠ bayNumber a

theorem turnOn_eq_none {a : Fin 288} : turnOn s (rackOf a) (bayNumber a) = none ↔ NoTurn s a := by
  rw [← Option.isNone_iff_eq_none, turnOn_isNone]
  rfl

theorem endOrJudge_of_noTurn {a : Fin 288} (h : NoTurn s a) : endOrJudge a s = setMode a (judgedMode s a) s := by
  rw [endOrJudge, turnOn_eq_none.2 h]
  rfl

theorem endOrJudge_of_turn {a : Fin 288} (h : ¬ NoTurn s a) :
    endOrJudge a s = followTurn (rackOf a) (stopTurn (rackOf a) (bayNumber a) s) := by
  refine if_pos ?_
  rw [Option.isSome_iff_ne_none]
  exact fun hn => h (turnOn_eq_none.1 hn)

theorem stopTurn_noTurn (a : Fin 288) (s : State) : NoTurn (stopTurn (rackOf a) (bayNumber a) s) a := by
  intro x hx
  rw [stopTurn_sched, if_pos rfl] at hx
  exact of_decide_eq_true (List.mem_filter.1 hx).2

theorem endOrJudge_holdings (a : Fin 288) (s : State) : HoldingsKept s (endOrJudge a s) :=
  holdingsKept_charge.endOrJudge a s

/-- No turn is left at a bay that names no receiver. -/
theorem endOrJudge_noTurn {a : Fin 288} (ha : ∀ n, (s.bay a).presence ≠ .known n) : NoTurn (endOrJudge a s) a := by
  by_cases h : NoTurn s a
  · rw [endOrJudge_of_noTurn h]
    have k := setMode_keeps (ps := [.bays]) (a := a) (m := judgedMode s a) (t := s) .refl (by decide)
    intro x hx
    rw [k.sched_eq (by decide)] at hx
    exact h x hx
  · rw [endOrJudge_of_turn h]
    refine (followTurn_untouched (rackOf a) (noCandidate_of_unknown fun n => ?_)).active (stopTurn_noTurn a s)
    rw [(holdingsKept_charge.stopTurn (rackOf a) (bayNumber a) s).bay a |>.presence]
    exact ha n

/-- Where no turn ran nothing but the mode of the bay is written. -/
theorem endOrJudge_still {a : Fin 288} (h : NoTurn s a) : KeepsAllBut [.bays] s (endOrJudge a s) := by
  rw [endOrJudge_of_noTurn h]
  exact setMode_keeps .refl (by decide)

/-- An EMPTY bay is OFF afterwards. -/
theorem endOrJudge_bay_of_empty {a : Fin 288} (ha : (s.bay a).presence = .empty) : ∃ p v,
    (endOrJudge a s).bay a = { s.bay a with mode := .off, pending := p, served := v } := by
  have away {x : Presence} (h : x = .empty) : ∀ n, x ≠ .known n := fun n hn => by simp [h] at hn
  by_cases h : NoTurn s a
  · rw [endOrJudge_of_noTurn h, judgedMode_eq_off (turnOn_eq_none.2 h) (isBarred_of_empty ha)]
    obtain ⟨p, hp⟩ := setMode_bay a .off s a
    exact ⟨p, _, hp.trans (by rw [if_pos rfl])⟩
  · rw [endOrJudge_of_turn h]
    set q := s.putSched (rackOf a) { s.sched (rackOf a) with
      active := (s.sched (rackOf a)).active.filter fun x => decide (x.bay ≠ bayNumber a) } with hq
    have none : turnOn q (rackOf a) (bayNumber a) = .none := turnOn_eq_none.2 (by
      intro x hx
      rw [hq, State.putSched_sched, if_pos rfl] at hx
      exact of_decide_eq_true (List.mem_filter.1 hx).2)
    have stopped : stopTurn (rackOf a) (bayNumber a) s = startTurnSettle a (setMode a .off q) := by
      have : stopTurn (rackOf a) (bayNumber a) s =
          startTurnSettle (bayAddress (rackOf a) (bayNumber a)) (judge (bayAddress (rackOf a) (bayNumber a)) q) := rfl
      rw [this, bayAddress_rackOf, judge, judgedMode_eq_off none (isBarred_of_empty (s := q) ha)]
    obtain ⟨p, hp⟩ := setMode_bay a .off q a
    rw [if_pos rfl] at hp
    have bay : (stopTurn (rackOf a) (bayNumber a) s).bay a = { s.bay a with mode := .off, pending := p } := by
      rw [stopped, startTurnSettle_bay, if_neg, hp]
      · rfl
      · rw [settlesTurn_iff, hp]
        exact fun hh => hh.2.1 ha
    obtain ⟨p', v, after⟩ := (followTurn_untouched (s := stopTurn (rackOf a) (bayNumber a) s) (rackOf a)
      (noCandidate_of_unknown (away (by rw [bay]; exact ha)))).bay
    exact ⟨p', v, by rw [after, bay]⟩

/-! ### A bay that is emptied (R124) -/

/-- A signal event at a bay, where the signal was set. -/
def signalEvents (time : Nat) (a : Fin 288) (was : Bool) (kind : EventKind) (detail : Nat) : List EventRecord :=
  if was then [⟨kind, time, a.val, none, detail⟩] else []

theorem raiseBay_events {time : Nat} (c : Bool) (k : EventKind) (a : Fin 288) (d : Nat) (hs : s.mge.hubTime = time) :
    EventsTaken (signalEvents time a c k d) s (raiseBay c k a d s) := by
  unfold raiseBay signalEvents
  split
  · exact .raise_of_evq rfl hs
  · exact .nil

/-- The events of the signals that fall at an emptied bay, in order. -/
def fallEvents (time : Nat) (a : Fin 288) (old : Bay) (shown : Nat) : List EventRecord :=
  signalEvents time a old.fault .faultFall (old.level.getD 0xFFFF) ++
  signalEvents time a old.full .fullFall (old.level.getD 0xFFFF) ++
  signalEvents time a old.ready .readyFall (old.level.getD 0xFFFF) ++
  signalEvents time a old.docked .dockedFall shown

/-- What emptying a bay leaves (R124, R149). -/
structure BayLeft (s t : State) (old : Bay) (a : Fin 288) : Prop where
  bay : ∃ p v, t.bay a = { s.bay a with
    presence := .empty, level := none, voltage := none, settle := .none, settleEnds := none, docked := false
    ready := false, full := false, fault := false, mode := .off, pending := p, served := v }
  others : ∀ a', a' ≠ a → SameHolding (s.bay a') (t.bay a')
  noTurn : NoTurn t a
  receiver : ∀ h, (∀ a', a' ≠ a → (s.bay a').presence ≠ .known h) → t.receiver h = s.receiver h
  still : NoTurn s a → KeepsAllBut [.bays, .events, .egress] s t
  events : EventsTaken (fallEvents s.mge.hubTime a old (dockedDetail old.presence)) s t
  keeps : KeepsAllBut [.bays, .receivers, .sched, .events, .egress] s t

theorem bayEmptied_left (old : Bay) (a : Fin 288) (s : State) : BayLeft s (bayEmptied old a s) old a := by
  set t := s.putBay a { s.bay a with
    presence := .empty, level := none, voltage := none, settle := .none, settleEnds := none,
    docked := false, ready := false, full := false, fault := false } with ht
  obtain ⟨u, hu⟩ : ∃ u, u = raiseBay old.fault .faultFall a (levelDetail old.level) t := ⟨_, rfl⟩
  obtain ⟨v, hv⟩ : ∃ v, v = raiseBay old.full .fullFall a (levelDetail old.level) u := ⟨_, rfl⟩
  obtain ⟨w, hw⟩ : ∃ w, w = raiseBay old.ready .readyFall a (levelDetail old.level) v := ⟨_, rfl⟩
  obtain ⟨x, hx⟩ : ∃ x, x = raiseBay old.docked .dockedFall a (dockedDetail old.presence) w := ⟨_, rfl⟩
  have eq : bayEmptied old a s = endOrJudge a x := by rw [hx, hw, hv, hu]; rfl
  have kt : KeepsAllBut [.bays] s t := putBay_keeps .refl (by decide)
  have ku : KeepsAllBut eventParts t u := hu ▸ raiseBay_keeps .refl (by decide) (by decide)
  have kv : KeepsAllBut eventParts u v := hv ▸ raiseBay_keeps .refl (by decide) (by decide)
  have kw : KeepsAllBut eventParts v w := hw ▸ raiseBay_keeps .refl (by decide) (by decide)
  have kx : KeepsAllBut eventParts w x := hx ▸ raiseBay_keeps .refl (by decide) (by decide)
  have k : KeepsAllBut eventParts t x := ((ku.trans kv).trans kw).trans kx
  have bays (a' : Fin 288) : x.bay a' = t.bay a' := k.bay_eq (by decide) a'
  have here : t.bay a = _ := State.putBay_bay_self s a _
  have away (a' : Fin 288) (h : a' ≠ a) : t.bay a' = s.bay a' := (State.putBay_bay s a a' _).trans (if_neg h)
  have empty : (x.bay a).presence = .empty := by rw [bays, here]
  have noKnown (n : Fin 384) : (x.bay a).presence ≠ .known n := by rw [empty]; simp
  have time (y : State) (ky : KeepsAllBut eventParts t y) : y.mge.hubTime = s.mge.hubTime := ky .hubTime (by decide)
  have enables {y z : State} (kz : KeepsAllBut eventParts y z) : z.evq.enables = y.evq.enables := kz .enables (by decide)
  have raised : EventsTaken (fallEvents s.mge.hubTime a old (dockedDetail old.presence)) t x := by
    have e1 := hu ▸ raiseBay_events old.fault .faultFall a (levelDetail old.level) (s := t) (time t .refl)
    have e2 := hv ▸ raiseBay_events old.full .fullFall a (levelDetail old.level) (s := u) (time u ku)
    have e3 := hw ▸ raiseBay_events old.ready .readyFall a (levelDetail old.level) (s := v) (time v (ku.trans kv))
    have e4 := hx ▸ raiseBay_events old.docked .dockedFall a (dockedDetail old.presence) (s := w)
      (time w ((ku.trans kv).trans kw))
    exact ((e1.append e2 (enables ku)).append e3 (enables (ku.trans kv))).append e4 (enables ((ku.trans kv).trans kw))
  have ended := endOrJudge_keeps (ps := [.bays, .receivers, .sched]) (a := a) (t := x) .refl (by decide) (by decide)
    (by decide)
  rw [eq]
  refine ⟨?_, fun a' h => ?_, endOrJudge_noTurn noKnown, fun h hh => ?_, fun hn => ?_, ?_, ?_⟩
  · obtain ⟨p, served, after⟩ := endOrJudge_bay_of_empty empty
    exact ⟨p, served, by rw [after, bays, here]⟩
  · have := (endOrJudge_holdings a x).bay a'
    rwa [bays, away a' h] at this
  · rw [(endOrJudge_holdings a x).receiver h fun a' => ?_, k.receiver_eq (by decide)]
    · rfl
    · by_cases he : a' = a
      · exact he ▸ noKnown h
      · rw [bays, away a' he]
        exact hh a' he
  · have same : NoTurn x a := fun y hy => hn y (by
      rw [k.sched_eq (by decide), kt.sched_eq (by decide)] at hy
      exact hy)
    exact ((kt.mono (by decide)).trans (k.mono (by decide))).trans ((endOrJudge_still same).mono (by decide))
  · exact (raised.of_evq (by rfl)).to_evq (ended.evq_eq (by decide))
  · exact ((kt.mono (by decide)).trans (k.mono (by decide))).trans (ended.mono (by decide))

end Sys2Proof.Machine
end

section
/-! DOCK NOTICEs of docks into an EMPTY bay (R92, R94 to R97, R122, R123). -/

namespace Sys2Proof.Machine

open Sys2Proof

variable {s t u : State}

/-! ### The notice (R112, R122) -/

/-- The tag that a DOCK NOTICE shows; none where its bytes are 0. -/
def shownByNotice (n : Nat) : Option RxTag := if n = 0 then none else some (BitVec.ofNat 24 n)

theorem shownByNotice_toNat {tag : RxTag} (h : tag ≠ 0#24) : shownByNotice tag.toNat = some tag := by
  have : tag.toNat ≠ 0 := fun h0 => h (BitVec.eq_of_toNat_eq (by simpa using h0))
  rw [shownByNotice, if_neg this, BitVec.ofNat_toNat, BitVec.setWidth_eq]

/-- A DOCK NOTICE of a bay of a rack. -/
theorem exec_dockNotice {frame : List Byte} {station : Station} {payload : List Byte} {rack : Fin 12} {b : Fin 24}
    (h : Arrives s frame .dockNotice station payload) (hl : payload.length = 4) (hr : FrameOfRack s station rack)
    (hb : byteAt payload 0 = b.val) : exec (.dockNotice frame) s = .next (rackSender
      (comparePresence (bayAddress rack b) (shownByNotice (tripleAt payload 1)) (countReceived s))) := by
  refine congrArg Host.Outcome.next ((arrive_accepted h).trans ?_)
  have found : findRack station (countReceived s) = some rack := findRack_eq_some hr
  rw [dispatchFrame, if_pos hl, takeNotice, found]
  dsimp only
  rw [toId_val b hb]
  rfl

theorem countReceived_keepsParts (s : State) : KeepsAllBut [.egress] s (countReceived s) :=
  putLinkCounters_keeps .refl (by decide)

/-! ### Assignments -/

theorem setAssign_bay (a : Fin 288) (x : Option Assignment) (s : State) (a' : Fin 288) : ∃ p, (setAssign a x s).bay a' =
    { s.bay a' with assign := if a' = a then x else (s.bay a').assign, pending := p } := by
  unfold setAssign
  dsimp only
  split
  next h =>
    refine ⟨(s.bay a').pending, ?_⟩
    split
    next he => rw [he, ← h]
    next => rfl
  next h =>
    rw [State.putBay_bay]
    split
    next he => exact ⟨true, by rw [he]⟩
    next => exact ⟨(s.bay a').pending, rfl⟩

theorem setAssign_bay_ne {a a' : Fin 288} (h : a' ≠ a) (x : Option Assignment) (s : State) :
    (setAssign a x s).bay a' = s.bay a' := by
  unfold setAssign
  dsimp only
  split
  · rfl
  · rw [State.putBay_bay, if_neg h]

theorem setMode_bay_ne {a a' : Fin 288} (h : a' ≠ a) (m : ChargeMode) (s : State) :
    (setMode a m s).bay a' = s.bay a' := by
  unfold setMode
  dsimp only
  split
  · rfl
  · rw [State.putBay_bay, if_neg h]

/-! ### A dock (R123) -/

/-- A bay record in its dock settle, with nothing read yet. -/
def dockedRecord (now : Nat) (b : Bay) : Bay :=
  { b with
    level := none, voltage := none, ready := false, full := false, fault := false, rackFault := false, settle := .dock
    settleEnds := some (now + 1500), docked := true }

/-- What a dock does once the Fleet Table has answered (R123). -/
structure Docked (t w : State) (a : Fin 288) : Prop where
  bay : ∃ m p, w.bay a = { dockedRecord t.clock.now (t.bay a) with mode := m, pending := p }
  others : ∀ a', a' ≠ a → w.bay a' = t.bay a'
  events : EventsTaken [⟨.dockedRise, t.mge.hubTime, a.val, none, dockedDetail (t.bay a).presence⟩] t w
  keeps : KeepsAllBut [.bays, .events, .egress] t w

theorem dockBay_docked (a : Fin 288) (tag : RxTag) (s : State) : Docked (fleetDock a tag s) (dockBay a tag s) a := by
  obtain ⟨t, ht⟩ : ∃ t, t = fleetDock a tag s := ⟨_, rfl⟩
  obtain ⟨u, hu⟩ : ∃ u, u = t.putBay a (dockedRecord t.clock.now (t.bay a)) := ⟨_, rfl⟩
  obtain ⟨v, hv⟩ : ∃ v, v = raiseEvent .dockedRise a.val none (dockedDetail (u.bay a).presence) u := ⟨_, rfl⟩
  have eq : dockBay a tag s = setMode a (judgedMode v a) v := by
    rw [hv, hu, ht]
    rfl
  rw [eq, ← ht]
  have here : u.bay a = dockedRecord t.clock.now (t.bay a) := by rw [hu, State.putBay_bay_self]
  have ku : KeepsAllBut [.bays] t u := hu ▸ putBay_keeps .refl (by decide)
  have kv : KeepsAllBut eventParts u v := hv ▸ raiseEvent_keeps .refl (by decide) (by decide)
  have km : KeepsAllBut [.bays] v (setMode a (judgedMode v a) v) := setMode_keeps .refl (by decide)
  refine ⟨?_, fun a' h => ?_, ?_, ((ku.mono (by decide)).trans (kv.mono (by decide))).trans (km.mono (by decide))⟩
  · obtain ⟨p, hp⟩ := setMode_bay a (judgedMode v a) v a
    refine ⟨judgedMode v a, p, ?_⟩
    rw [hp, if_pos rfl, kv.bay_eq (by decide), here]
  · rw [setMode_bay_ne h, kv.bay_eq (by decide), hu, State.putBay_bay, if_neg h]
  · have raised : EventsTaken [⟨.dockedRise, t.mge.hubTime, a.val, none, dockedDetail (u.bay a).presence⟩] t v :=
      hv ▸ .raise_of_evq (ku.evq_eq (by decide)) (ku .hubTime (by decide))
    rw [here] at raised
    exact raised.to_evq (km.evq_eq (by decide))

theorem comparePresence_of_empty {a : Fin 288} {tag : RxTag} (h : (s.bay a).presence = .empty) :
    comparePresence a (some tag) s = dockBay a tag s := by
  unfold comparePresence
  rw [h]

theorem undockFormer_of_empty {a : Fin 288} (tag : RxTag) (h : (s.bay a).presence = .empty) : undockFormer a tag s = s := by
  rw [undockFormer, h]

/-- A notice that docks a tag into an EMPTY bay, ahead of the Fleet Table's answer. -/
structure NoticeTaken (s t w : State) (a : Fin 288) : Prop where
  docked : Docked t w a
  bay : ∀ a', ∃ p, (rackSender w).bay a' = { w.bay a' with pending := p }
  sent : KeepsAllBut [.bays, .sender, .egress] w (rackSender w)
  keeps : KeepsAllBut [.bays, .events, .sender, .egress] t (rackSender w)

theorem noticeTaken (a : Fin 288) (tag : RxTag) (s : State) :
    NoticeTaken s (fleetDock a tag s) (dockBay a tag s) a :=
  have d := dockBay_docked a tag s
  ⟨d, rackSender_bay _, rackSender_keepsParts _, (d.keeps.mono (by decide)).trans ((rackSender_keepsParts _).mono (by decide))⟩

/-- The bay where a tag docks once the notice is taken. -/
theorem NoticeTaken.bay_here {w : State} {a : Fin 288} (h : NoticeTaken s t w a) : ∃ m p,
    (rackSender w).bay a = { dockedRecord t.clock.now (t.bay a) with mode := m, pending := p } := by
  obtain ⟨p, hp⟩ := h.bay a
  obtain ⟨m, p', hw⟩ := h.docked.bay
  exact ⟨m, p, by rw [hp, hw]⟩

theorem NoticeTaken.bay_away {w : State} {a a' : Fin 288} (h : NoticeTaken s t w a) (ha : a' ≠ a) : ∃ p,
    (rackSender w).bay a' = { t.bay a' with pending := p } := by
  obtain ⟨p, hp⟩ := h.bay a'
  exact ⟨p, by rw [hp, h.docked.others a' ha]⟩

theorem NoticeTaken.events {w : State} {a : Fin 288} {es : List EventRecord} (h : NoticeTaken s t w a)
    (he : EventsTaken es s t) (hk : t.evq.enables = s.evq.enables) : EventsTaken
      (es ++ [⟨.dockedRise, t.mge.hubTime, a.val, none, dockedDetail (t.bay a).presence⟩]) s (rackSender w) :=
  (he.append h.docked.events hk).to_evq (h.sent.evq_eq (by decide))

/-- The fields of the bay where a tag docks. -/
theorem NoticeTaken.shown {w : State} {a : Fin 288} {now : Nat} {x : Presence} {y : Option Assignment} {v : Bay}
    (h : NoticeTaken s t w a) (hb : ∃ p, t.bay a = { v with presence := x, assign := y, pending := p })
    (hn : t.clock.now = now) :
    let z := (rackSender w).bay a
    z.presence = x ∧ z.docked = true ∧ z.settle = .dock ∧ z.settleEnds = some (now + 1500) ∧ z.level = none ∧
    z.voltage = none ∧ z.ready = false ∧ z.full = false ∧ z.fault = false ∧ z.rackFault = false ∧ z.assign = y := by
  obtain ⟨m, p, here⟩ := h.bay_here
  obtain ⟨p', hp⟩ := hb
  dsimp only
  rw [here, hp, hn]
  exact ⟨rfl, rfl, rfl, rfl, rfl, rfl, rfl, rfl, rfl, rfl, rfl⟩

/-! ### Unknown tags (R92, R97) -/

theorem freeHandle_eq_none (h : ∀ n, (s.receiver n).isSome = true) : freeHandle s = none := by
  rw [freeHandle, List.find?_eq_none]
  intro n _
  simpa using Option.isSome_iff_ne_none.1 (h n)

theorem freeHandle_eq_some {n : Fin 384} (h : s.receiver n = none) (below : ∀ m < n, (s.receiver m).isSome = true) :
    freeHandle s = some n := by
  refine find?_eq_some_of_first (pairwise_finRange_lt 384) (List.mem_finRange n) (by rw [h]; rfl) fun m _ hm hlt => ?_
  rw [Option.isNone_iff_eq_none] at hm
  have := below m hlt
  rw [hm] at this
  exact absurd this (by simp)

theorem fleetDock_unknown {a : Fin 288} {tag : RxTag} (hf : undockFormer a tag s = t) (ht : findTag tag t = none)
    (hn : t.mge.settings.autoEnrol = false ∨ freeHandle t = none) : fleetDock a tag s = dockUnknown a tag t := by
  rw [fleetDock, hf, ht]
  dsimp only
  rcases hn with hn | hn
  · rw [hn]
  · rw [hn]
    split <;> simp_all

theorem fleetDock_enrols {a : Fin 288} {tag : RxTag} {n : Fin 384} (hf : undockFormer a tag s = t)
    (ht : findTag tag t = none) (ha : t.mge.settings.autoEnrol = true) (hn : freeHandle t = some n) :
    fleetDock a tag s = enrolInto a n tag t := by
  rw [fleetDock, hf, ht]
  dsimp only
  rw [ha, hn]

/-- What the dock of an unknown tag leaves (R97). -/
structure UnknownDocked (s t : State) (a : Fin 288) (tag : RxTag) : Prop where
  bay : ∃ p, t.bay a = { s.bay a with presence := .foreign tag, assign := none, pending := p }
  others : ∀ a', a' ≠ a → t.bay a' = s.bay a'
  counters : t.flt.unknownDocks = min (s.flt.unknownDocks + 1) 4294967295 ∧
    t.flt.unplannedTakes = s.flt.unplannedTakes ∧ t.flt.lateReturns = s.flt.lateReturns
  events : EventsTaken [⟨.unknownReceiver, s.mge.hubTime, a.val, none, tag.toNat % 65536⟩] s t
  keeps : KeepsAllBut [.bays, .fleetCounters, .events, .egress] s t

theorem dockUnknown_docked (a : Fin 288) (tag : RxTag) (s : State) : UnknownDocked s (dockUnknown a tag s) a tag := by
  set t := s.putBay a { s.bay a with presence := .foreign tag } with ht
  obtain ⟨u, hu⟩ : ∃ u, u = setAssign a none t := ⟨_, rfl⟩
  obtain ⟨v, hv⟩ : ∃ v, v = u.withFlt { u.flt with unknownDocks := satAdd u.flt.unknownDocks 1 } := ⟨_, rfl⟩
  have eq : dockUnknown a tag s = raiseEvent .unknownReceiver a.val none (tag.toNat % 65536) v := by
    rw [hv, hu]
    rfl
  have ku : KeepsAllBut [.bays] s u := hu ▸ setAssign_keeps (putBay_keeps .refl (by decide)) (by decide)
  have kv : KeepsAllBut [.fleetCounters] u v := hv ▸ withFlt_keeps .refl (by rfl) (by decide)
  have k : KeepsAllBut [.bays, .fleetCounters] s v := (ku.mono (by decide)).trans (kv.mono (by decide))
  have kr : KeepsAllBut eventParts v (dockUnknown a tag s) := eq ▸ raiseEvent_keeps .refl (by decide) (by decide)
  have bays (a' : Fin 288) : (dockUnknown a tag s).bay a' = u.bay a' := by
    rw [kr.bay_eq (by decide), kv.bay_eq (by decide)]
  refine ⟨?_, fun a' h => ?_, ?_, ?_, (k.mono (by decide)).trans (kr.mono (by decide))⟩
  · obtain ⟨p, hp⟩ := setAssign_bay a none t a
    rw [bays, hu]
    exact ⟨p, hp.trans (by rw [if_pos rfl, ht, State.putBay_bay_self])⟩
  · rw [bays, hu, setAssign_bay_ne h, ht, State.putBay_bay, if_neg h]
  · obtain ⟨h1, h2, h3⟩ := kr .fleetCounters (by decide)
    obtain ⟨g1, g2, g3⟩ := ku .fleetCounters (by decide)
    rw [h1, h2, h3, hv]
    exact ⟨congrArg (fun n => min (n + 1) 4294967295) g1, g2, g3⟩
  · rw [eq]
    exact .raise_of_evq (k.evq_eq (by decide)) (k .hubTime (by decide))

/-- What the enrolment of a tag into its bay leaves (R92). -/
theorem enrolInto_spec (a : Fin 288) (n : Fin 384) (tag : RxTag) (s : State) :
    (∃ p, (enrolInto a n tag s).bay a = { s.bay a with presence := .known n, assign := none, pending := p }) ∧
    (∀ a', a' ≠ a → (enrolInto a n tag s).bay a' = s.bay a') ∧
    (∀ m, (enrolInto a n tag s).receiver m = if m = n
      then some { newReceiver tag with phase := .docked, bay := some a } else s.receiver m) ∧
    KeepsAllBut [.bays, .receivers] s (enrolInto a n tag s) := by
  set t := placeReceiver a n { newReceiver tag with phase := .docked } s with ht
  have placed (a' : Fin 288) : t.bay a' = if a' = a then { s.bay a with presence := .known n } else s.bay a' :=
    State.putBay_bay _ _ _ _
  have eq : enrolInto a n tag s = setAssign a none t := rfl
  have k : KeepsAllBut [.bays] t (setAssign a none t) := setAssign_keeps .refl (by decide)
  rw [eq]
  refine ⟨?_, fun a' h => ?_, fun m => ?_, (placeReceiver_keeps .refl (by decide) (by decide)).trans (k.mono (by decide))⟩
  · obtain ⟨p, hp⟩ := setAssign_bay a none t a
    exact ⟨p, hp.trans (by rw [if_pos rfl, placed, if_pos rfl])⟩
  · rw [setAssign_bay_ne h, placed, if_neg h]
  · rw [k.receiver_eq (by decide)]
    exact State.putReceiver_receiver s n m _

/-- Settles O22: the Fleet Table finds no record of the tag, and makes the bay FOREIGN or enrols the tag into it. -/
theorem unknownTagDocksForeign : Obligations.UnknownTagDocksForeign := by
  unfold Obligations.UnknownTagDocksForeign
  intro s frame station payload rack b tag arrives len ofRack hb htag hne a empty unknown docked
  have run := exec_dockNotice arrives len ofRack hb
  rw [htag, shownByNotice_toNat hne, comparePresence_of_empty (s := countReceived s) empty] at run
  have counted := countReceived_keepsParts s
  have former : undockFormer a tag (countReceived s) = countReceived s := undockFormer_of_empty tag empty
  have notFound : findTag tag (countReceived s) = none := findTag_eq_none unknown
  have taken := noticeTaken a tag (countReceived s)
  refine ⟨fun hn => ?_, fun h enrols absent below => ?_⟩
  · have answer : fleetDock a tag (countReceived s) = dockUnknown a tag (countReceived s) :=
      fleetDock_unknown former notFound (hn.imp id (freeHandle_eq_none (s := countReceived s)))
    rw [answer] at taken
    have foreign := dockUnknown_docked a tag (countReceived s)
    have presence : ((dockUnknown a tag (countReceived s)).bay a).presence = .foreign tag :=
      foreign.bay.elim fun p hp => by rw [hp]
    have clock : (dockUnknown a tag (countReceived s)).clock = s.clock :=
      (foreign.keeps .clock (by decide)).trans (counted .clock (by decide))
    have time : (dockUnknown a tag (countReceived s)).mge.hubTime = s.mge.hubTime :=
      (foreign.keeps .hubTime (by decide)).trans (counted .hubTime (by decide))
    obtain ⟨c1, c2, c3⟩ := foreign.counters
    obtain ⟨k1, k2, k3⟩ := taken.keeps .fleetCounters (by decide)
    have events := (taken.events foreign.events (foreign.keeps .enables (by decide))).of_evq (u := s)
      (counted.evq_eq (by decide)).symm
    rw [presence, time] at events
    refine ⟨_, run, ?_, k1.trans c1, k2.trans c2, k3.trans c3, events, ((counted.mono (by decide)).trans
      (foreign.keeps.mono (by decide))).trans (taken.keeps.mono (by decide))⟩
    obtain ⟨h1, h2, h3, h4, h5, h6, h7, h8, h9, h10, h11⟩ := taken.shown foreign.bay (congrArg Clock.now clock)
    refine ⟨h1, h2, h3, h4, h5, h6, h7, h8, h9, h10, h11, fun a' ha' => ?_⟩
    obtain ⟨p, away⟩ := taken.bay_away ha'
    rw [away, foreign.others a' ha']
    rfl
  · have answer : fleetDock a tag (countReceived s) = enrolInto a h tag (countReceived s) :=
      fleetDock_enrols former notFound enrols (freeHandle_eq_some (s := countReceived s) absent below)
    rw [answer] at taken
    obtain ⟨bay, others, receivers, k⟩ := enrolInto_spec a h tag (countReceived s)
    have presence : ((enrolInto a h tag (countReceived s)).bay a).presence = .known h :=
      bay.elim fun p hp => by rw [hp]
    have clock : (enrolInto a h tag (countReceived s)).clock = s.clock :=
      (k .clock (by decide)).trans (counted .clock (by decide))
    have time : (enrolInto a h tag (countReceived s)).mge.hubTime = s.mge.hubTime :=
      (k .hubTime (by decide)).trans (counted .hubTime (by decide))
    have none : EventsTaken [] s (enrolInto a h tag (countReceived s)) :=
      EventsTaken.nil.to_evq ((k.evq_eq (by decide)).trans (counted.evq_eq (by decide)))
    have enables : (enrolInto a h tag (countReceived s)).evq.enables = s.evq.enables :=
      (k .enables (by decide)).trans (counted .enables (by decide))
    have events := (none.append taken.docked.events enables).to_evq (taken.sent.evq_eq (by decide))
    rw [presence, time] at events
    have receiver (m : Fin 384) := (taken.keeps.receiver_eq (by decide) m).trans (receivers m)
    refine ⟨_, run, ?_, (receiver h).trans (if_pos rfl), fun m hm => (receiver m).trans (if_neg hm), events,
      ((counted.mono (by decide)).trans (k.mono (by decide))).trans (taken.keeps.mono (by decide))⟩
    obtain ⟨h1, h2, h3, h4, h5, h6, h7, h8, h9, h10, h11⟩ := taken.shown bay (congrArg Clock.now clock)
    refine ⟨h1, h2, h3, h4, h5, h6, h7, h8, h9, h10, h11, fun a' ha' => ?_⟩
    obtain ⟨p, away⟩ := taken.bay_away ha'
    rw [away, others a' ha']
    rfl

end Sys2Proof.Machine
end

section
/-! DOCK NOTICEs of a known receiver into an EMPTY bay: it returns (R95), or moves there from another bay (R96). -/

namespace Sys2Proof.Machine

open Sys2Proof

variable {s t u : State}

/-! ### Known tags (R94) -/

theorem fleetDock_known {a : Fin 288} {h : Fin 384} {r : Receiver} (hf : undockFormer a r.tag s = t)
    (ht : findTag r.tag t = some h) (hr : t.receiver h = some r) (hb : r.bay = none) :
    fleetDock a r.tag s = dockKnown a h r t := by
  rw [fleetDock, hf, ht]
  dsimp only
  rw [hr]
  dsimp only
  rw [hb]

theorem fleetDock_moves {a left : Fin 288} {h : Fin 384} {r : Receiver} (hf : undockFormer a r.tag s = t)
    (ht : findTag r.tag t = some h) (hr : t.receiver h = some r) (hb : r.bay = some left) (hne : left ≠ a) :
    fleetDock a r.tag s = moveReceiver left a h t := by
  rw [fleetDock, hf, ht]
  dsimp only
  rw [hr]
  dsimp only
  rw [hb]
  exact if_neg hne

theorem placeReceiver_bay (a : Fin 288) (h : Fin 384) (r : Receiver) (s : State) (a' : Fin 288) :
    (placeReceiver a h r s).bay a' = if a' = a then { s.bay a with presence := .known h } else s.bay a' :=
  State.putBay_bay _ _ _ _

theorem placeReceiver_receiver (a : Fin 288) (h : Fin 384) (r : Receiver) (s : State) (m : Fin 384) :
    (placeReceiver a h r s).receiver m = if m = h then some { r with bay := some a, level := none } else s.receiver m :=
  State.putReceiver_receiver s h m _

/-- A receiver placed in a bay that is then assigned. -/
theorem placed_assigned (a : Fin 288) (h : Fin 384) (r : Receiver) (x : Option Assignment) (s : State) :
    (∃ p, (setAssign a x (placeReceiver a h r s)).bay a =
      { s.bay a with presence := .known h, assign := x, pending := p }) ∧
    (∀ a', a' ≠ a → (setAssign a x (placeReceiver a h r s)).bay a' = s.bay a') ∧
    (∀ m, (setAssign a x (placeReceiver a h r s)).receiver m =
      if m = h then some { r with bay := some a, level := none } else s.receiver m) ∧
    KeepsAllBut [.bays, .receivers] s (setAssign a x (placeReceiver a h r s)) := by
  have k : KeepsAllBut [.bays] (placeReceiver a h r s) (setAssign a x (placeReceiver a h r s)) :=
    setAssign_keeps .refl (by decide)
  refine ⟨?_, fun a' ha => ?_, fun m => ?_, (placeReceiver_keeps .refl (by decide) (by decide)).trans (k.mono (by decide))⟩
  · obtain ⟨p, hp⟩ := setAssign_bay a x (placeReceiver a h r s) a
    exact ⟨p, hp.trans (by rw [if_pos rfl, placeReceiver_bay, if_pos rfl])⟩
  · rw [setAssign_bay_ne ha, placeReceiver_bay, if_neg ha]
  · rw [k.receiver_eq (by decide), placeReceiver_receiver]

/-! ### A receiver that returns (R95, R70, R110) -/

open BayWorkClosed in
theorem countReturn_tour (r : Receiver) (s : State) (k : Fin 16) : (countReturn r s).tour k =
    if r.phase = .issued ∧ r.tour.map TourRef.slot = some k then
      { s.tour k with live := { (s.tour k).live with
          issued := (s.tour k).live.issued - 1, returned := (s.tour k).live.returned + 1 } } else s.tour k := by
  unfold countReturn
  split
  next ref hp ht =>
    refine (State.putTour_tour _ _ _ _).trans ?_
    rw [ht]
    by_cases h : k = ref.slot
    · rw [if_pos h, if_pos ⟨hp, by rw [h]; rfl⟩, h]
    · rw [if_neg h, if_neg fun hh => h (Option.some_inj.1 hh.2).symm]
  next hn =>
    rw [if_neg]
    rintro ⟨hp, ht⟩
    cases hr : r.tour with
    | none => simp [hr] at ht
    | some ref => exact hn ref hp hr

open BayWorkClosed in
theorem countReturn_keeps (r : Receiver) (s : State) : KeepsAllBut [.tours] s (countReturn r s) := by
  unfold countReturn
  split
  exacts [noteReturned_keeps .refl (by decide), .refl]

open BayWorkClosed in
theorem countLate_flt (late : Bool) (s : State) : (countLate late s).flt = { s.flt with
    lateReturns := if late then min (s.flt.lateReturns + 1) 4294967295 else s.flt.lateReturns } := by
  cases late <;> rfl

open BayWorkClosed in
theorem countLate_keeps (late : Bool) (s : State) : KeepsAllBut [.fleetCounters] s (countLate late s) := by
  unfold countLate
  split
  exacts [withFlt_keeps .refl (by rfl) (by decide), .refl]

/-- The RETURNED event of a receiver that docks. -/
def returnEvents (time : Nat) (a : Fin 288) (h : Fin 384) (r : Receiver) : List EventRecord :=
  if (r.phase = .due ∨ r.phase = .overdue) ∨ r.phase = .stray ∨ r.phase = .issued then
    [⟨.returned, time, h.val, none, a.val + if r.phase = .due ∨ r.phase = .overdue then 32768 else 0⟩] else []

/-- What the return of a receiver leaves (R95). -/
structure KnownDocked (s t : State) (a : Fin 288) (h : Fin 384) (r : Receiver) : Prop where
  bay : ∃ p, t.bay a = { s.bay a with presence := .known h, assign := none, pending := p }
  others : ∀ a', a' ≠ a → t.bay a' = s.bay a'
  receiver : ∀ m, t.receiver m = if m = h then some { BayWorkClosed.returnedReceiver r with
    bay := some a, level := none } else s.receiver m
  tour : ∀ k, t.tour k = if r.phase = .issued ∧ r.tour.map TourRef.slot = some k then
    { s.tour k with live := { (s.tour k).live with
        issued := (s.tour k).live.issued - 1, returned := (s.tour k).live.returned + 1 } } else s.tour k
  lateReturns : t.flt.lateReturns = if r.phase = .due ∨ r.phase = .overdue
    then min (s.flt.lateReturns + 1) 4294967295 else s.flt.lateReturns
  counters : t.flt.unknownDocks = s.flt.unknownDocks ∧ t.flt.unplannedTakes = s.flt.unplannedTakes
  events : EventsTaken (returnEvents s.mge.hubTime a h r) s t
  keeps : KeepsAllBut [.bays, .receivers, .tours, .fleetCounters, .events, .egress] s t

open BayWorkClosed in
theorem returnsLate_iff (r : Receiver) : returnsLate r = true ↔ r.phase = .due ∨ r.phase = .overdue := by
  simp [returnsLate]

open BayWorkClosed in
theorem dockKnown_docked (a : Fin 288) (h : Fin 384) (r : Receiver) (s : State) :
    KnownDocked s (dockKnown a h r s) a h r := by
  obtain ⟨u, hu⟩ : ∃ u, u = setAssign a none (Machine.placeReceiver a h (returnedReceiver r) s) := ⟨_, rfl⟩
  obtain ⟨w, hw⟩ : ∃ w, w = countLate (returnsLate r) (countReturn r u) := ⟨_, rfl⟩
  have eq : Machine.dockKnown a h r s =
      if decide (r.phase = .stray) || decide (r.phase = .issued) || returnsLate r then
        raiseEvent .returned h.val none (a.val + if returnsLate r then 32768 else 0) w
      else w := by
    rw [hw, hu, dockKnown_eq]
  obtain ⟨bay, others, receiver, ku⟩ := placed_assigned a h (returnedReceiver r) none s
  rw [← hu] at bay others receiver ku
  have kv := countReturn_keeps r u
  have kl : KeepsAllBut [.fleetCounters] (countReturn r u) w := hw ▸ countLate_keeps _ _
  have k : KeepsAllBut [.bays, .receivers, .tours, .fleetCounters] s w :=
    ((ku.mono (by decide)).trans (kv.mono (by decide))).trans (kl.mono (by decide))
  have kr : KeepsAllBut eventParts w (Machine.dockKnown a h r s) := by
    rw [eq]
    split
    exacts [raiseEvent_keeps .refl (by decide) (by decide), .refl]
  have kuw : KeepsAllBut [.tours, .fleetCounters] u w := (kv.mono (by decide)).trans (kl.mono (by decide))
  have kut : KeepsAllBut [.tours, .fleetCounters, .events, .egress] u (Machine.dockKnown a h r s) :=
    (kuw.mono (by decide)).trans (kr.mono (by decide))
  obtain ⟨f1, f2, f3⟩ := kr .fleetCounters (by decide)
  obtain ⟨g1, g2, g3⟩ := ((ku.mono (by decide)).trans (kv.mono (by decide)) : KeepsAllBut [.bays, .receivers, .tours] s
    (countReturn r u)) .fleetCounters (by decide)
  have flt : w.flt = _ := (congrArg State.flt hw).trans (countLate_flt _ _)
  refine ⟨?_, fun a' ha => ?_, fun m => ?_, fun k' => ?_, ?_, ⟨?_, ?_⟩, ?_, (k.mono (by decide)).trans (kr.mono (by decide))⟩
  · rw [kut.bay_eq (by decide)]
    exact bay
  · rw [kut.bay_eq (by decide), others a' ha]
  · rw [kut.receiver_eq (by decide), receiver]
  · rw [kr.tour_eq (by decide), kl.tour_eq (by decide), countReturn_tour, ku.tour_eq (by decide)]
  · rw [f3, flt]
    simp only [returnsLate_iff, g3]
  · rw [f1, flt, g1]
  · rw [f2, flt, g2]
  · have raise : (decide (r.phase = .stray) || decide (r.phase = .issued) || returnsLate r) = true ↔
        (r.phase = .due ∨ r.phase = .overdue) ∨ r.phase = .stray ∨ r.phase = .issued := by
      rw [Bool.or_eq_true, Bool.or_eq_true, returnsLate_iff, decide_eq_true_eq, decide_eq_true_eq]
      tauto
    rw [eq, returnEvents]
    by_cases hc : (r.phase = .due ∨ r.phase = .overdue) ∨ r.phase = .stray ∨ r.phase = .issued
    · rw [if_pos (raise.2 hc), if_pos hc]
      simp only [returnsLate_iff]
      exact .raise_of_evq (k.evq_eq (by decide)) (k .hubTime (by decide))
    · rw [if_neg (mt raise.1 hc), if_neg hc]
      exact EventsTaken.nil.to_evq (k.evq_eq (by decide))

/-- The return of a known receiver, as `KnownReceiverReturns` states it. -/
theorem dockNotice_returns {frame : List Byte} {station : Station} {payload : List Byte} {rack : Fin 12} {b : Fin 24}
    {h : Fin 384} {r : Receiver} (arrives : Arrives s frame .dockNotice station payload) (len : payload.length = 4)
    (ofRack : FrameOfRack s station rack) (hb : byteAt payload 0 = b.val) (htag : tripleAt payload 1 = r.tag.toNat)
    (hne : r.tag ≠ 0#24) (empty : (s.bay (bayAddress rack b)).presence = .empty) (hr : s.receiver h = some r)
    (away : r.bay = none) (unique : ∀ h' r', s.receiver h' = some r' → r'.tag = r.tag → h' = h) :
    ∃ t w, exec (.dockNotice frame) s = .next (rackSender w) ∧
      KnownDocked (countReceived s) t (bayAddress rack b) h r ∧ NoticeTaken (countReceived s) t w (bayAddress rack b) := by
  have run := exec_dockNotice arrives len ofRack hb
  rw [htag, shownByNotice_toNat hne, comparePresence_of_empty (s := countReceived s) empty] at run
  have answer : fleetDock (bayAddress rack b) r.tag (countReceived s) = dockKnown (bayAddress rack b) h r (countReceived s) :=
    fleetDock_known (undockFormer_of_empty r.tag empty)
      (findTag_eq_some (s := countReceived s) hr rfl unique) hr away
  have taken := noticeTaken (bayAddress rack b) r.tag (countReceived s)
  rw [answer] at taken
  exact ⟨_, _, run, dockKnown_docked _ _ _ _, taken⟩

/-! ### A receiver that moves (R96, R124) -/

/-- What a move leaves (R96). -/
structure Moved (s t : State) (left a : Fin 288) (h : Fin 384) (r : Receiver) : Prop where
  bay : ∃ v, t.bay a = v ∧ v.presence = .known h ∧
    v.assign = if r.phase = .reserved then r.tour.map fun ref => ⟨ref.channel, true⟩ else none
  emptied : ∃ p v, t.bay left = { s.bay left with
    presence := .empty, level := none, voltage := none, settle := .none, settleEnds := none, docked := false
    ready := false, full := false, fault := false, mode := .off, assign := none, pending := p, served := v }
  others : ∀ a', a' ≠ a → a' ≠ left → SameHolding (s.bay a') (t.bay a')
  receiver : t.receiver h = some { r with bay := some a, level := none }
  noTurn : NoTurn t left
  still : NoTurn s left → (∀ m, m ≠ h → t.receiver m = s.receiver m) ∧ t.chs = s.chs
  events : EventsTaken (fallEvents s.mge.hubTime left (s.bay left) (dockedDetail (s.bay left).presence)) s t
  keeps : KeepsAllBut [.bays, .receivers, .sched, .events, .egress] s t

theorem clearBay_bay (a : Fin 288) (s : State) : ∃ p, (clearBay a s).bay a =
    { s.bay a with presence := .empty, assign := none, pending := p } := by
  obtain ⟨p, hp⟩ := setAssign_bay a none (s.putBay a { s.bay a with presence := .empty }) a
  exact ⟨p, hp.trans (by rw [if_pos rfl, State.putBay_bay_self])⟩

theorem clearBay_bay_ne {a a' : Fin 288} (h : a' ≠ a) (s : State) : (clearBay a s).bay a' = s.bay a' := by
  rw [clearBay, setAssign_bay_ne h, State.putBay_bay, if_neg h]

theorem clearBay_keepsParts (a : Fin 288) (s : State) : KeepsAllBut [.bays] s (clearBay a s) :=
  clearBay_keeps .refl (by decide)

/-- The assignment that a receiver takes with it. -/
def carriedAssign (r : Receiver) : Option Assignment :=
  if r.phase = .reserved then r.tour.map fun ref => ⟨ref.channel, true⟩ else none

theorem moveReceiver_eq {left a : Fin 288} {h : Fin 384} {r : Receiver}
    (ht : bayEmptied (s.bay left) left (clearBay left s) = t) (hr : t.receiver h = some r) :
    moveReceiver left a h s = setAssign a (carriedAssign r) (placeReceiver a h r t) := by
  unfold moveReceiver
  dsimp only
  rw [ht, hr]
  dsimp only
  split
  next ref hp hv => rw [carriedAssign, if_pos hp, hv, Option.map_some]
  next hn =>
    have none : carriedAssign r = none := by
      unfold carriedAssign
      split
      next hp =>
        cases hv : r.tour with
        | none => rfl
        | some ref => exact absurd hv (hn ref hp)
      next => rfl
    rw [none]

theorem moveReceiver_moved {left a : Fin 288} {h : Fin 384} {r : Receiver} (hne : a ≠ left)
    (hr : s.receiver h = some r) (only : ∀ a', (s.bay a').presence = .known h → a' = left) :
    Moved s (moveReceiver left a h s) left a h r := by
  obtain ⟨t, ht⟩ : ∃ t, bayEmptied (s.bay left) left (clearBay left s) = t := ⟨_, rfl⟩
  have emptied := bayEmptied_left (s.bay left) left (clearBay left s)
  rw [ht] at emptied
  have cleared := clearBay_keepsParts left s
  have away (a' : Fin 288) (ha : a' ≠ left) : (clearBay left s).bay a' = s.bay a' := clearBay_bay_ne ha s
  have record : t.receiver h = some r := by
    rw [emptied.receiver h fun a' ha hp => ha (only a' (by rwa [away a' ha] at hp)), cleared.receiver_eq (by decide), hr]
  obtain ⟨bay, others, receiver, k⟩ := placed_assigned a h r (carriedAssign r) t
  rw [moveReceiver_eq ht record]
  have kept : KeepsAllBut [.bays, .receivers, .sched, .events, .egress] s t :=
    (cleared.mono (by decide)).trans (emptied.keeps.mono (by decide))
  refine ⟨?_, ?_, fun a' h1 h2 => ?_, ?_, ?_, fun hn => ⟨fun m hm => ?_, ?_⟩, ?_, kept.trans (k.mono (by decide))⟩
  · obtain ⟨p, hp⟩ := bay
    exact ⟨_, hp, rfl, rfl⟩
  · obtain ⟨p, v, hb⟩ := emptied.bay
    obtain ⟨p', hc⟩ := clearBay_bay left s
    exact ⟨p, v, by rw [others left hne.symm, hb, hc]⟩
  · have := emptied.others a' h2
    rwa [away a' h2, ← others a' h1] at this
  · rw [receiver, if_pos rfl]
  · intro x hx
    rw [k.sched_eq (by decide)] at hx
    exact emptied.noTurn x hx
  · have still := emptied.still fun x hx => hn x (by rwa [cleared.sched_eq (by decide)] at hx)
    rw [receiver, if_neg hm, still.receiver_eq (by decide), cleared.receiver_eq (by decide)]
  · have still := emptied.still fun x hx => hn x (by rwa [cleared.sched_eq (by decide)] at hx)
    rw [k.chs_eq (by decide), still.chs_eq (by decide), cleared.chs_eq (by decide)]
  · have time : (clearBay left s).mge.hubTime = s.mge.hubTime := cleared .hubTime (by decide)
    have events := emptied.events
    rw [time] at events
    exact (events.of_evq (cleared.evq_eq (by decide)).symm).to_evq (k.evq_eq (by decide))

/-- Settles O23: the Fleet Table finds the record of the tag, which comes back to its run or moves. -/
theorem knownReceiverReturns : Obligations.KnownReceiverReturns := by
  unfold Obligations.KnownReceiverReturns
  refine ⟨?_, ?_⟩
  · intro s frame station payload rack b h r arrives len ofRack hb htag hne a empty hr away unique late
    obtain ⟨t, w, run, known, taken⟩ := dockNotice_returns arrives len ofRack hb htag hne empty hr away unique
    have counted := countReceived_keepsParts s
    have presence : (t.bay a).presence = .known h := known.bay.elim fun p hp => by rw [hp]
    have clock : t.clock = s.clock := (known.keeps .clock (by decide)).trans (counted .clock (by decide))
    have time : t.mge.hubTime = s.mge.hubTime := (known.keeps .hubTime (by decide)).trans (counted .hubTime (by decide))
    have receiver (m : Fin 384) := (taken.keeps.receiver_eq (by decide) m).trans (known.receiver m)
    obtain ⟨h1, h2, h3, h4, h5, h6, h7, h8, h9, -, h11⟩ := taken.shown known.bay (congrArg Clock.now clock)
    obtain ⟨k1, k2, k3⟩ := taken.keeps .fleetCounters (by decide)
    have events := (taken.events known.events (known.keeps .enables (by decide))).of_evq (u := s)
      (counted.evq_eq (by decide)).symm
    rw [presence, time] at events
    refine ⟨_, run, (receiver h).trans (if_pos rfl), fun m hm => (receiver m).trans (if_neg hm),
      ⟨h1, h2, h3, h4, h5, h6, h7, h8, h9, h11⟩, fun a' ha' => ?_,
      fun k => (taken.keeps.tour_eq (by decide) k).trans (known.tour k), k3.trans known.lateReturns,
      k1.trans known.counters.1, k2.trans known.counters.2, events, ((counted.mono (by decide)).trans
      (known.keeps.mono (by decide))).trans (taken.keeps.mono (by decide))⟩
    obtain ⟨p, hp⟩ := taken.bay_away ha'
    rw [hp, known.others a' ha']
    rfl
  · intro s frame station payload rack b h r left paired arrives len ofRack hb htag hne a old empty hr held
    obtain ⟨tags, named, names, -⟩ := paired
    have leftKnown : (s.bay left).presence = .known h := named h r left hr held
    have hal : a ≠ left := fun e => by simp [e, leftKnown] at empty
    have only (a' : Fin 288) (hp : (s.bay a').presence = .known h) : a' = left := by
      obtain ⟨r', hr', hb'⟩ := names a' h hp
      rw [hr] at hr'
      obtain rfl : r = r' := Option.some_inj.1 hr'
      exact Option.some_inj.1 (hb'.symm.trans held)
    have run := exec_dockNotice arrives len ofRack hb
    rw [htag, shownByNotice_toNat hne, comparePresence_of_empty (s := countReceived s) empty] at run
    have found : findTag r.tag (countReceived s) = some h :=
      findTag_eq_some (s := countReceived s) hr rfl fun h' r' hr' ht => tags h' h r' r hr' hr ht
    have answer : fleetDock a r.tag (countReceived s) = moveReceiver left a h (countReceived s) :=
      fleetDock_moves (undockFormer_of_empty r.tag empty) found hr held hal.symm
    have taken := noticeTaken a r.tag (countReceived s)
    rw [answer] at taken
    have counted := countReceived_keepsParts s
    have moved := moveReceiver_moved (s := countReceived s) hal hr only
    obtain ⟨t, ht⟩ : ∃ t, t = moveReceiver left a h (countReceived s) := ⟨_, rfl⟩
    obtain ⟨w, hw⟩ : ∃ w, w = dockBay a r.tag (countReceived s) := ⟨_, rfl⟩
    rw [← ht] at moved
    rw [← ht, ← hw] at taken
    rw [← hw] at run
    obtain ⟨v, hv, presence, assign⟩ := moved.bay
    have clock : t.clock = s.clock := (moved.keeps .clock (by decide)).trans (counted .clock (by decide))
    have time : t.mge.hubTime = s.mge.hubTime := (moved.keeps .hubTime (by decide)).trans (counted .hubTime (by decide))
    have docked : ∃ p, t.bay a = { v with presence := .known h, assign := v.assign, pending := p } :=
      ⟨v.pending, by rw [hv, ← presence]⟩
    obtain ⟨h1, h2, h3, h4, h5, h6, h7, h8, h9, -, h11⟩ := taken.shown docked (congrArg Clock.now clock)
    have events := (taken.events moved.events (moved.keeps .enables (by decide))).of_evq (u := s)
      (counted.evq_eq (by decide)).symm
    rw [hv, presence, time] at events
    have was : dockedDetail ((countReceived s).bay left).presence = h.val := congrArg dockedDetail leftKnown
    rw [was] at events
    refine ⟨_, run, (taken.keeps.receiver_eq (by decide) h).trans moved.receiver,
      ⟨h1, h2, h3, h4, h5, h6, h7, h8, h9, h11.trans assign⟩, ?_, fun x hx => ?_, fun a' h1 h2 => ?_, fun hn => ?_,
      events, ((counted.mono (by decide)).trans (moved.keeps.mono (by decide))).trans (taken.keeps.mono (by decide))⟩
    · obtain ⟨p, v, hl⟩ := moved.emptied
      obtain ⟨p', hp⟩ := taken.bay_away hal.symm
      rw [hp, hl]
      exact ⟨rfl, rfl, rfl, rfl, rfl, rfl, rfl, rfl, rfl, rfl, rfl⟩
    · rw [taken.keeps.sched_eq (by decide)] at hx
      exact moved.noTurn x hx
    · obtain ⟨p, hp⟩ := taken.bay_away h1
      have same := moved.others a' h1 h2
      rw [hp]
      exact ⟨same.presence, same.level, same.assign⟩
    · obtain ⟨receivers, chs⟩ := moved.still hn
      exact ⟨fun m hm => (taken.keeps.receiver_eq (by decide) m).trans (receivers m hm),
        (taken.keeps.chs_eq (by decide)).trans chs⟩

end Sys2Proof.Machine
end

section
/-! DOCK NOTICEs of a bay whose receiver is gone or replaced (R94, R97 to R99, R124). -/

namespace Sys2Proof.Machine

open Sys2Proof

variable {s t u : State}

/-! ### Receivers under the charge scheduler -/

/-- Every receiver record is kept but for its turn count. -/
def TurnsCounted (s t : State) : Prop :=
  ∀ m, ∃ n, t.receiver m = (s.receiver m).map fun r => { r with turnCount := n }

theorem TurnsCounted.of_same (h : ∀ m, t.receiver m = s.receiver m) : TurnsCounted s t := by
  intro m
  rw [h m]
  cases hr : s.receiver m with
  | none => exact ⟨0, rfl⟩
  | some r => exact ⟨r.turnCount, rfl⟩

theorem turnsCounted_charge : ChargeClosed TurnsCounted where
  refl s := .of_same fun _ => rfl
  trans h k m := by
    obtain ⟨n, hn⟩ := h m
    obtain ⟨n', hn'⟩ := k m
    refine ⟨n', ?_⟩
    rw [hn', hn, Option.map_map]
    rfl
  flags s a _ _ _ := .of_same fun _ => rfl
  turnSettle s a := .of_same ((startTurnSettle_keeps (ps := [.bays]) .refl (by decide)).receiver_eq (by decide))
  sched s r q _ := .of_same fun _ => rfl
  countTurn s a := by
    unfold countTurn
    split
    next h _ =>
      split
      next r hr =>
        intro m
        rw [State.putReceiver_receiver]
        split
        next hm => exact ⟨satInc16 r.turnCount, by rw [hm, hr]; rfl⟩
        next => exact TurnsCounted.of_same (s := s) (fun _ => rfl) m
      · exact .of_same fun _ => rfl
    all_goals exact .of_same fun _ => rfl

/-! ### The Fleet Table's part of an undock (R98, R99, R70) -/

/-- A receiver that leaves its bay at an undock. -/
def undockedReceiver (time : Nat) (r : Receiver) : Receiver :=
  if r.phase = .reserved then
    { r with phase := .issued, bay := none, short := false, required := none, issueTime := some time }
  else { r with phase := .stray, bay := none, issueTime := some time }

/-- The event of a receiver that leaves its bay. -/
def takeEvent (time : Nat) (a : Fin 288) (h : Fin 384) (r : Receiver) : EventRecord :=
  if r.phase = .reserved then ⟨if r.short then .issuedShort else .issued, time, h.val, none,
    (r.tour.map fun ref => ref.slot.val * 256 + ref.entry.val).getD 0⟩
  else ⟨.unplannedTake, time, h.val, none, a.val⟩

/-- What the Fleet Table's part of an undock leaves. -/
structure FleetUndocked (s t : State) (a : Fin 288) (h : Fin 384) (r : Receiver) : Prop where
  bay : ∃ p, t.bay a = { s.bay a with presence := .empty, assign := none, pending := p }
  bays : ∀ a', a' ≠ a → t.bay a' = s.bay a'
  receiver : t.receiver h = some (undockedReceiver s.mge.hubTime r)
  others : ∀ m, m ≠ h → t.receiver m = s.receiver m
  tour : ∀ k, t.tour k = if r.phase = .reserved ∧ r.tour.map TourRef.slot = some k then
    { s.tour k with live := { (s.tour k).live with
        reserved := (s.tour k).live.reserved - 1, issued := (s.tour k).live.issued + 1 } } else s.tour k
  unplanned : t.flt.unplannedTakes = if r.phase = .reserved then s.flt.unplannedTakes
    else min (s.flt.unplannedTakes + 1) 4294967295
  counters : t.flt.unknownDocks = s.flt.unknownDocks
  events : EventsTaken [takeEvent s.mge.hubTime a h r] s t
  keeps : KeepsAllBut [.bays, .receivers, .tours, .fleetCounters, .events, .egress] s t

theorem fleetUndock_reserved {a : Fin 288} {h : Fin 384} {r : Receiver} {ref : TourRef} (hr : s.receiver h = some r)
    (hp : r.phase = .reserved) (ht : r.tour = some ref) : FleetUndocked s (fleetUndock a h s) a h r := by
  have cleared := clearBay_keepsParts a s
  obtain ⟨u, hu⟩ : ∃ u, u = (clearBay a s).putReceiver h (some { r with
    phase := .issued, bay := none, short := false, required := none, issueTime := some (clearBay a s).mge.hubTime }) :=
    ⟨_, rfl⟩
  obtain ⟨v, hv⟩ : ∃ v, v = noteIssued ref.slot u := ⟨_, rfl⟩
  have record : (clearBay a s).receiver h = some r := (cleared.receiver_eq (by decide) h).trans hr
  have time : (clearBay a s).mge.hubTime = s.mge.hubTime := cleared .hubTime (by decide)
  have eq : fleetUndock a h s = raiseEvent (if r.short then .issuedShort else .issued) h.val none
      (detailPair ref.slot.val ref.entry.val) v := by
    unfold fleetUndock
    dsimp only
    rw [record]
    dsimp only
    rw [hv, hu]
    simp only [hp, ht]
  have ku : KeepsAllBut [.receivers] (clearBay a s) u := hu ▸ putReceiver_keeps .refl (by decide)
  have kv : KeepsAllBut [.tours] u v := hv ▸ noteIssued_keeps .refl (by decide)
  have kr : KeepsAllBut eventParts v (fleetUndock a h s) := eq ▸ raiseEvent_keeps .refl (by decide) (by decide)
  have ks : KeepsAllBut [.bays, .receivers, .tours] s v :=
    ((cleared.mono (by decide)).trans (ku.mono (by decide))).trans (kv.mono (by decide))
  have kc : KeepsAllBut [.receivers, .tours, .events, .egress] (clearBay a s) (fleetUndock a h s) :=
    ((ku.mono (by decide)).trans (kv.mono (by decide))).trans (kr.mono (by decide))
  have receivers (m : Fin 384) : (fleetUndock a h s).receiver m = u.receiver m := by
    rw [kr.receiver_eq (by decide), kv.receiver_eq (by decide)]
  obtain ⟨c1, c2, -⟩ := (ks.mono (by decide) : KeepsAllBut [.bays, .receivers, .tours, .events, .egress] s v).trans
    (kr.mono (by decide)) .fleetCounters (by decide)
  refine ⟨?_, fun a' ha => ?_, ?_, fun m hm => ?_, fun k => ?_, ?_, c1, ?_, (ks.mono (by decide)).trans (kr.mono (by decide))⟩
  · rw [kc.bay_eq (by decide)]
    exact clearBay_bay a s
  · rw [kc.bay_eq (by decide), clearBay_bay_ne ha]
  · rw [receivers, hu, State.putReceiver_receiver_self, undockedReceiver, if_pos hp, time]
  · rw [receivers, hu, State.putReceiver_receiver, if_neg hm, cleared.receiver_eq (by decide)]
  · have tours (k : Fin 16) : u.tour k = s.tour k := by rw [ku.tour_eq (by decide), cleared.tour_eq (by decide)]
    rw [kr.tour_eq (by decide), hv]
    refine (State.putTour_tour _ _ _ _).trans ?_
    rw [tours, tours, ht]
    by_cases hk : k = ref.slot
    · rw [if_pos hk, if_pos ⟨hp, by rw [hk]; rfl⟩, hk]
    · rw [if_neg hk, if_neg fun hh => hk (Option.some_inj.1 hh.2).symm]
  · rw [if_pos hp, c2]
  · rw [eq, takeEvent, if_pos hp, ht]
    exact .raise_of_evq (ks.evq_eq (by decide)) (ks .hubTime (by decide))

theorem fleetUndock_docked {a : Fin 288} {h : Fin 384} {r : Receiver} (hr : s.receiver h = some r)
    (hp : r.phase = .docked) : FleetUndocked s (fleetUndock a h s) a h r := by
  have cleared := clearBay_keepsParts a s
  have unreserved : ¬ r.phase = .reserved := by simp [hp]
  obtain ⟨u, hu⟩ : ∃ u, u = (clearBay a s).putReceiver h (some { r with
    phase := .stray, bay := none, issueTime := some (clearBay a s).mge.hubTime }) := ⟨_, rfl⟩
  obtain ⟨v, hv⟩ : ∃ v, v = u.withFlt { u.flt with unplannedTakes := satAdd u.flt.unplannedTakes 1 } := ⟨_, rfl⟩
  have record : (clearBay a s).receiver h = some r := (cleared.receiver_eq (by decide) h).trans hr
  have time : (clearBay a s).mge.hubTime = s.mge.hubTime := cleared .hubTime (by decide)
  have eq : fleetUndock a h s = raiseEvent .unplannedTake h.val none a.val v := by
    unfold fleetUndock
    dsimp only
    rw [record]
    dsimp only
    rw [hv, hu]
    simp only [hp]
  have ku : KeepsAllBut [.receivers] (clearBay a s) u := hu ▸ putReceiver_keeps .refl (by decide)
  have kv : KeepsAllBut [.fleetCounters] u v := hv ▸ withFlt_keeps .refl (by rfl) (by decide)
  have kr : KeepsAllBut eventParts v (fleetUndock a h s) := eq ▸ raiseEvent_keeps .refl (by decide) (by decide)
  have ksu : KeepsAllBut [.bays, .receivers] s u := (cleared.mono (by decide)).trans (ku.mono (by decide))
  have ks : KeepsAllBut [.bays, .receivers, .fleetCounters] s v := (ksu.mono (by decide)).trans (kv.mono (by decide))
  have kc : KeepsAllBut [.receivers, .fleetCounters, .events, .egress] (clearBay a s) (fleetUndock a h s) :=
    ((ku.mono (by decide)).trans (kv.mono (by decide))).trans (kr.mono (by decide))
  have receivers (m : Fin 384) : (fleetUndock a h s).receiver m = u.receiver m := by
    rw [kr.receiver_eq (by decide), kv.receiver_eq (by decide)]
  obtain ⟨c1, c2, -⟩ := kr .fleetCounters (by decide)
  obtain ⟨d1, d2, -⟩ := ksu .fleetCounters (by decide)
  refine ⟨?_, fun a' ha => ?_, ?_, fun m hm => ?_, fun k => ?_, ?_, ?_, ?_, (ks.mono (by decide)).trans (kr.mono (by decide))⟩
  · rw [kc.bay_eq (by decide)]
    exact clearBay_bay a s
  · rw [kc.bay_eq (by decide), clearBay_bay_ne ha]
  · rw [receivers, hu, State.putReceiver_receiver_self, undockedReceiver, if_neg unreserved, time]
  · rw [receivers, hu, State.putReceiver_receiver, if_neg hm, cleared.receiver_eq (by decide)]
  · rw [if_neg fun hh => unreserved hh.1, kr.tour_eq (by decide), ks.tour_eq (by decide)]
  · rw [if_neg unreserved, c2, hv]
    exact congrArg (fun n => min (n + 1) 4294967295) d2
  · rw [c1, hv]
    exact d1
  · rw [eq, takeEvent, if_neg unreserved]
    exact .raise_of_evq (ks.evq_eq (by decide)) (ks .hubTime (by decide))

/-! ### An undock as a whole (R124) -/

/-- What the undock of a KNOWN bay leaves. -/
structure Undocked (s t : State) (a : Fin 288) (h : Fin 384) (r : Receiver) : Prop where
  bay : ∃ p v, t.bay a = { s.bay a with
    presence := .empty, level := none, voltage := none, settle := .none, settleEnds := none, docked := false
    ready := false, full := false, fault := false, mode := .off, assign := none, pending := p, served := v }
  receiver : ∃ n, t.receiver h = some { undockedReceiver s.mge.hubTime r with turnCount := n }
  tags : ∀ m, (t.receiver m).map Receiver.tag = (s.receiver m).map Receiver.tag
  tour : ∀ k, t.tour k = if r.phase = .reserved ∧ r.tour.map TourRef.slot = some k then
    { s.tour k with live := { (s.tour k).live with
        reserved := (s.tour k).live.reserved - 1, issued := (s.tour k).live.issued + 1 } } else s.tour k
  unplanned : t.flt.unplannedTakes = if r.phase = .reserved then s.flt.unplannedTakes
    else min (s.flt.unplannedTakes + 1) 4294967295
  counters : t.flt.unknownDocks = s.flt.unknownDocks
  noTurn : NoTurn t a
  events : EventsTaken (takeEvent s.mge.hubTime a h r :: fallEvents s.mge.hubTime a (s.bay a) h.val) s t
  keeps : KeepsAllBut [.bays, .receivers, .tours, .fleetCounters, .sched, .events, .egress] s t

theorem undockedReceiver_kept (time : Nat) (r : Receiver) : (undockedReceiver time r).bay = none ∧
    (undockedReceiver time r).issueTime = some time ∧ (undockedReceiver time r).tag = r.tag ∧
    (undockedReceiver time r).level = r.level ∧ (undockedReceiver time r).fault = r.fault ∧
    (undockedReceiver time r).tour = r.tour ∧ (undockedReceiver time r).deadline = r.deadline := by
  unfold undockedReceiver
  split <;> exact ⟨rfl, rfl, rfl, rfl, rfl, rfl, rfl⟩

theorem undockedReceiver_tag (time : Nat) (r : Receiver) : (undockedReceiver time r).tag = r.tag :=
  (undockedReceiver_kept time r).2.2.1

theorem bayEmptied_turnsCounted (old : Bay) (a : Fin 288) (s : State) : TurnsCounted s (bayEmptied old a s) := by
  have raised (c : Bool) (k : EventKind) (d : Nat) {u v : State} (hv : TurnsCounted u v) :
      TurnsCounted u (raiseBay c k a d v) :=
    turnsCounted_charge.trans hv (.of_same fun m =>
      (raiseBay_keeps (ps := eventParts) .refl (by decide) (by decide)).receiver_eq (by decide) m)
  have written (x : Bay) : TurnsCounted s (s.putBay a x) := .of_same fun _ => rfl
  unfold bayEmptied
  dsimp only
  refine turnsCounted_charge.trans (t := raiseBay _ _ a _ _) ?_ (turnsCounted_charge.endOrJudge a _)
  exact raised _ _ _ (raised _ _ _ (raised _ _ _ (raised _ _ _ (written _))))

theorem undockBay_undocked {a : Fin 288} {h : Fin 384} {r : Receiver} (hp : (s.bay a).presence = .known h)
    (hr : s.receiver h = some r) (phase : r.phase = .docked ∨ (r.phase = .reserved ∧ r.tour.isSome = true)) :
    Undocked s (undockBay a s) a h r := by
  obtain ⟨t, ht⟩ : ∃ t, t = fleetUndock a h s := ⟨_, rfl⟩
  have taken : FleetUndocked s t a h r := by
    rw [ht]
    rcases phase with hd | ⟨hres, htour⟩
    · exact fleetUndock_docked hr hd
    · obtain ⟨ref, href⟩ := Option.isSome_iff_exists.1 htour
      exact fleetUndock_reserved hr hres href
  have eq : undockBay a s = bayEmptied (s.bay a) a t := by
    unfold undockBay
    dsimp only
    rw [hp, ht]
  have left := bayEmptied_left (s.bay a) a t
  have counted : TurnsCounted t (bayEmptied (s.bay a) a t) := bayEmptied_turnsCounted _ a t
  have time : t.mge.hubTime = s.mge.hubTime := taken.keeps .hubTime (by decide)
  obtain ⟨f1, f2, -⟩ := left.keeps .fleetCounters (by decide)
  rw [eq]
  refine ⟨?_, ?_, fun m => ?_, fun k => ?_, f2.trans taken.unplanned, f1.trans taken.counters, left.noTurn, ?_,
    (taken.keeps.mono (by decide)).trans (left.keeps.mono (by decide))⟩
  · obtain ⟨p, v, hb⟩ := left.bay
    obtain ⟨p', hc⟩ := taken.bay
    exact ⟨p, v, by rw [hb, hc]⟩
  · obtain ⟨n, hn⟩ := counted h
    rw [taken.receiver] at hn
    exact ⟨n, hn⟩
  · obtain ⟨n, hn⟩ := counted m
    rw [hn, Option.map_map]
    by_cases hm : m = h
    · rw [hm, taken.receiver, hr]
      exact congrArg some (undockedReceiver_tag _ r)
    · rw [taken.others m hm]
      rfl
  · rw [left.keeps.tour_eq (by decide), taken.tour]
  · have events := left.events
    rw [time, hp] at events
    exact taken.events.append events (taken.keeps .enables (by decide))

/-! ### The notice (R94, R122) -/

theorem comparePresence_gone {a : Fin 288} {h : Fin 384} (hp : (s.bay a).presence = .known h) :
    comparePresence a none s = undockBay a s := by
  unfold comparePresence
  rw [hp]

theorem comparePresence_replaced {a : Fin 288} {h : Fin 384} {r : Receiver} {tag : RxTag}
    (hp : (s.bay a).presence = .known h) (hr : s.receiver h = some r) (ht : r.tag ≠ tag) :
    comparePresence a (some tag) s = dockBay a tag s := by
  unfold comparePresence
  rw [hp]
  dsimp only
  rw [hr]
  exact if_neg ht

theorem undockFormer_replaced {a : Fin 288} {h : Fin 384} {r : Receiver} {tag : RxTag}
    (hp : (s.bay a).presence = .known h) (hr : s.receiver h = some r) (ht : r.tag ≠ tag) :
    undockFormer a tag s = undockBay a s := by
  unfold undockFormer
  rw [hp]
  dsimp only
  rw [hr]
  exact if_neg ht

/-- What a notice leaves that finds the receiver of a KNOWN bay gone, or another one in its place. -/
structure Replaced (s t : State) (a : Fin 288) (h : Fin 384) (r : Receiver) (n : Nat) : Prop where
  receiver : ∃ c, t.receiver h = some { undockedReceiver s.mge.hubTime r with turnCount := c }
  tour : ∀ k, t.tour k = if r.phase = .reserved ∧ r.tour.map TourRef.slot = some k then
    { s.tour k with live := { (s.tour k).live with
        reserved := (s.tour k).live.reserved - 1, issued := (s.tour k).live.issued + 1 } } else s.tour k
  unplanned : t.flt.unplannedTakes = if r.phase = .reserved then s.flt.unplannedTakes
    else min (s.flt.unplannedTakes + 1) 4294967295
  unknown : t.flt.unknownDocks = if n = 0 then s.flt.unknownDocks else min (s.flt.unknownDocks + 1) 4294967295
  bare : (t.bay a).level = none ∧ (t.bay a).voltage = none ∧ (t.bay a).ready = false ∧ (t.bay a).full = false ∧
    (t.bay a).fault = false ∧ (t.bay a).assign = none
  gone : n = 0 → (t.bay a).presence = .empty ∧ (t.bay a).docked = false ∧ (t.bay a).settle = .none ∧
    (t.bay a).settleEnds = none ∧ (t.bay a).mode = .off
  foreign : n ≠ 0 → (t.bay a).presence = .foreign (BitVec.ofNat 24 n) ∧ (t.bay a).docked = true ∧
    (t.bay a).settle = .dock ∧ (t.bay a).settleEnds = some (s.clock.now + 1500)
  noTurn : NoTurn t a
  events : EventsTaken (takeEvent s.mge.hubTime a h r :: (fallEvents s.mge.hubTime a (s.bay a) h.val ++
    if n = 0 then [] else [⟨.unknownReceiver, s.mge.hubTime, a.val, none, n % 65536⟩,
      ⟨.dockedRise, s.mge.hubTime, a.val, none, 0xFFFF⟩])) s t
  keeps : KeepsAllBut [.bays, .receivers, .tours, .fleetCounters, .sched, .sender, .events, .egress] s t

section
variable {a : Fin 288} {h : Fin 384} {r : Receiver}

theorem replaced_gone (hp : (s.bay a).presence = .known h) (hr : s.receiver h = some r)
    (phase : r.phase = .docked ∨ (r.phase = .reserved ∧ r.tour.isSome = true)) :
    Replaced s (rackSender (undockBay a s)) a h r 0 := by
  have left := undockBay_undocked hp hr phase
  have sent := rackSender_keepsParts (undockBay a s)
  obtain ⟨f1, f2, -⟩ := sent .fleetCounters (by decide)
  obtain ⟨p, hs⟩ := rackSender_bay (undockBay a s) a
  obtain ⟨p', v, hb⟩ := left.bay
  rw [hb] at hs
  refine ⟨?_, fun k => ?_, f2.trans left.unplanned, ?_, ?_, fun _ => ?_, fun hn => absurd rfl hn, fun x hx => ?_, ?_,
    (left.keeps.mono (by decide)).trans (sent.mono (by decide))⟩
  · rw [sent.receiver_eq (by decide)]
    exact left.receiver
  · rw [sent.tour_eq (by decide), left.tour]
  · rw [if_pos rfl, f1, left.counters]
  · rw [hs]
    exact ⟨rfl, rfl, rfl, rfl, rfl, rfl⟩
  · rw [hs]
    exact ⟨rfl, rfl, rfl, rfl, rfl⟩
  · rw [sent.sched_eq (by decide)] at hx
    exact left.noTurn x hx
  · rw [if_pos rfl, List.append_nil]
    exact left.events.to_evq (sent.evq_eq (by decide))

theorem replaced_foreign {n : Nat} (hn : n ≠ 0) (hlt : n < 16777216) (hp : (s.bay a).presence = .known h)
    (hr : s.receiver h = some r) (phase : r.phase = .docked ∨ (r.phase = .reserved ∧ r.tour.isSome = true))
    (unknown : ∀ h' r', s.receiver h' = some r' → r'.tag.toNat ≠ n)
    (full : s.mge.settings.autoEnrol = false ∨ ∀ h', (s.receiver h').isSome = true) :
    comparePresence a (some (BitVec.ofNat 24 n)) s = dockBay a (BitVec.ofNat 24 n) s ∧
    Replaced s (rackSender (dockBay a (BitVec.ofNat 24 n) s)) a h r n := by
  have toNat : (BitVec.ofNat 24 n).toNat = n := by
    rw [BitVec.toNat_ofNat]
    omega
  have other : r.tag ≠ BitVec.ofNat 24 n := fun e => unknown h r hr (by rw [e, toNat])
  refine ⟨comparePresence_replaced hp hr other, ?_⟩
  obtain ⟨u, hu⟩ : ∃ u, u = undockBay a s := ⟨_, rfl⟩
  have left := undockBay_undocked hp hr phase
  rw [← hu] at left
  have tags (m : Fin 384) := left.tags m
  have notFound : findTag (BitVec.ofNat 24 n) u = none := findTag_eq_none fun m x hx hxt => by
    have tag := tags m
    rw [hx] at tag
    obtain ⟨x', hx', hxt'⟩ := Option.map_eq_some_iff.1 tag.symm
    exact unknown m x' hx' (by rw [hxt', hxt, toNat])
  have present (hall : ∀ h', (s.receiver h').isSome = true) (m : Fin 384) : (u.receiver m).isSome = true := by
    have := congrArg Option.isSome (tags m)
    rw [Option.isSome_map, Option.isSome_map] at this
    rw [this]
    exact hall m
  have settings : u.mge.settings = s.mge.settings := left.keeps .settings (by decide)
  have answer : fleetDock a (BitVec.ofNat 24 n) s = dockUnknown a (BitVec.ofNat 24 n) u :=
    fleetDock_unknown (hu ▸ undockFormer_replaced hp hr other) notFound
      (full.imp (fun h => by rw [settings]; exact h) fun h => freeHandle_eq_none (present h))
  have taken := noticeTaken a (BitVec.ofNat 24 n) s
  have unk := dockUnknown_docked a (BitVec.ofNat 24 n) u
  obtain ⟨t, ht⟩ : ∃ t, t = dockUnknown a (BitVec.ofNat 24 n) u := ⟨_, rfl⟩
  obtain ⟨w, hw⟩ : ∃ w, w = dockBay a (BitVec.ofNat 24 n) s := ⟨_, rfl⟩
  rw [answer, ← ht, ← hw] at taken
  rw [← ht] at unk
  rw [← hw]
  have presence : (t.bay a).presence = .foreign (BitVec.ofNat 24 n) := unk.bay.elim fun p hp => by rw [hp]
  have clock : t.clock = s.clock := (unk.keeps .clock (by decide)).trans (left.keeps .clock (by decide))
  have timeU : u.mge.hubTime = s.mge.hubTime := left.keeps .hubTime (by decide)
  have time : t.mge.hubTime = s.mge.hubTime := (unk.keeps .hubTime (by decide)).trans timeU
  obtain ⟨h1, h2, h3, h4, h5, h6, h7, h8, h9, -, h11⟩ := taken.shown unk.bay (congrArg Clock.now clock)
  have rest : KeepsAllBut [.bays, .fleetCounters, .sender, .events, .egress] u (rackSender w) :=
    (unk.keeps.mono (by decide)).trans (taken.keeps.mono (by decide))
  obtain ⟨f1, f2, -⟩ := taken.keeps .fleetCounters (by decide)
  obtain ⟨c1, c2, -⟩ := unk.counters
  refine ⟨?_, fun k => ?_, f2.trans (c2.trans left.unplanned), ?_, ⟨h5, h6, h7, h8, h9, h11⟩, fun h0 => absurd h0 hn,
    fun _ => ⟨h1, h2, h3, h4⟩, fun x hx => ?_, ?_, (left.keeps.mono (by decide)).trans (rest.mono (by decide))⟩
  · rw [rest.receiver_eq (by decide)]
    exact left.receiver
  · rw [rest.tour_eq (by decide), left.tour]
  · rw [if_neg hn, f1, c1, left.counters]
  · rw [rest.sched_eq (by decide)] at hx
    exact left.noTurn x hx
  · have events := unk.events
    rw [timeU, toNat] at events
    have raised := taken.events (left.events.append events (left.keeps .enables (by decide)))
      ((unk.keeps .enables (by decide)).trans (left.keeps .enables (by decide)))
    rw [presence, time] at raised
    rw [if_neg hn]
    simpa [dockedDetail] using raised

end

/-- Settles O24: the undock, and after it the dock of an unknown tag where the notice shows one. -/
theorem undockIssuesOrStrays : Obligations.UndockIssuesOrStrays := by
  unfold Obligations.UndockIssuesOrStrays
  intro s frame station payload rack b h r arrives len ofRack hb a old n hp hr phase shown
  have run := exec_dockNotice arrives len ofRack hb
  have counted := countReceived_keepsParts s
  have replaced : ∃ t, exec (.dockNotice frame) s = .next t ∧ Replaced (countReceived s) t a h r n := by
    rcases Nat.eq_zero_or_pos n with h0 | hpos
    · rw [show tripleAt payload 1 = 0 from h0, shownByNotice, if_pos rfl,
        comparePresence_gone (s := countReceived s) hp] at run
      exact ⟨_, run, h0 ▸ replaced_gone (s := countReceived s) hp hr phase⟩
    · obtain ⟨unknown, full⟩ := shown.resolve_left (by omega)
      have hn : n ≠ 0 := by omega
      obtain ⟨dock, replaced⟩ := replaced_foreign (s := countReceived s) hn (tripleAt_lt payload 1) hp hr phase unknown full
      rw [shownByNotice, if_neg hn] at run
      exact ⟨_, run.trans (by rw [dock]), replaced⟩
  obtain ⟨t, run, replaced⟩ := replaced
  obtain ⟨c, hc⟩ := replaced.receiver
  obtain ⟨k1, k2, k3, k4, k5, k6, k7⟩ := undockedReceiver_kept s.mge.hubTime r
  refine ⟨t, _, run, hc, k1, k2, k3, k4, k5, k6, k7, fun hd => ?_, fun hres => ?_, replaced.tour,
    ?_, replaced.unknown, fun x hx => ?_, ?_, (counted.mono (by decide)).trans replaced.keeps⟩
  · have unreserved : ¬ r.phase = .reserved := by simp [hd]
    rw [undockedReceiver, if_neg unreserved]
    exact ⟨rfl, rfl, rfl, replaced.unplanned.trans (if_neg unreserved)⟩
  · rw [undockedReceiver, if_pos hres]
    exact ⟨rfl, rfl, rfl, replaced.unplanned.trans (if_pos hres)⟩
  · obtain ⟨b1, b2, b3, b4, b5, b6⟩ := replaced.bare
    exact ⟨b1, b2, b3, b4, b5, b6, replaced.gone, replaced.foreign⟩
  · have := replaced.noTurn x
    rw [rackOf_bayAddress, bayNumber_bayAddress] at this
    exact this hx
  · intro taken fall level
    have event : taken = takeEvent s.mge.hubTime a h r := by
      rcases phase with hd | ⟨hres, ht⟩
      · simp [taken, takeEvent, hd]
      · obtain ⟨ref, href⟩ := Option.isSome_iff_exists.1 ht
        simp [taken, takeEvent, hres, href]
    rw [event]
    exact replaced.events.of_evq (counted.evq_eq (by decide)).symm

end Sys2Proof.Machine
end

section
/-! ENROL, RETIRE and RESERVE MORE (R71, R90, R91, R93). -/

namespace Sys2Proof.Machine

open Sys2Proof

variable {s t u : State}

/-! ### ENROL (R90, R91) -/

theorem foreignBay_eq_none {tag : RxTag} (h : ∀ b, (s.bay b).presence ≠ .foreign tag) : foreignBay tag s = none := by
  rw [foreignBay, List.find?_eq_none]
  exact fun b _ => by simpa using h b

theorem foreignBay_eq_some {tag : RxTag} {b : Fin 288} (hb : (s.bay b).presence = .foreign tag)
    (below : ∀ b' < b, (s.bay b').presence ≠ .foreign tag) : foreignBay tag s = some b :=
  find?_eq_some_of_first (pairwise_finRange_lt 288) (List.mem_finRange b) (decide_eq_true hb)
    fun x _ hx hlt => below x hlt (of_decide_eq_true hx)

theorem enrol_found {a : List Byte} {h : Fin 384} (hn : tripleAt a 0 ≠ 0)
    (found : findTag (BitVec.ofNat 24 (tripleAt a 0)) s = some h) :
    enrol a s = { status := .exists, data := enc16 h.val, state := s } := by
  unfold enrol
  dsimp only
  rw [if_neg hn, found]

theorem enrol_full {a : List Byte} (hn : tripleAt a 0 ≠ 0)
    (unknown : findTag (BitVec.ofNat 24 (tripleAt a 0)) s = none) (full : freeHandle s = none) :
    enrol a s = refuse .tableFull s := by
  unfold enrol
  dsimp only
  rw [if_neg hn, unknown]
  dsimp only
  rw [full]

theorem enrol_enrols {a : List Byte} {h : Fin 384} (hn : tripleAt a 0 ≠ 0)
    (unknown : findTag (BitVec.ofNat 24 (tripleAt a 0)) s = none) (free : freeHandle s = some h) :
    enrol a s = { status := .done, data := enc16 h.val, state := enrolTag (BitVec.ofNat 24 (tripleAt a 0)) h s } := by
  unfold enrol
  dsimp only
  rw [if_neg hn, unknown]
  dsimp only
  rw [free]

theorem enrolTag_unseen {tag : RxTag} {h : Fin 384} (hb : foreignBay tag s = none) :
    enrolTag tag h s = s.putReceiver h (some (newReceiver tag)) := by
  rw [enrolTag, hb]

/-- The state in which a FOREIGN bay has become KNOWN and its mode is not judged. -/
def enrolPlaced (tag : RxTag) (h : Fin 384) (b : Fin 288) (s : State) : State :=
  (s.putReceiver h (some (enrolledIn tag b (s.bay b)))).putBay b { s.bay b with presence := .known h }

theorem enrolTag_placed {tag : RxTag} {h : Fin 384} {b : Fin 288} (hb : foreignBay tag s = some b) :
    enrolTag tag h s = judge b (enrolPlaced tag h b s) := by
  rw [enrolTag, hb]
  rfl

theorem enrolPlaced_bay (tag : RxTag) (h : Fin 384) (b b' : Fin 288) (s : State) : (enrolPlaced tag h b s).bay b' =
    if b' = b then { s.bay b with presence := .known h } else s.bay b' := State.putBay_bay _ _ _ _

theorem enrolPlaced_receiver (tag : RxTag) (h m : Fin 384) (b : Fin 288) (s : State) :
    (enrolPlaced tag h b s).receiver m = if m = h then some (enrolledIn tag b (s.bay b)) else s.receiver m :=
  State.putReceiver_receiver s h m _

/-- The mode of the bay that becomes KNOWN, where no turn runs there (R153). -/
theorem judgedMode_enrolPlaced {tag : RxTag} {h : Fin 384} {b : Fin 288} (hn : NoTurn s b) :
    (judgedMode (enrolPlaced tag h b s) b = .trickle ↔ (s.bay b).fault = false ∧ (s.bay b).full = false ∧
      ∃ e, bandEntry s (rackOf b) = some e ∧ e.trickle = true) ∧ judgedMode (enrolPlaced tag h b s) b ≠ .fast := by
  have none : turnOn (enrolPlaced tag h b s) (rackOf b) (bayNumber b) = .none := turnOn_eq_none.2 hn
  refine ⟨?_, judgedMode_ne_fast none⟩
  have barred : isBarred (enrolPlaced tag h b s) b = (s.bay b).fault := by
    unfold isBarred
    rw [enrolPlaced_bay, if_pos rfl]
    dsimp only
    rw [enrolPlaced_receiver, if_pos rfl]
    rfl
  have full : ((enrolPlaced tag h b s).bay b).full = (s.bay b).full := by rw [enrolPlaced_bay, if_pos rfl]
  have entry : bandEntry (enrolPlaced tag h b s) (rackOf b) = bandEntry s (rackOf b) := rfl
  unfold judgedMode
  rw [none, barred, full, entry, if_neg (by simp)]
  cases hf : (s.bay b).fault
  · cases hfull : (s.bay b).full
    · cases he : bandEntry s (rackOf b) with
      | none => simp
      | some e => cases htr : e.trickle <;> simp [htr]
    · simp
  · simp

/-- Settles O39: the checks in order; the new record is UNSEEN or placed in the first FOREIGN bay that shows the tag. -/
theorem enrolCreatesRecord : Obligations.EnrolCreatesRecord := by
  unfold Obligations.EnrolCreatesRecord
  intro s req serving a tag new
  refine ⟨fun h0 => ?_, fun hn => ⟨fun h r hr ht unique => ?_, fun unknown => ?_⟩⟩
  · have zero : enrol a s = refuse .badArgument s := if_pos h0
    exact exec_servingRacks (by rfl) serving zero
  · exact exec_servingRacks (by rfl) serving (enrol_found hn (findTag_eq_some hr ht unique))
  have notFound : findTag tag s = none := findTag_eq_none unknown
  refine ⟨fun full => ?_, fun h absent below => ?_⟩
  · exact exec_servingRacks (by rfl) serving
      (enrol_full hn notFound (freeHandle_eq_none fun h => Option.isSome_iff_ne_none.2 (full h)))
  have free : freeHandle s = some h :=
    freeHandle_eq_some absent fun h' hlt => Option.isSome_iff_ne_none.2 (below h' hlt)
  have run := exec_servingRacks (c := .enrol) (by rfl) serving (enrol_enrols hn notFound free)
  dsimp only at run
  refine ⟨fun noBay => ?_, fun b hb first => ?_⟩
  · rw [run, show BitVec.ofNat 24 (tripleAt a 0) = tag from rfl, enrolTag_unseen (foreignBay_eq_none noBay)]
    rfl
  rw [show BitVec.ofNat 24 (tripleAt (requestArgs req) 0) = tag from rfl, enrolTag_placed (foreignBay_eq_some hb first)] at run
  obtain ⟨v, hv⟩ : ∃ v, v = enrolPlaced tag h b s := ⟨_, rfl⟩
  rw [← hv] at run
  have sent := rackSender_keepsParts (judge b v)
  have judged : KeepsAllBut [.bays] v (judge b v) := setMode_keeps .refl (by decide)
  have placed : KeepsAllBut [.bays, .receivers] s v :=
    hv ▸ putBay_keeps (putReceiver_keeps .refl (by decide)) (by decide)
  have receiver (m : Fin 384) : (rackSender (judge b v)).receiver m = _ := (sent.receiver_eq (by decide) m).trans
    ((judged.receiver_eq (by decide) m).trans ((congrArg (fun w => w.receiver m) hv).trans
      (enrolPlaced_receiver tag h m b s)))
  have bay (x : Fin 288) := rackSender_bay (judge b v) x
  obtain ⟨p, hp⟩ := setMode_bay b (judgedMode v b) v b
  obtain ⟨p', hp'⟩ := bay b
  have here : (judge b v).bay b = { s.bay b with presence := .known h, mode := judgedMode v b, pending := p } := by
    refine hp.trans ?_
    rw [if_pos rfl, hv, enrolPlaced_bay, if_pos rfl]
  rw [here] at hp'
  refine ⟨_, run, (receiver h).trans (if_pos rfl), fun m hm => (receiver m).trans (if_neg hm), ?_, fun hn => ?_,
    fun x hx => ?_, ((placed.mono (by decide)).trans (judged.mono (by decide))).trans (sent.mono (by decide))⟩
  · rw [hp']
  · rw [hp', hv]
    exact judgedMode_enrolPlaced hn
  · obtain ⟨q, hq⟩ := bay x
    have away : (judge b v).bay x = s.bay x := by
      refine (setMode_bay_ne hx _ v).trans ?_
      rw [hv, enrolPlaced_bay, if_neg hx]
    rw [hq, away]

/-! ### RETIRE (R93) -/

theorem retire_absent {a : List Byte} {h : Fin 384} (ha : wordAt a 0 = h.val) (hr : s.receiver h = none) :
    retire a s = refuse .notFound s := by
  rw [retire, toId_val h ha]
  dsimp only
  rw [hr]

theorem retire_eq {a : List Byte} {h : Fin 384} {r : Receiver} (ha : wordAt a 0 = h.val) (hr : s.receiver h = some r) :
    retire a s = if r.phase = .reserved ∨ r.phase = .issued then refuse .wrongState s
      else answer .done (retireRecord h r s) := by
  rw [retire, toId_val h ha]
  dsimp only
  rw [hr]

theorem retireRecord_docked {h : Fin 384} {r : Receiver} {b : Fin 288} (hp : r.phase = .docked) (hb : r.bay = some b) :
    retireRecord h r s = endOrJudge b ((s.putReceiver h none).putBay b { s.bay b with presence := .foreign r.tag }) := by
  unfold retireRecord
  dsimp only
  rw [hp, hb]
  rfl

theorem retireRecord_away {h : Fin 384} {r : Receiver} (hp : r.phase ≠ .docked ∨ r.bay = none) :
    retireRecord h r s = s.putReceiver h none := by
  unfold retireRecord
  dsimp only
  split
  next b hd hb => rcases hp with hp | hp <;> simp_all
  next => rfl

/-- Settles O40: the checks in order; the bay of a DOCKED receiver is FOREIGN before its turn ends or its mode is judged. -/
theorem retireRemovesRecord : Obligations.RetireRemovesRecord := by
  unfold Obligations.RetireRemovesRecord
  intro s req serving a refused
  refine ⟨fun hn => ?_, fun h ha => ⟨fun hr => ?_, fun r hr => ⟨fun busy => ?_, fun h1 h2 => ?_⟩⟩⟩
  · have out : retire a s = refuse .badArgument s := by rw [retire, toId_eq_none.2 hn]
    exact exec_servingRacks (by rfl) serving out
  · exact exec_servingRacks (by rfl) serving (retire_absent ha hr)
  · exact exec_servingRacks (by rfl) serving ((retire_eq ha hr).trans (if_pos busy))
  have run := exec_servingRacks (c := .retire) (by rfl) serving ((retire_eq ha hr).trans (if_neg (by tauto)))
  simp only [answer_status, answer_data, answer_state] at run
  have sent := rackSender_keepsParts (retireRecord h r s)
  have pends := rackSender_bay (retireRecord h r s)
  have removed (m : Fin 384) : (s.putReceiver h none).receiver m = if m = h then none else s.receiver m :=
    State.putReceiver_receiver s h m none
  refine ⟨_, run, ?_, fun hd m hm => ?_, fun hd => ⟨?_, fun b => ?_⟩, fun b hd hb => ?_, ?_⟩
  · rw [sent.receiver_eq (by decide)]
    by_cases hd : r.phase = .docked ∧ ∃ b, r.bay = some b
    · obtain ⟨hd, b, hb⟩ := hd
      rw [retireRecord_docked hd hb]
      obtain ⟨n, hn⟩ := turnsCounted_charge.endOrJudge b
        ((s.putReceiver h none).putBay b { s.bay b with presence := .foreign r.tag }) h
      rw [hn, State.putBay_receiver, removed, if_pos rfl]
      rfl
    · rw [retireRecord_away (by
        by_contra hh
        rw [not_or, not_not] at hh
        exact hd ⟨hh.1, Option.ne_none_iff_exists'.1 hh.2⟩), removed, if_pos rfl]
  · rw [sent.receiver_eq (by decide), retireRecord_away (.inl hd), removed, if_neg hm]
  · rw [retireRecord_away (.inl hd)] at sent ⊢
    exact (putReceiver_keeps .refl (by decide)).trans (sent.mono (by decide))
  · obtain ⟨p, hp⟩ := pends b
    rw [hp, retireRecord_away (.inl hd)]
    rfl
  · obtain ⟨v, hv⟩ : ∃ v, v = (s.putReceiver h none).putBay b { s.bay b with presence := .foreign r.tag } := ⟨_, rfl⟩
    have eq : retireRecord h r s = endOrJudge b v := hv ▸ retireRecord_docked hd hb
    have bays (b' : Fin 288) : v.bay b' = if b' = b then { s.bay b with presence := .foreign r.tag } else s.bay b' :=
      hv ▸ State.putBay_bay _ _ _ _
    have foreign : (v.bay b).presence = .foreign r.tag := by rw [bays, if_pos rfl]
    have kv : KeepsAllBut [.receivers, .bays] s v :=
      hv ▸ putBay_keeps (putReceiver_keeps .refl (by decide)) (by decide)
    have holdings := endOrJudge_holdings b v
    rw [eq] at pends sent ⊢
    refine ⟨?_, fun x hx => ?_, fun b' hb' => ?_, fun still => ?_⟩
    · obtain ⟨p, hp⟩ := pends b
      have same := holdings.bay b
      rw [bays, if_pos rfl] at same
      rw [hp]
      exact ⟨same.presence, same.level, same.voltage, same.docked, same.ready, same.full, same.fault, same.assign⟩
    · rw [sent.sched_eq (by decide)] at hx
      exact endOrJudge_noTurn (fun n hn => by simp [foreign] at hn) x hx
    · obtain ⟨p, hp⟩ := pends b'
      have same := holdings.bay b'
      rw [bays, if_neg hb'] at same
      rw [hp]
      exact ⟨same.presence, same.level, same.assign⟩
    · have k := endOrJudge_still (s := v) (a := b) fun x hx => still x (by rwa [kv.sched_eq (by decide)] at hx)
      refine ⟨fun m hm => ?_, ?_⟩
      · rw [sent.receiver_eq (by decide), k.receiver_eq (by decide), hv]
        exact (removed m).trans (if_neg hm)
      · rw [sent.chs_eq (by decide), k.chs_eq (by decide), kv.chs_eq (by decide)]
  · exact rackSender_keeps (retireRecord_keeps .refl (by decide) (by decide) (by decide)) (by decide) (by decide) (by decide)

end Sys2Proof.Machine
end

section
/-! Reservations (R102 to R104, R70) and RESERVE MORE (R71). -/

namespace Sys2Proof.Machine

open Sys2Proof

variable {s t u : State}

/-! ### The pool in its order (R102, R103) -/

/-- A receiver that a reservation may take, with its level and bay. -/
def Pooled (s : State) (r : Receiver) (p : Nat) (a : Fin 288) : Prop :=
  r.phase = .docked ∧ r.level = some p ∧ r.fault = false ∧ r.bay = some a ∧
    (s.rack (rackOf a)).live.phase = .online

theorem inPool_iff {h : Fin 384} : inPool s h = true ↔ ∃ r p a, s.receiver h = some r ∧ Pooled s r p a := by
  unfold inPool Pooled
  cases hr : s.receiver h with
  | none => simp
  | some r =>
    cases hl : r.level <;> cases hb : r.bay <;> simp [isOnline, hl, hb, and_assoc]

theorem poolLevel_of_pooled {h : Fin 384} {r : Receiver} {p : Nat} {a : Fin 288} (hr : s.receiver h = some r)
    (hp : Pooled s r p a) : poolLevel s h = p := by
  obtain ⟨-, hl, -⟩ := hp
  simp [poolLevel, hr, hl]

theorem poolBay_of_pooled {h : Fin 384} {r : Receiver} {p : Nat} {a : Fin 288} (hr : s.receiver h = some r)
    (hp : Pooled s r p a) : poolBay s h = a.val := by
  obtain ⟨-, -, -, hb, -⟩ := hp
  simp [poolBay, hr, hb]

/-- Handle `x` stands before `y` in the order of R103, or level with it. -/
def NotAfter (s : State) (x y : Fin 384) : Prop :=
  poolLevel s y < poolLevel s x ∨ (poolLevel s y = poolLevel s x ∧ poolBay s x ≤ poolBay s y)

theorem NotAfter.trans {x y z : Fin 384} (h : NotAfter s x y) (k : NotAfter s y z) : NotAfter s x z := by
  unfold NotAfter at *
  omega

theorem takenBefore_iff {x y : Fin 384} : takenBefore s x y = true ↔ poolLevel s y < poolLevel s x ∨
    (poolLevel s x = poolLevel s y ∧ poolBay s x < poolBay s y) := by
  simp [takenBefore]

theorem insertRanked_perm (h : Fin 384) (l : List (Fin 384)) : (insertRanked s h l).Perm (h :: l) := by
  induction l with
  | nil => exact .refl _
  | cons y rest ih =>
    rw [insertRanked]
    split
    · exact .refl _
    · exact (ih.cons y).trans (.swap h y rest)

theorem insertRanked_pairwise {h : Fin 384} {l : List (Fin 384)} (hl : l.Pairwise (NotAfter s)) :
    (insertRanked s h l).Pairwise (NotAfter s) := by
  induction l with
  | nil => exact List.pairwise_singleton _ _
  | cons y rest ih =>
    obtain ⟨hy, hrest⟩ := List.pairwise_cons.1 hl
    rw [insertRanked]
    split
    next before =>
      have hy' : NotAfter s h y := by
        have := takenBefore_iff.1 before
        unfold NotAfter
        omega
      refine List.pairwise_cons.2 ⟨fun z hz => ?_, hl⟩
      rcases List.mem_cons.1 hz with rfl | hz
      exacts [hy', hy'.trans (hy z hz)]
    next after =>
      have hy' : NotAfter s y h := by
        have := mt takenBefore_iff.2 after
        unfold NotAfter
        omega
      refine List.pairwise_cons.2 ⟨fun z hz => ?_, ih hrest⟩
      rcases List.mem_cons.1 ((insertRanked_perm h rest).mem_iff.1 hz) with rfl | hz
      exacts [hy', hy z hz]

theorem foldl_insertRanked (hs acc : List (Fin 384)) (ha : acc.Pairwise (NotAfter s)) :
    (hs.foldl (fun acc h => insertRanked s h acc) acc).Perm (hs ++ acc) ∧
    (hs.foldl (fun acc h => insertRanked s h acc) acc).Pairwise (NotAfter s) := by
  induction hs generalizing acc with
  | nil => exact ⟨.refl _, ha⟩
  | cons h rest ih =>
    obtain ⟨perm, sorted⟩ := ih (insertRanked s h acc) (insertRanked_pairwise ha)
    refine ⟨perm.trans ?_, sorted⟩
    exact ((insertRanked_perm h acc).append_left rest).trans List.perm_middle

theorem rankedPool_pairwise (s : State) : (rankedPool s).Pairwise (NotAfter s) :=
  (foldl_insertRanked _ [] .nil).2

theorem rankedPool_perm (s : State) : (rankedPool s).Perm ((indices 384).filter (inPool s)) := by
  have := (foldl_insertRanked (s := s) ((indices 384).filter (inPool s)) [] .nil).1
  rwa [List.append_nil] at this

theorem rankedPool_nodup (s : State) : (rankedPool s).Nodup :=
  (rankedPool_perm s).nodup_iff.2 ((List.nodup_finRange 384).filter _)

theorem mem_rankedPool {h : Fin 384} : h ∈ rankedPool s ↔ inPool s h = true := by
  rw [(rankedPool_perm s).mem_iff, List.mem_filter]
  exact and_iff_right (List.mem_finRange h)

/-! ### The two passes (R103) -/

/-- A list in which no item that satisfies `p` stands after one that does not is its two parts in turn. -/
theorem filter_append_filter_of_pairwise {α : Type} {p : α → Bool} {l : List α}
    (h : l.Pairwise fun x y => p y = true → p x = true) : l.filter p ++ l.filter (fun x => !p x) = l := by
  induction l with
  | nil => rfl
  | cons x rest ih =>
    obtain ⟨hx, hrest⟩ := List.pairwise_cons.1 h
    cases hp : p x with
    | true => simpa [hp] using ih hrest
    | false =>
      have none : rest.filter p = [] := List.filter_eq_nil_iff.2 fun y hy hpy => by simp [hx y hy hpy] at hp
      have all : rest.filter (fun x => !p x) = rest :=
        List.filter_eq_self.2 fun y hy => by
          have := List.filter_eq_nil_iff.1 none y hy
          simpa using this
      simp [hp, none, all]

/-- A handle that the short pass takes. -/
def ranksShort (s : State) (q : Reservation) (h : Fin 384) : Bool := decide (poolLevel s h < q.required)

/-- The two passes take the first handles of the pool. -/
theorem passes_eq_take (q : Reservation) (s : State) : readyPass s q ++ shortPass s q = (rankedPool s).take q.count := by
  have sorted : (rankedPool s).Pairwise fun x y => decide (q.required ≤ poolLevel s y) = true →
      decide (q.required ≤ poolLevel s x) = true := by
    refine (rankedPool_pairwise s).imp fun {x y} h => ?_
    unfold NotAfter at h
    simp only [decide_eq_true_eq]
    omega
  have below : (fun h => decide (poolLevel s h < q.required)) = fun h => !decide (q.required ≤ poolLevel s h) := by
    funext h
    by_cases hl : q.required ≤ poolLevel s h
    · simp [hl]
    · simp [hl]
      omega
  have parts := filter_append_filter_of_pairwise sorted
  conv_rhs => rw [← parts]
  rw [List.take_append, readyPass, shortPass, below, readyPass, List.length_take]
  congr 2
  omega

theorem ranksShort_of_ready {q : Reservation} {h : Fin 384} (hh : h ∈ readyPass s q) : ranksShort s q h = false := by
  have := of_decide_eq_true (List.mem_filter.1 (List.mem_of_mem_take hh)).2
  simpa [ranksShort] using this

theorem ranksShort_of_short {q : Reservation} {h : Fin 384} (hh : h ∈ shortPass s q) : ranksShort s q h = true :=
  (List.mem_filter.1 (List.mem_of_mem_take hh)).2

/-! ### The records and bays that a reservation writes (R104) -/

/-- A record taken by a reservation. -/
def reservedReceiver (q : Reservation) (short : Bool) (r : Receiver) : Receiver :=
  { r with
    phase := .reserved, tour := some ⟨q.slot, q.run, q.entry, q.channel⟩, required := some q.required, short := short }

/-- A bay whose receiver is taken by a reservation. -/
def reservedBay (q : Reservation) (b : Bay) : Bay :=
  { b with
    assign := some ⟨q.channel, true⟩
    pending := b.pending || decide ((some ⟨q.channel, true⟩ : Option Assignment) ≠ b.assign) }

theorem setAssign_bay_eq (a a' : Fin 288) (x : Option Assignment) (s : State) : (setAssign a x s).bay a' =
    if a' = a then { s.bay a with
      assign := x, pending := (s.bay a).pending || decide (x ≠ (s.bay a).assign) } else s.bay a' := by
  unfold setAssign
  dsimp only
  split
  next h =>
    split
    next e =>
      rw [e, ← h]
      simp
    next => rfl
  next h =>
    rw [State.putBay_bay]
    have : x ≠ (s.bay a).assign := fun e => h e.symm
    simp [this]

theorem reservedBay_twice (q : Reservation) (b : Bay) : reservedBay q (reservedBay q b) = reservedBay q b := by
  simp [reservedBay]

theorem reserveOne_spec {q : Reservation} {short : Bool} {h : Fin 384} {r : Receiver} {a : Fin 288}
    (hr : s.receiver h = some r) (hb : r.bay = some a) :
    (∀ m, (reserveOne q short h s).receiver m =
      if m = h then some (reservedReceiver q short r) else s.receiver m) ∧
    (∀ a', (reserveOne q short h s).bay a' = if a' = a then reservedBay q (s.bay a) else s.bay a') ∧
    KeepsAllBut [.receivers, .bays] s (reserveOne q short h s) := by
  obtain ⟨t, ht⟩ : ∃ t, t = s.putReceiver h (some (reservedReceiver q short r)) := ⟨_, rfl⟩
  have eq : reserveOne q short h s = setAssign a (some ⟨q.channel, true⟩) t := by
    rw [ht]
    unfold reserveOne
    rw [hr]
    simp only [reservedReceiver, hb]
  have k : KeepsAllBut [.bays] t (setAssign a (some ⟨q.channel, true⟩) t) := setAssign_keeps .refl (by decide)
  have kt : KeepsAllBut [.receivers] s t := ht ▸ putReceiver_keeps .refl (by decide)
  rw [eq]
  refine ⟨fun m => ?_, fun a' => ?_, (kt.mono (by decide)).trans (k.mono (by decide))⟩
  · rw [k.receiver_eq (by decide), ht]
    exact State.putReceiver_receiver s h m _
  · rw [setAssign_bay_eq, kt.bay_eq (by decide), kt.bay_eq (by decide)]
    rfl

/-- A handle whose record stands in a bay. -/
def InBay (s : State) (h : Fin 384) : Prop := ∃ r a, s.receiver h = some r ∧ r.bay = some a

/-- What taking the handles of a list writes. -/
structure Reserved (q : Reservation) (short : Fin 384 → Bool) (hs : List (Fin 384)) (s t : State) : Prop where
  taken : ∀ h ∈ hs, t.receiver h = (s.receiver h).map (reservedReceiver q (short h))
  others : ∀ h, h ∉ hs → t.receiver h = s.receiver h
  bay : ∀ a, (∃ h ∈ hs, (s.receiver h).bind Receiver.bay = some a) → t.bay a = reservedBay q (s.bay a)
  otherBays : ∀ a, (∀ h ∈ hs, (s.receiver h).bind Receiver.bay ≠ some a) → t.bay a = s.bay a
  keeps : KeepsAllBut [.receivers, .bays] s t

theorem forEach_reserveOne {q : Reservation} {short : Fin 384 → Bool} {hs : List (Fin 384)} (nodup : hs.Nodup)
    (inBay : ∀ h ∈ hs, InBay s h) : Reserved q short hs s (forEach hs (fun h => reserveOne q (short h) h) s) := by
  induction hs generalizing s with
  | nil => exact ⟨fun h hh => by simp at hh, fun _ _ => rfl, fun a ⟨h, hh, _⟩ => by simp at hh, fun _ _ => rfl, .refl⟩
  | cons x rest ih =>
    obtain ⟨hx, hrest⟩ := List.nodup_cons.1 nodup
    obtain ⟨r, b, hr, hb⟩ := inBay x (by simp)
    obtain ⟨receivers, bays, k⟩ := reserveOne_spec (q := q) (short := short x) hr hb
    obtain ⟨v, hv⟩ : ∃ v, v = reserveOne q (short x) x s := ⟨_, rfl⟩
    rw [← hv] at receivers bays k
    have same (m : Fin 384) (hm : m ∈ rest) : v.receiver m = s.receiver m := by
      rw [receivers, if_neg (ne_of_mem_of_not_mem hm hx)]
    have next := ih (s := v) hrest fun h hh => by
      obtain ⟨r', a', h1, h2⟩ := inBay h (by simp [hh])
      exact ⟨r', a', (same h hh).trans h1, h2⟩
    have eq : forEach (x :: rest) (fun h => reserveOne q (short h) h) s =
        forEach rest (fun h => reserveOne q (short h) h) v := by rw [hv]; rfl
    have mine : (s.receiver x).bind Receiver.bay = some b := by rw [hr]; exact hb
    rw [eq]
    refine ⟨fun h hh => ?_, fun h hh => ?_, fun a ha => ?_, fun a ha => ?_, k.trans next.keeps⟩
    · rcases List.mem_cons.1 hh with rfl | hh
      · rw [next.others h hx, receivers, if_pos rfl, hr]
        rfl
      · rw [next.taken h hh, same h hh]
    · rw [next.others h fun hm => hh (by simp [hm]), receivers, if_neg fun e => hh (by simp [e])]
    · by_cases later : ∃ h ∈ rest, (v.receiver h).bind Receiver.bay = some a
      · rw [next.bay a later, bays]
        split
        next e => rw [e, reservedBay_twice]
        next => rfl
      · have here : a = b := by
          obtain ⟨h, hh, hba⟩ := ha
          rcases List.mem_cons.1 hh with rfl | hh
          · exact Option.some_inj.1 (hba.symm.trans mine)
          · exact absurd ⟨h, hh, by rw [same h hh]; exact hba⟩ later
        rw [next.otherBays a fun h hh hba => later ⟨h, hh, hba⟩, bays, if_pos here, here]
    · have hab : a ≠ b := fun e => ha x (by simp) (by rw [e]; exact mine)
      rw [next.otherBays a fun h hh => by rw [same h hh]; exact ha h (by simp [hh]), bays, if_neg hab]

/-! ### The reservation as a whole (R70, R103) -/

/-- The handles that a reservation takes. -/
def takenBy (q : Reservation) (s : State) : List (Fin 384) := (rankedPool s).take q.count

/-- The state in which every handle taken is RESERVED, and the counts of the run are as before. -/
def reservedAll (q : Reservation) (s : State) : State :=
  forEach (takenBy q s) (fun h => reserveOne q (ranksShort s q h) h) s

theorem forEach_congr {α : Type} {f g : α → State → State} {l : List α} (h : ∀ x ∈ l, f x = g x) (s : State) :
    forEach l f s = forEach l g s := by
  induction l generalizing s with
  | nil => rfl
  | cons x rest ih =>
    have hx : f x s = g x s := by rw [h x (by simp)]
    exact (congrArg (forEach rest f) hx).trans (ih (fun y hy => h y (by simp [hy])) _)

theorem forEach_append {α : Type} (f : α → State → State) (l m : List α) (s : State) :
    forEach (l ++ m) f s = forEach m f (forEach l f s) := List.foldl_append

theorem reserve_passes (q : Reservation) (s : State) :
    forEach (shortPass s q) (reserveOne q true) (forEach (readyPass s q) (reserveOne q false) s) = reservedAll q s := by
  have ready : forEach (readyPass s q) (reserveOne q false) s =
      forEach (readyPass s q) (fun h => reserveOne q (ranksShort s q h) h) s :=
    forEach_congr (fun h hh => by rw [ranksShort_of_ready hh]) s
  have short (u : State) : forEach (shortPass s q) (reserveOne q true) u =
      forEach (shortPass s q) (fun h => reserveOne q (ranksShort s q h) h) u :=
    forEach_congr (fun h hh => by rw [ranksShort_of_short hh]) u
  rw [ready, short, reservedAll, takenBy, ← passes_eq_take, forEach_append]

/-- The three numbers of a reservation. -/
theorem reserve_answer (q : Reservation) (s : State) :
    (reserve q s).1 = ⟨(takenBy q s).length, ((takenBy q s).filter (ranksShort s q)).length,
      q.count - (takenBy q s).length⟩ := by
  have ready : (readyPass s q).filter (ranksShort s q) = [] :=
    List.filter_eq_nil_iff.2 fun h hh => by simp [ranksShort_of_ready hh]
  have short : (shortPass s q).filter (ranksShort s q) = shortPass s q :=
    List.filter_eq_self.2 fun h hh => ranksShort_of_short hh
  rw [takenBy, ← passes_eq_take, List.filter_append, ready, short, List.length_append]
  rfl

theorem reserve_state (q : Reservation) (s : State) : (reserve q s).2 =
    (reservedAll q s).putLive q.slot { ((reservedAll q s).tour q.slot).live with
      reserved := ((reservedAll q s).tour q.slot).live.reserved + (reserve q s).1.reserved
      short := ((reservedAll q s).tour q.slot).live.short + (reserve q s).1.short
      unfilled := ((reservedAll q s).tour q.slot).live.unfilled + (reserve q s).1.unfilled } := by
  rw [← reserve_passes]
  rfl

theorem pooled_of_mem {q : Reservation} {h : Fin 384} (hh : h ∈ takenBy q s) :
    ∃ r p a, s.receiver h = some r ∧ Pooled s r p a :=
  inPool_iff.1 (mem_rankedPool.1 (List.mem_of_mem_take hh))

theorem reservedAll_reserved (q : Reservation) (s : State) :
    Reserved q (ranksShort s q) (takenBy q s) s (reservedAll q s) :=
  forEach_reserveOne ((rankedPool_nodup s).sublist (List.take_sublist _ _)) fun h hh => by
    obtain ⟨r, p, a, hr, -, -, -, hb, -⟩ := pooled_of_mem hh
    exact ⟨r, a, hr, hb⟩

/-- A reservation that asks for nothing takes nothing. -/
theorem reserve_of_zero {q : Reservation} (h : q.count = 0) :
    (reserve q s).1 = ⟨0, 0, 0⟩ ∧ ∀ m, (reserve q s).2.receiver m = s.receiver m := by
  have none : takenBy q s = [] := by rw [takenBy, h, List.take_zero]
  refine ⟨by rw [reserve_answer, none, h]; rfl, fun m => ?_⟩
  have k : KeepsAllBut [.tours] (reservedAll q s) (reserve q s).2 := by
    rw [reserve_state]
    exact putLive_keeps .refl (by decide)
  rw [k.receiver_eq (by decide)]
  exact (reservedAll_reserved q s).others m (by rw [none]; simp)

/-- Settles O38: the two passes take the first handles of the pool in the order of R103. -/
theorem reservationTakesHighestLevel : Obligations.ReservationTakesHighestLevel := by
  unfold Obligations.ReservationTakesHighestLevel
  intro q s answer t pooled
  have written := reservedAll_reserved q s
  have k : KeepsAllBut [.tours] (reservedAll q s) t := by
    rw [show t = (reserve q s).2 from rfl, reserve_state]
    exact putLive_keeps .refl (by decide)
  have receiver (m : Fin 384) : t.receiver m = (reservedAll q s).receiver m := k.receiver_eq (by decide) m
  have bay (a : Fin 288) : t.bay a = (reservedAll q s).bay a := k.bay_eq (by decide) a
  have numbers : answer = _ := reserve_answer q s
  refine ⟨takenBy q s, (rankedPool_nodup s).sublist (List.take_sublist _ _), fun h hh => ?_, fun h hh => ?_,
    fun h hh r p a hr hp h' r' p' a' hh' hr' hp' => ?_, fun hlt h r p a hr hp => ?_, ?_, by rw [numbers], ?_, fun a => ?_,
    fun a ha => ?_, fun m => ?_, (written.keeps.mono (by decide)).trans (k.mono (by decide))⟩
  · obtain ⟨r, p, a, hr, hp⟩ := pooled_of_mem hh
    have short : ranksShort s q h = decide (p < q.required) := by rw [ranksShort, poolLevel_of_pooled hr hp]
    have inBay : (s.receiver h).bind Receiver.bay = some a := by rw [hr]; exact hp.2.2.2.1
    refine ⟨r, p, a, hr, hp, ?_, ?_⟩
    · rw [receiver, written.taken h hh, hr, short]
      rfl
    · rw [bay, written.bay a ⟨h, hh, inBay⟩]
      rfl
  · rw [receiver, written.others h hh]
  · have mem : h' ∈ (rankedPool s).drop q.count := by
      have pool : h' ∈ rankedPool s := mem_rankedPool.2 (inPool_iff.2 ⟨r', p', a', hr', hp'⟩)
      rw [← List.take_append_drop q.count (rankedPool s), List.mem_append] at pool
      exact pool.resolve_left hh'
    have sorted := rankedPool_pairwise s
    rw [← List.take_append_drop q.count (rankedPool s), List.pairwise_append] at sorted
    have order := sorted.2.2 h hh h' mem
    rwa [NotAfter, poolLevel_of_pooled hr hp, poolLevel_of_pooled hr' hp', poolBay_of_pooled hr hp,
      poolBay_of_pooled hr' hp', ← Fin.le_def] at order
  · have all : takenBy q s = rankedPool s := by
      refine List.take_of_length_le ?_
      rw [takenBy, List.length_take] at hlt
      omega
    rw [all]
    exact mem_rankedPool.2 (inPool_iff.2 ⟨r, p, a, hr, hp⟩)
  · rw [numbers]
    have := List.length_take_le q.count (rankedPool s)
    change (takenBy q s).length + (q.count - (takenBy q s).length) = q.count
    rw [takenBy]
    omega
  · rw [numbers]
    refine congrArg List.length (List.filter_congr fun h hh => ?_)
    obtain ⟨r, p, a, hr, hp⟩ := pooled_of_mem hh
    rw [ranksShort, poolLevel_of_pooled hr hp, hr]
    show _ = r.level.any _
    rw [hp.2.1]
    rfl
  · rw [bay]
    by_cases ha : ∃ h ∈ takenBy q s, (s.receiver h).bind Receiver.bay = some a
    · rw [written.bay a ha]
      rfl
    · rw [written.otherBays a fun h hh hba => ha ⟨h, hh, hba⟩]
      simp
  · rw [bay, written.otherBays a ha]
  · have tours (m : Fin 16) : (reservedAll q s).tour m = s.tour m := written.keeps.tour_eq (by decide) m
    rw [show t = (reserve q s).2 from rfl, reserve_state]
    refine (State.putTour_tour _ _ _ _).trans ?_
    rw [tours, tours]
    split
    next h => rw [h]
    next => rfl

/-! ### RESERVE MORE (R71) -/

/-- Settles O36: the checks in order, then one reservation of the clamped count. -/
theorem reserveMoreClamps : Obligations.ReserveMoreClamps := by
  unfold Obligations.ReserveMoreClamps
  intro s req serving a refused
  refine ⟨fun hbad => ?_, fun slot e hs he => ?_⟩
  · have out : reserveMore a s = refuse .badArgument s := by
      rcases hbad with h | h
      · rw [reserveMore, toId_eq_none.2 h]
      · rw [reserveMore, toId_eq_none.2 h]
        cases toId 16 (byteAt a 0) <;> rfl
    exact exec_servingRacks (by rfl) serving out
  intro l n
  have parsed : reserveMore a s = if l.phase ≠ .live then refuse .wrongState s
      else if ((s.tour slot).plan.bind fun p => p.entries.get e).isNone then refuse .notFound s
      else
        let k := clampCount l e n
        let r := reserveFor slot e k (s.putLive slot { l with asked := l.asked.set e (l.asked.get e + k) })
        { status := appliedStatus (decide (k < n)), data := answerBytes r.1, state := r.2 } := by
    rw [reserveMore, toId_val slot hs, toId_val e he]
  refine ⟨fun hp => exec_servingRacks (by rfl) serving (parsed.trans (if_pos hp)), fun p hp plan => ⟨fun absent => ?_,
    fun x ch present channel => ?_⟩⟩
  · refine exec_servingRacks (by rfl) serving ((parsed.trans (if_neg (not_not_intro hp))).trans (if_pos ?_))
    rw [plan]
    exact Option.isNone_iff_eq_none.2 absent
  intro k r
  have found : ¬ ((s.tour slot).plan.bind fun p => p.entries.get e).isNone = true := by
    rw [plan]
    show ¬ (p.entries.get e).isNone = true
    rw [present]
    simp
  have count : clampCount l e n = k := by
    rw [clampCount, Tab.items_eq]
    rfl
  have reserves : reserveFor slot e k (s.putLive slot { l with asked := l.asked.set e (l.asked.get e + k) }) = r := by
    have tour : (s.putLive slot { l with asked := l.asked.set e (l.asked.get e + k) }).tour slot =
        { s.tour slot with live := { l with asked := l.asked.set e (l.asked.get e + k) } } :=
      State.putTour_tour_self s slot _
    unfold reserveFor
    dsimp only
    rw [tour]
    dsimp only
    rw [channel, plan]
    rfl
  have run := exec_servingRacks (c := .reserveMore) (by rfl) serving
    ((parsed.trans (if_neg (not_not_intro hp))).trans (if_neg found))
  dsimp only at run
  rw [count, reserves] at run
  refine ⟨?_, fun h0 => ?_⟩
  · rw [run]
    simp only [appliedStatus, decide_eq_true_eq]
    rfl
  · exact reserve_of_zero (s := s.putLive slot { l with asked := l.asked.set e (l.asked.get e + k) }) h0

end Sys2Proof.Machine
end

section
/-! What the service of wait queues does to tours, channels and everything else (R52, R57, R58). -/

namespace Sys2Proof.Machine

open Sys2Proof

variable {s t u : State}

/-- What the parts of a live record that a handover does not write say. -/
def SameRun (l m : TourLive) : Prop :=
  ∃ z p w g, m = { l with zone := z, prevZone := p, window := w, target := g }

theorem SameRun.refl (l : TourLive) : SameRun l l := ⟨l.zone, l.prevZone, l.window, l.target, rfl⟩

theorem SameRun.trans {l m n : TourLive} (h : SameRun l m) (k : SameRun m n) : SameRun l n := by
  obtain ⟨_, _, _, _, rfl⟩ := h
  obtain ⟨z, p, w, g, rfl⟩ := k
  exact ⟨z, p, w, g, rfl⟩

theorem SameRun.channels_eq {l m : TourLive} (h : SameRun l m) : m.channels = l.channels := by
  obtain ⟨_, _, _, _, rfl⟩ := h
  rfl

theorem SameRun.tourChannels_eq {l m : TourLive} (h : SameRun l m) : tourChannels m = tourChannels l :=
  congrArg (fun c => c.items.filterMap id) h.channels_eq

/-- A channel is one of those that tours with a current zone hold. -/
def HeldByZoned (s : State) (ch : Fin 24) : Prop :=
  ∃ k, (s.tour k).live.zone.isSome = true ∧ ch ∈ tourChannels (s.tour k).live

/-- The service of wait queues between two states: only tours with a current zone move, and only the zone sets of their
channels change. -/
structure Served (s t : State) : Prop where
  keeps : KeepsAllBut [.tours, .zones, .events, .egress] s t
  unzoned : ∀ k, (s.tour k).live.zone = none → t.tour k = s.tour k
  zoned : ∀ k, (s.tour k).live.zone.isSome = true → (t.tour k).live.zone.isSome = true
  plan : ∀ k, (t.tour k).plan = (s.tour k).plan ∧ (t.tour k).timing = (s.tour k).timing
  live : ∀ k, SameRun (s.tour k).live (t.tour k).live
  channel : ∀ ch, t.channel ch = { s.channel ch with zones := (t.channel ch).zones }
  away : ∀ ch, ¬ HeldByZoned s ch → t.channel ch = s.channel ch
  reports : Reports s t

theorem Served.heldByZoned_iff (h : Served s t) (ch : Fin 24) : HeldByZoned t ch ↔ HeldByZoned s ch := by
  refine exists_congr fun k => and_congr ⟨fun hz => ?_, h.zoned k⟩ (by rw [(h.live k).tourChannels_eq])
  cases hk : (s.tour k).live.zone with
  | none => rw [h.unzoned k hk, hk] at hz; cases hz
  | some z => rfl

theorem Served.trans (h : Served s t) (k : Served t u) : Served s u where
  keeps := h.keeps.trans k.keeps
  unzoned i hi := by rw [k.unzoned i (by rw [h.unzoned i hi]; exact hi), h.unzoned i hi]
  zoned i hi := k.zoned i (h.zoned i hi)
  plan i := ⟨(k.plan i).1.trans (h.plan i).1, (k.plan i).2.trans (h.plan i).2⟩
  live i := (h.live i).trans (k.live i)
  channel ch := by rw [k.channel ch, h.channel ch]
  away ch hc := by rw [k.away ch (mt (h.heldByZoned_iff ch).1 hc), h.away ch hc]
  reports := h.reports.trans k.reports

/-- A step that keeps the tours and the channels. -/
theorem Served.of_keeps (keeps : KeepsAllBut [.tours, .zones, .events, .egress] s t) (tour : t.tour = s.tour)
    (channel : t.channel = s.channel) (reports : Reports s t) : Served s t where
  keeps := keeps
  unzoned _ _ := by rw [tour]
  zoned _ h := by rw [tour]; exact h
  plan _ := by rw [tour]; exact ⟨rfl, rfl⟩
  live _ := by rw [tour]; exact .refl _
  channel _ := by rw [channel]
  away _ _ := by rw [channel]
  reports := reports

theorem served_setZones {k : Fin 16} {ch : Fin 24} {zs : ZoneSet} (hz : (s.tour k).live.zone.isSome = true)
    (hc : ch ∈ tourChannels (s.tour k).live) : Served s (setZones ch zs s) where
  keeps := setZones_keeps .refl (by decide)
  unzoned _ _ := rfl
  zoned _ h := h
  plan _ := ⟨rfl, rfl⟩
  live _ := .refl _
  channel c := by
    rw [setZones_channel]
    split
    next h => rw [h]
    next => rfl
  away c hc' := by
    rw [setZones_channel]
    split
    next h => exact absurd ⟨k, hz, h ▸ hc⟩ hc'
    next => rfl
  reports := .of_keeps (setZones_keeps (ps := [.zones]) .refl (by decide)) (by decide)

theorem served_moved {k : Fin 16} {z : Fin 12} {p g : Option (Fin 12)} {w : Option Nat}
    (hz : (s.tour k).live.zone.isSome = true) : Served s (s.putLive k { (s.tour k).live with
      zone := some z, prevZone := p, window := w, target := g }) where
  keeps := putLive_keeps .refl (by decide)
  unzoned i hi := by
    rw [State.putLive, State.putTour_tour]
    split
    next h => rw [h] at hi; rw [hi] at hz; cases hz
    next => rfl
  zoned i hi := by
    rw [State.putLive, State.putTour_tour]
    split
    next => rfl
    next => exact hi
  plan i := by
    rw [State.putLive, State.putTour_tour]
    split
    next h => rw [h]; exact ⟨rfl, rfl⟩
    next => exact ⟨rfl, rfl⟩
  live i := by
    rw [State.putLive, State.putTour_tour]
    split
    next h => rw [h]; exact ⟨_, _, _, _, rfl⟩
    next => exact .refl _
  channel _ := rfl
  away _ _ := rfl
  reports := .of_keeps (putLive_keeps (ps := [.tours]) .refl (by decide)) (by decide)

theorem served_closed : ServiceClosed Served where
  refl s := .of_keeps .refl rfl rfl (.of_keeps (ps := []) .refl (by decide))
  trans := Served.trans
  zones _ _ _ _ hz hc := served_setZones hz hc
  queue s z q := .of_keeps (putZone_keeps .refl (by decide)) rfl rfl
    (.of_keeps (putZone_keeps (ps := [.zones]) .refl (by decide)) (by decide))
  moved _ _ _ _ _ _ hz := served_moved hz
  event s k n r d :=
    have keeps : KeepsAllBut [.events, .egress] s (raiseEvent k n r d s) :=
      raiseEvent_keeps .refl (by decide) (by decide)
    .of_keeps (raiseEvent_keeps .refl (by decide) (by decide)) (funext fun i => keeps.tour_eq (by decide) i)
      (funext fun c => keeps.channel_eq (by decide) c) (.event k n r d s)

theorem serveZones_served (zs : ZoneSet) (s : State) : Served s (serveZones zs s) := served_closed.serveZones zs s

/-- Without a waiting tour the service of queues does nothing. -/
theorem serveZones_of_empty (empty : ∀ z, (s.zone z).queue = []) (zs : ZoneSet) : serveZones zs s = s := by
  suffices ∀ n zs, serveSet n zs s = s from this _ _
  intro n
  induction n with
  | zero => exact fun _ => rfl
  | succ n ih =>
    intro zs
    rw [serveSet]
    split
    · rfl
    next z _ =>
      rw [empty z]
      exact ih _

end Sys2Proof.Machine
end

section
/-! The receivers of a run at its end: the release of the RESERVED ones and the due deadline of the ISSUED ones (R105,
R106). -/

namespace Sys2Proof.Machine

open Sys2Proof

variable {s t u : State}

theorem putLive_tour_self (k : Fin 16) (x : TourLive) (s : State) :
    (s.putLive k x).tour k = { s.tour k with live := x } := by
  rw [State.putLive, State.putTour_tour, if_pos rfl]

theorem putLive_tour_ne {k j : Fin 16} (h : j ≠ k) (x : TourLive) (s : State) :
    (s.putLive k x).tour j = s.tour j := by
  rw [State.putLive, State.putTour_tour, if_neg h]

/-! ### Records of a run -/

/-- A record belongs to a run of a slot. -/
def InRun (slot : Fin 16) (run : BitVec 16) (r : Receiver) : Prop :=
  r.tour.map (fun x => (x.slot, x.run)) = some (slot, run)

theorem ofRun_iff {r : Receiver} {phase : RxState} {slot : Fin 16} {run : BitVec 16} :
    ofRun r phase slot run = true ↔ r.phase = phase ∧ InRun slot run r := by
  unfold ofRun InRun
  cases r.tour with
  | none => simp
  | some x => simp

/-- A record of the run that a close finds in a state. -/
def recordOfRun (phase : RxState) (slot : Fin 16) (run : BitVec 16) (r : Option Receiver) : Bool :=
  r.any fun r => ofRun r phase slot run

theorem recordOfRun_iff {x : Option Receiver} {phase : RxState} {slot : Fin 16} {run : BitVec 16} :
    recordOfRun phase slot run x = true ↔ ∃ r, x = some r ∧ r.phase = phase ∧ InRun slot run r := by
  simp only [recordOfRun, Option.any_eq_true, ofRun_iff]

/-- A record as a release leaves it (R105). -/
def releasedRecord (slot : Fin 16) (run : BitVec 16) (x : Option Receiver) : Option Receiver :=
  x.map fun r => if ofRun r .reserved slot run then
    { r with phase := .docked, tour := none, short := false, required := none } else r

/-- A record as the close of its tour leaves it with a due deadline (R106). -/
def dueRecord (slot : Fin 16) (run : BitVec 16) (deadline : Nat) (x : Option Receiver) : Option Receiver :=
  x.map fun r => if ofRun r .issued slot run then { r with phase := .due, deadline := some deadline } else r

/-! ### The release of a run -/

/-- The release of some handles of a run between two states. -/
structure Released (slot : Fin 16) (run : BitVec 16) (hs : List (Fin 384)) (s t : State) : Prop where
  keeps : KeepsAllBut [.receivers, .bays, .tours] s t
  receiver : ∀ h, t.receiver h = if h ∈ hs then releasedRecord slot run (s.receiver h) else s.receiver h
  tour : t.tour slot = { s.tour slot with live := { (s.tour slot).live with
    reserved := (s.tour slot).live.reserved - (hs.filter fun h => recordOfRun .reserved slot run (s.receiver h)).length } }
  away : ∀ k, k ≠ slot → t.tour k = s.tour k
  assign : ∀ a, (t.bay a).assign = none ∨ (t.bay a).assign = (s.bay a).assign
  freed : ∀ h r b, h ∈ hs → s.receiver h = some r → ofRun r .reserved slot run = true → r.bay = some b →
    (t.bay b).assign = none

/-- A release of a record that is not RESERVED in the run does nothing. -/
theorem releaseOne_of_not {slot : Fin 16} {run : BitVec 16} {h : Fin 384}
    (hn : recordOfRun .reserved slot run (s.receiver h) = false) : releaseOne slot run h s = s := by
  rw [releaseOne]
  split
  · rfl
  next r hr =>
    rw [hr] at hn
    exact if_neg (Bool.not_eq_true _ ▸ hn)

/-- The bay of a released record, if any, loses its desired assignment (R105). -/
def unassign (bay : Option (Fin 288)) (s : State) : State :=
  match bay with
  | some a => setAssign a none s
  | none => s

theorem unassign_keeps (bay : Option (Fin 288)) (s : State) : KeepsAllBut [.bays] s (unassign bay s) := by
  unfold unassign
  split
  · exact setAssign_keeps .refl (by decide)
  · exact .refl

theorem unassign_assign (bay : Option (Fin 288)) (s : State) (a : Fin 288) :
    ((unassign bay s).bay a).assign = if bay = some a then none else (s.bay a).assign := by
  cases bay with
  | none => rfl
  | some b =>
    rw [unassign, setAssign_bay_eq]
    by_cases h : a = b
    · rw [if_pos h, if_pos (by rw [h])]
    · rw [if_neg h, if_neg fun he => h (Option.some.inj he).symm]

theorem releaseOne_of_reserved {slot : Fin 16} {run : BitVec 16} {h : Fin 384} {r : Receiver}
    (hr : s.receiver h = some r) (hm : ofRun r .reserved slot run = true) : releaseOne slot run h s =
      noteReleased slot (unassign r.bay (s.putReceiver h
        (some { r with phase := .docked, tour := none, short := false, required := none }))) := by
  rw [releaseOne, hr]
  exact if_pos hm

theorem releaseOne_spec (slot : Fin 16) (run : BitVec 16) (h : Fin 384) (s : State) :
    Released slot run [h] s (releaseOne slot run h s) := by
  by_cases hm : recordOfRun .reserved slot run (s.receiver h) = true
  · obtain ⟨r, hr, hm'⟩ := Option.any_eq_true _ _ |>.1 hm
    have keeps := unassign_keeps r.bay (s.putReceiver h
      (some { r with phase := .docked, tour := none, short := false, required := none }))
    have assign := unassign_assign r.bay (s.putReceiver h
      (some { r with phase := .docked, tour := none, short := false, required := none }))
    rw [releaseOne_of_reserved hr hm']
    obtain ⟨v, hv⟩ : ∃ v, v = unassign r.bay (s.putReceiver h
      (some { r with phase := .docked, tour := none, short := false, required := none })) := ⟨_, rfl⟩
    rw [← hv] at keeps assign ⊢
    have tours (k : Fin 16) : v.tour k = s.tour k := keeps.tour_eq (by decide) k
    have base : KeepsAllBut [.receivers, .bays, .tours] s v := (putReceiver_keeps (ps := [.receivers, .bays, .tours])
      .refl (by decide)).trans (KeepsAllBut.mono keeps (by decide))
    refine ⟨putLive_keeps base (by decide), fun h' => ?_, ?_, fun k hk => ?_, fun a => ?_, fun h' r' b hh hr' _ hb => ?_⟩
    · show v.receiver h' = _
      rw [show v.receiver h' = _ from keeps.receiver_eq (by decide) h', State.putReceiver_receiver]
      by_cases e : h' = h
      · rw [if_pos e, if_pos (by simpa using e), e, hr, releasedRecord, Option.map_some, if_pos hm']
      · rw [if_neg e, if_neg (by simpa using e)]
    · rw [noteReleased, putLive_tour_self, tours, List.filter_singleton, hm]
      rfl
    · rw [noteReleased, putLive_tour_ne hk, tours]
    · have := assign a
      show (v.bay a).assign = none ∨ (v.bay a).assign = _
      rw [this]
      split
      · exact .inl rfl
      · exact .inr rfl
    · rw [List.mem_singleton] at hh
      rw [hh, hr] at hr'
      show (v.bay b).assign = none
      rw [assign b, if_pos (by rw [Option.some.inj hr', hb])]
  · have hn := Bool.not_eq_true _ ▸ hm
    rw [releaseOne_of_not hn]
    refine ⟨.refl, fun h' => ?_, ?_, fun _ _ => rfl, fun _ => .inr rfl, fun h' r b hh hr hm' _ => ?_⟩
    · split
      next e =>
        rw [List.mem_singleton.1 e]
        cases hr : s.receiver h with
        | none => rfl
        | some r =>
          rw [releasedRecord, Option.map_some, if_neg]
          rw [hr] at hm
          exact hm
      next => rfl
    · rw [List.filter_singleton, hn]
      rfl
    · rw [List.mem_singleton.1 hh] at hr
      exact absurd (by rw [hr]; exact hm') hm

theorem Released.cons {slot : Fin 16} {run : BitVec 16} {h : Fin 384} {hs : List (Fin 384)} (nodup : h ∉ hs)
    (one : Released slot run [h] s t) (rest : Released slot run hs t u) : Released slot run (h :: hs) s u where
  keeps := one.keeps.trans rest.keeps
  receiver i := by
    rw [rest.receiver i, one.receiver i]
    by_cases hi : i = h
    · subst hi
      simp [nodup]
    · simp [hi]
  tour := by
    have same : hs.filter (fun i => recordOfRun .reserved slot run (t.receiver i)) =
        hs.filter fun i => recordOfRun .reserved slot run (s.receiver i) :=
      List.filter_congr fun i hi => by
        rw [one.receiver i, if_neg (by simpa using fun e : i = h => nodup (e ▸ hi))]
    have sum : (((h :: hs).filter fun i => recordOfRun .reserved slot run (s.receiver i)).length) =
        ([h].filter fun i => recordOfRun .reserved slot run (s.receiver i)).length +
          (hs.filter fun i => recordOfRun .reserved slot run (s.receiver i)).length := by
      rw [← List.singleton_append, List.filter_append, List.length_append]
    rw [rest.tour, same, one.tour, sum, Nat.sub_add_eq]
  away k hk := by rw [rest.away k hk, one.away k hk]
  assign a := by
    rcases rest.assign a with ha | ha
    · exact .inl ha
    · rw [ha]
      exact one.assign a
  freed i r b hi hr hm hb := by
    rcases List.mem_cons.1 hi with e | hi'
    · have := one.freed i r b (by simp [e]) hr hm hb
      rcases rest.assign b with ha | ha
      · exact ha
      · rw [ha, this]
    · refine rest.freed i r b hi' ?_ hm hb
      rw [one.receiver i, if_neg (by simpa using fun e : i = h => nodup (e ▸ hi')), hr]

theorem releaseRun_spec (slot : Fin 16) (run : BitVec 16) (s : State) :
    Released slot run (indices 384) s (releaseRun slot run s) := by
  suffices ∀ (hs : List (Fin 384)) (s : State), hs.Nodup →
      Released slot run hs s (forEach hs (releaseOne slot run) s) from this _ s (List.nodup_finRange 384)
  intro hs
  induction hs with
  | nil =>
    refine fun s _ => ⟨.refl, fun _ => ?_, rfl, fun _ _ => rfl, fun _ => .inr rfl, fun h _ _ hh => ?_⟩
    · rw [if_neg (by simp)]
      rfl
    · cases hh
  | cons h hs ih =>
    intro s nodup
    obtain ⟨hn, nodup⟩ := List.nodup_cons.1 nodup
    exact (releaseOne_spec slot run h s).cons hn (ih _ nodup)

theorem releaseRun_receiver (slot : Fin 16) (run : BitVec 16) (s : State) (h : Fin 384) :
    (releaseRun slot run s).receiver h = releasedRecord slot run (s.receiver h) := by
  rw [(releaseRun_spec slot run s).receiver h, if_pos (List.mem_finRange h)]

/-! ### The due deadlines of a run -/

theorem makeDueOne_receiver (slot : Fin 16) (run : BitVec 16) (h h' : Fin 384) (s : State) :
    (makeDueOne slot run h s).receiver h' =
      if h' = h then dueRecord slot run (dueDeadline s) (s.receiver h) else s.receiver h' := by
  rw [makeDueOne]
  cases hr : s.receiver h with
  | none =>
    dsimp only
    split
    next e => rw [e, hr]; rfl
    next => rfl
  | some r =>
    dsimp only
    rw [dueRecord, Option.map_some]
    split
    · rw [State.putReceiver_receiver]
    · split
      next e => rw [e, hr]
      next => rfl

theorem makeDue_receiver (slot : Fin 16) (run : BitVec 16) (s : State) (h : Fin 384) :
    (makeDue slot run s).receiver h = dueRecord slot run (dueDeadline s) (s.receiver h) := by
  refine forEach_indices_own (n := 384) (get := State.receiver) (I := fun u => u.mge = s.mge)
    (Q := fun _ x y => y = dueRecord slot run (dueDeadline s) x) (fun i u hu => ⟨?_, ?_, fun j hj => ?_⟩) rfl h
  · exact (KeepsAllBut.mge_eq (makeDueOne_keeps (ps := [.receivers]) .refl (by decide)) (by decide) (by decide)
      (by decide) (by decide)).trans hu
  · have same : dueDeadline u = dueDeadline s := by rw [dueDeadline, dueDeadline, hu]
    rw [makeDueOne_receiver, if_pos rfl, same]
  · rw [makeDueOne_receiver, if_neg hj]

end Sys2Proof.Machine
end

section
/-! The close actions of a tour, step by step: its programs are disowned, its channels freed and its live record cleared
(R50, R85). -/

namespace Sys2Proof.Machine

open Sys2Proof

variable {s t u : State}

/-! ### Programs of a plan -/

/-- A program is disowned when an entry of the plan names it (R85 step 4). -/
theorem forEach_disown (entries : List (Fin 4 × Entry)) (s : State) (q : Fin 32) :
    (forEach entries (fun x => disown x.2.program) s).program q =
      if ∃ x ∈ entries, x.2.program = q then { s.program q with owner := none, fallback := none } else s.program q := by
  induction entries generalizing s with
  | nil => rw [if_neg (by simp)]; rfl
  | cons x xs ih =>
    refine (ih (disown x.2.program s)).trans ?_
    rw [disown, State.putProgram_program]
    by_cases here : q = x.2.program
    · subst here
      simp
    · rw [if_neg here]
      simp only [List.mem_cons, exists_eq_or_imp, Ne.symm here, false_or]

/-- The programs of a slot's plan are disowned. -/
def planDisowned (slot : Fin 16) (s : State) (t : State) : State :=
  match (s.tour slot).plan with
  | some p => forEach (planEntries p) (fun x => disown x.2.program) t
  | none => t

theorem planDisowned_keeps (slot : Fin 16) (s t : State) : KeepsAllBut [.programs] t (planDisowned slot s t) := by
  unfold planDisowned
  split
  · exact forEach_keeps (fun _ _ k => disown_keeps k (by decide)) .refl
  · exact .refl

theorem planDisowned_program (slot : Fin 16) (s t : State) (q : Fin 32) :
    (InPlan s slot q → (planDisowned slot s t).program q = { t.program q with owner := none, fallback := none }) ∧
    (¬ InPlan s slot q → (planDisowned slot s t).program q = t.program q) := by
  unfold planDisowned
  cases hp : (s.tour slot).plan with
  | none => exact ⟨fun ⟨_, _, _, h, _⟩ => (by rw [hp] at h; cases h), fun _ => rfl⟩
  | some p =>
    have named : InPlan s slot q ↔ ∃ x ∈ planEntries p, x.2.program = q := by
      constructor
      · rintro ⟨p', e, x, hp', he, hq⟩
        rw [hp] at hp'
        obtain rfl := Option.some.inj hp'
        exact ⟨(e, x), mem_planEntries_iff.2 he, hq⟩
      · rintro ⟨x, hx, rfl⟩
        exact inPlan_of_mem hp hx
    dsimp only
    rw [forEach_disown]
    exact ⟨fun h => if_pos (named.1 h), fun h => if_neg (mt named.2 h)⟩

/-! ### Freed channels -/

/-- A channel as the end of its tour leaves it (R46, R50). -/
def freedChannel (c : Channel) : Channel := { c with phase := .free, program := none, zones := 0#12 }

/-- The channel freed, and the bindings it leaves. -/
theorem freeChannel_channel (ch c : Fin 24) (s : State) :
    (freeChannel ch s).channel c = if c = ch then freedChannel (s.channel ch) else s.channel c := by
  simp only [freeChannel]
  have freed (v : State) (hv : v.channel = s.channel) : ((setZones ch 0#12 v).putChannel ch { (setZones ch 0#12 v).channel ch with
      phase := .free, program := none }).channel c = if c = ch then freedChannel (s.channel ch) else s.channel c := by
    rw [State.putChannel_channel, setZones_channel, setZones_channel, if_pos rfl, hv]
    split <;> rfl
  split
  · exact freed _ rfl
  · exact freed s rfl

theorem freeChannel_program (ch : Fin 24) (s : State) (p : Fin 32) :
    (freeChannel ch s).program p = { s.program p with binding := ((freeChannel ch s).program p).binding } := by
  simp only [freeChannel]
  split
  next q _ =>
    show (unbindProgram q s).program p = { s.program p with binding := ((unbindProgram q s).program p).binding }
    rw [unbindProgram, State.putProgram_program]
    split
    next h => rw [h]
    next => rfl
  next => rfl

theorem freeChannel_queue (ch : Fin 24) (s : State) (z : Fin 12) : ((freeChannel ch s).zone z).queue = (s.zone z).queue := by
  simp only [freeChannel]
  split
  all_goals
    rw [State.putChannel_zone, setZones_zone]
  rfl

/-- Some channels are freed between two states. -/
structure ChannelsFreed (chs : List (Fin 24)) (s t : State) : Prop where
  keeps : KeepsAllBut [.zones, .programs] s t
  channel : ∀ c, t.channel c = if c ∈ chs then freedChannel (s.channel c) else s.channel c
  program : ∀ p, t.program p = { s.program p with binding := (t.program p).binding }
  queue : ∀ z, (t.zone z).queue = (s.zone z).queue

theorem forEach_freeChannel (chs : List (Fin 24)) (s : State) : ChannelsFreed chs s (forEach chs freeChannel s) := by
  induction chs generalizing s with
  | nil => exact ⟨.refl, fun c => by rw [if_neg (by simp)]; rfl, fun _ => rfl, fun _ => rfl⟩
  | cons ch chs ih =>
    obtain ⟨keeps, channel, program, queue⟩ := ih (freeChannel ch s)
    refine ⟨KeepsAllBut.trans (freeChannel_keeps .refl (by decide) (by decide)) keeps, fun c => ?_, fun p => ?_,
      fun z => (queue z).trans (freeChannel_queue ch s z)⟩
    · refine (channel c).trans ?_
      rw [freeChannel_channel]
      by_cases here : c = ch
      · subst here
        simp [freedChannel]
      · simp [here]
    · have hp : (forEach (ch :: chs) freeChannel s).program p = _ := program p
      rw [freeChannel_program] at hp
      exact hp

/-! ### Unbinding a tour -/

/-- The Zone Allocator has unbound a tour between two states (R50). -/
structure Unbound (slot : Fin 16) (s t : State) : Prop where
  keeps : KeepsAllBut [.tours, .zones, .programs] s t
  tour : t.tour slot = { s.tour slot with live := { (s.tour slot).live with
    prevZone := none, window := none, target := none } }
  away : ∀ k, k ≠ slot → t.tour k = s.tour k
  channel : ∀ c, t.channel c =
    if c ∈ tourChannels (s.tour slot).live then freedChannel (s.channel c) else s.channel c
  program : ∀ p, t.program p = { s.program p with binding := (t.program p).binding }
  queue : ∀ z w, w ∈ (t.zone z).queue →
    w ∈ (s.zone z).queue ∧ ((s.tour slot).live.target = some z → w.slot ≠ slot)

/-- A waiting tour taken out of its queue. -/
structure QueueLeft (slot : Fin 16) (s t : State) : Prop where
  keeps : KeepsAllBut [.tours, .zones] s t
  tour : t.tour slot = { s.tour slot with live := { (s.tour slot).live with target := none } }
  away : ∀ k, k ≠ slot → t.tour k = s.tour k
  channel : t.channel = s.channel
  queue : ∀ z w, w ∈ (t.zone z).queue →
    w ∈ (s.zone z).queue ∧ ((s.tour slot).live.target = some z → w.slot ≠ slot)

theorem leaveQueue_spec (slot : Fin 16) (s : State) : QueueLeft slot s (leaveQueue slot s).1 := by
  unfold leaveQueue
  cases ht : (s.tour slot).live.target with
  | none => exact ⟨.refl, (by dsimp only; rw [← ht]), fun _ _ => rfl, rfl, fun z w hw => ⟨hw, fun h => by rw [ht] at h; cases h⟩⟩
  | some z =>
    refine ⟨putLive_keeps (putZone_keeps .refl (by decide)) (by decide), putLive_tour_self _ _ _,
      fun k hk => putLive_tour_ne hk _ _, rfl, fun z' w hw => ?_⟩
    have hw' : w ∈ ((dequeue slot z s).zone z').queue := hw
    rw [dequeue, State.putZone_zone] at hw'
    split at hw'
    next h =>
      obtain ⟨hm, hs⟩ := List.mem_filter.1 hw'
      rw [h]
      exact ⟨hm, fun _ => of_decide_eq_true hs⟩
    next h => exact ⟨hw', fun e => absurd (Option.some.inj (ht.symm.trans e)).symm h⟩

theorem unbindTour_spec (slot : Fin 16) (s : State) : Unbound slot s (unbindTour slot s).1 := by
  have left := leaveQueue_spec slot s
  obtain ⟨v, hv⟩ : ∃ v, v = (leaveQueue slot s).1 := ⟨_, rfl⟩
  have freed := forEach_freeChannel (tourChannels (v.tour slot).live) v
  obtain ⟨w, hw⟩ : ∃ w, w = forEach (tourChannels (v.tour slot).live) freeChannel v := ⟨_, rfl⟩
  have run : (unbindTour slot s).1 =
      w.putLive slot { (w.tour slot).live with prevZone := none, window := none, target := none } := by
    rw [hw, hv]
    rfl
  rw [← hv] at left
  rw [← hw] at freed
  rw [run]
  have tours (k : Fin 16) : w.tour k = v.tour k := freed.keeps.tour_eq (by decide) k
  have programs (p : Fin 32) : v.program p = s.program p := left.keeps.program_eq (by decide) p
  have chs : tourChannels (v.tour slot).live = tourChannels (s.tour slot).live := by rw [left.tour]; rfl
  have keeps : KeepsAllBut [.tours, .zones, .programs] s w :=
    (left.keeps.mono (by decide)).trans (freed.keeps.mono (by decide))
  refine ⟨putLive_keeps keeps (by decide), ?_, fun k hk => ?_, fun c => ?_, fun p => ?_, fun z x hx => ?_⟩
  · rw [putLive_tour_self, tours, left.tour]
  · rw [putLive_tour_ne hk, tours, left.away k hk]
  · show w.channel c = _
    rw [freed.channel, chs, left.channel]
  · show w.program p = { s.program p with binding := (w.program p).binding }
    rw [← programs p]
    exact freed.program p
  · have hx' : x ∈ (w.zone z).queue := hx
    rw [freed.queue] at hx'
    exact left.queue z x hx'

/-! ### The close actions -/

/-- The tour of a slot is closed by the close actions between two states, before the queues are served (R85). -/
structure CloseTaken (silent : Bool) (slot : Fin 16) (s t : State) : Prop where
  keeps : KeepsAllBut [.receivers, .bays, .tours, .programs, .zones, .events, .egress] s t
  live : LiveClosed (s.tour slot).live (t.tour slot).live
  plan : (t.tour slot).plan = (s.tour slot).plan ∧ (t.tour slot).timing = (s.tour slot).timing
  away : ∀ k, k ≠ slot → t.tour k = s.tour k
  receiver : ∀ h, t.receiver h = dueRecord slot (s.tour slot).live.run (dueDeadline s)
    (releasedRecord slot (s.tour slot).live.run (s.receiver h))
  channel : ∀ c, t.channel c =
    if c ∈ tourChannels (s.tour slot).live then freedChannel (s.channel c) else s.channel c
  disowned : ∀ p, InPlan s slot p → (t.program p).owner = none ∧ (t.program p).fallback = none
  owned : ∀ p, ¬ InPlan s slot p → t.program p = { s.program p with binding := (t.program p).binding }
  mixing : ∀ p, SameMixing (s.program p) (t.program p)
  queue : ∀ z w, w ∈ (t.zone z).queue →
    w ∈ (s.zone z).queue ∧ ((s.tour slot).live.target = some z → w.slot ≠ slot)
  reports : Reports s t
  quiet : silent = true → KeepsAllBut [.receivers, .bays, .tours, .programs, .zones] s t
  loud : silent = false → EventsTaken [⟨.tourClosed, s.mge.hubTime, slot.val, some (s.tour slot).live.run,
    (s.tour slot).live.issued * 256 + (s.tour slot).live.returned⟩] s t

/-- The tour's receivers released or due, and its programs disowned (R85 steps 1 to 4). -/
def closeRun (slot : Fin 16) (s : State) : State :=
  planDisowned slot s (makeDue slot (s.tour slot).live.run (releaseRun slot (s.tour slot).live.run s))

/-- The state of the close actions before TOUR_CLOSED is raised (R85 steps 1 to 6). -/
def closeBound (slot : Fin 16) (s : State) : State :=
  let w := (unbindTour slot (closeRun slot s)).1
  w.putLive slot (closedLive (w.tour slot).live)

theorem makeDue_keepsParts (slot : Fin 16) (run : BitVec 16) (s : State) : KeepsAllBut [.receivers] s (makeDue slot run s) :=
  makeDue_keeps .refl (by decide)

theorem closeActions_eq (silent : Bool) (slot : Fin 16) (s : State) : (closeActions silent slot s).1 =
    if silent then closeBound slot s else raiseTour .tourClosed slot
      (detailPair (s.tour slot).live.issued (s.tour slot).live.returned) (closeBound slot s) := by
  have tour := (releaseRun_spec slot (s.tour slot).live.run s).tour
  have issued : ((releaseRun slot (s.tour slot).live.run s).tour slot).live.issued = (s.tour slot).live.issued := by
    rw [tour]
  have returned : ((releaseRun slot (s.tour slot).live.run s).tour slot).live.returned =
      (s.tour slot).live.returned := by
    rw [tour]
  rw [← issued, ← returned]
  rfl

/-- What the first steps of a close leave. -/
structure RunClosed (slot : Fin 16) (s t : State) : Prop where
  keeps : KeepsAllBut [.receivers, .bays, .tours, .programs] s t
  tour : ∃ n, t.tour slot = { s.tour slot with live := { (s.tour slot).live with reserved := n } }
  away : ∀ k, k ≠ slot → t.tour k = s.tour k
  receiver : ∀ h, t.receiver h = dueRecord slot (s.tour slot).live.run (dueDeadline s)
    (releasedRecord slot (s.tour slot).live.run (s.receiver h))
  disowned : ∀ p, InPlan s slot p → t.program p = { s.program p with owner := none, fallback := none }
  owned : ∀ p, ¬ InPlan s slot p → t.program p = s.program p

theorem closeRun_spec (slot : Fin 16) (s : State) : RunClosed slot s (closeRun slot s) := by
  unfold closeRun
  have released := releaseRun_spec slot (s.tour slot).live.run s
  have receivers := releaseRun_receiver slot (s.tour slot).live.run s
  obtain ⟨run, hrun⟩ : ∃ run, run = (s.tour slot).live.run := ⟨_, rfl⟩
  rw [← hrun] at released receivers ⊢
  obtain ⟨v, hv⟩ : ∃ v, v = releaseRun slot run s := ⟨_, rfl⟩
  rw [← hv] at released receivers ⊢
  have due := makeDue_keepsParts slot run v
  have dues := makeDue_receiver slot run v
  obtain ⟨w, hw⟩ : ∃ w, w = makeDue slot run v := ⟨_, rfl⟩
  rw [← hw] at due dues ⊢
  have own := planDisowned_keeps slot s w
  have clock : dueDeadline v = dueDeadline s := by
    have := released.keeps.mge_eq (by decide) (by decide) (by decide) (by decide)
    rw [dueDeadline, dueDeadline, this]
  have base : KeepsAllBut [.receivers, .bays, .tours, .programs] s w :=
    (released.keeps.mono (by decide)).trans (due.mono (by decide))
  have programs (p : Fin 32) : w.program p = s.program p :=
    (due.program_eq (by decide) p).trans (released.keeps.program_eq (by decide) p)
  have tours (k : Fin 16) : (planDisowned slot s w).tour k = v.tour k :=
    (own.tour_eq (by decide) k).trans (due.tour_eq (by decide) k)
  refine ⟨base.trans (own.mono (by decide)), ⟨_, (tours slot).trans released.tour⟩,
    fun k hk => (tours k).trans (released.away k hk), fun h => ?_, fun p hp => ?_, fun p hp => ?_⟩
  · rw [own.receiver_eq (by decide) h, dues, clock, receivers, hrun]
  · rw [(planDisowned_program slot s w p).1 hp, programs]
  · rw [(planDisowned_program slot s w p).2 hp, programs]

theorem closeBound_spec (slot : Fin 16) (s : State) : CloseTaken true slot s (closeBound slot s) := by
  unfold closeBound
  have run := closeRun_spec slot s
  have unbound := unbindTour_spec slot (closeRun slot s)
  obtain ⟨v, hv⟩ : ∃ v, v = closeRun slot s := ⟨_, rfl⟩
  rw [← hv] at run unbound ⊢
  obtain ⟨w, hw⟩ : ∃ w, w = (unbindTour slot v).1 := ⟨_, rfl⟩
  rw [← hw] at unbound
  dsimp only
  rw [← hw]
  have base : KeepsAllBut [.receivers, .bays, .tours, .programs, .zones] s w :=
    (run.keeps.mono (by decide)).trans (unbound.keeps.mono (by decide))
  have keeps : KeepsAllBut [.receivers, .bays, .tours, .programs, .zones] s
      (w.putLive slot (closedLive (w.tour slot).live)) := putLive_keeps base (by decide)
  obtain ⟨n, hn⟩ := run.tour
  have tour : w.tour slot = { s.tour slot with live := { (s.tour slot).live with
      reserved := n, prevZone := none, window := none, target := none } } := by rw [unbound.tour, hn]
  have channels : tourChannels (v.tour slot).live = tourChannels (s.tour slot).live := by rw [hn]; rfl
  refine ⟨keeps.mono (by decide), ?_, ?_, fun k hk => ?_, fun h => ?_, fun c => ?_, fun p hp => ?_, fun p hp => ?_,
    fun p => ?_, fun z x hx => ?_, .of_keeps keeps (by decide), fun _ => keeps, fun h => nomatch h⟩
  · rw [putLive_tour_self, tour]
    exact ⟨rfl, rfl, rfl, fun e => by simp [closedLive], rfl, rfl, rfl, rfl, rfl, rfl, rfl, rfl, rfl, rfl, rfl, rfl, rfl, rfl⟩
  · rw [putLive_tour_self, tour]
    exact ⟨rfl, rfl⟩
  · rw [putLive_tour_ne hk, unbound.away k hk, run.away k hk]
  · show w.receiver h = _
    rw [unbound.keeps.receiver_eq (by decide) h, run.receiver]
  · show w.channel c = _
    rw [unbound.channel, channels, run.keeps.channel_eq (by decide) c]
  · show (w.program p).owner = none ∧ (w.program p).fallback = none
    rw [unbound.program p, run.disowned p hp]
    exact ⟨rfl, rfl⟩
  · show w.program p = { s.program p with binding := (w.program p).binding }
    rw [← run.owned p hp]
    exact unbound.program p
  · show SameMixing (s.program p) (w.program p)
    rw [unbound.program p]
    by_cases hp : InPlan s slot p
    · rw [run.disowned p hp]
      exact ⟨rfl, rfl, rfl, rfl, rfl⟩
    · rw [run.owned p hp]
      exact ⟨rfl, rfl, rfl, rfl, rfl⟩
  · have old := unbound.queue z x hx
    rw [hn] at old
    rw [KeepsAllBut.zone_eq run.keeps (by decide) z] at old
    exact old

theorem closeActions_spec (silent : Bool) (slot : Fin 16) (s : State) :
    CloseTaken silent slot s (closeActions silent slot s).1 := by
  have bound := closeBound_spec slot s
  rw [closeActions_eq]
  obtain ⟨v, hv⟩ : ∃ v, v = closeBound slot s := ⟨_, rfl⟩
  rw [← hv] at bound ⊢
  cases silent with
  | true => exact bound
  | false =>
    have quiet := bound.quiet rfl
    have run : (v.tour slot).live.run = (s.tour slot).live.run := bound.live.2.1
    have rise : KeepsAllBut [.events, .egress] v (raiseTour .tourClosed slot
        (detailPair (s.tour slot).live.issued (s.tour slot).live.returned) v) :=
      raiseEvent_keeps .refl (by decide) (by decide)
    have event : EventsTaken [⟨.tourClosed, s.mge.hubTime, slot.val, some (s.tour slot).live.run,
        (s.tour slot).live.issued * 256 + (s.tour slot).live.returned⟩] s (raiseTour .tourClosed slot
          (detailPair (s.tour slot).live.issued (s.tour slot).live.returned) v) := by
      rw [raiseTour, run]
      exact .raise_of_evq (quiet.evq_eq (by decide)) (quiet .hubTime (by decide))
    rw [if_neg (by decide)]
    obtain ⟨w, hw⟩ : ∃ w, w = raiseTour .tourClosed slot
        (detailPair (s.tour slot).live.issued (s.tour slot).live.returned) v := ⟨_, rfl⟩
    rw [← hw] at rise event ⊢
    have tours (k : Fin 16) : w.tour k = v.tour k := rise.tour_eq (by decide) k
    have programs (p : Fin 32) : w.program p = v.program p := rise.program_eq (by decide) p
    refine ⟨bound.keeps.trans (rise.mono (by decide)), by rw [tours]; exact bound.live, by rw [tours]; exact bound.plan,
      fun k hk => (tours k).trans (bound.away k hk), fun h => (rise.receiver_eq (by decide) h).trans (bound.receiver h),
      fun c => (rise.channel_eq (by decide) c).trans (bound.channel c), fun p => programs p ▸ bound.disowned p,
      fun p => programs p ▸ bound.owned p, fun p => programs p ▸ bound.mixing p,
      fun z x hx => bound.queue z x (by rwa [← rise.zone_eq (by decide) z]),
      bound.reports.trans ?_, nofun, fun _ => event⟩
    rw [hw]
    exact .event _ _ _ _ _

end Sys2Proof.Machine
end

section
/-! One close with its service and its due deadlines, and the requests TOUR END and TOUR ABORT (R81, R84, R85). -/

namespace Sys2Proof.Machine

open Sys2Proof

variable {s t u : State}

theorem mem_tourChannels_iff {l : TourLive} {ch : Fin 24} :
    ch ∈ tourChannels l ↔ ∃ e, l.channels.get e = some ch := by
  unfold tourChannels
  rw [List.mem_filterMap]
  simp only [mem_items_iff, id]
  exact ⟨fun ⟨_, ⟨e, he⟩, hx⟩ => ⟨e, he.trans hx⟩, fun ⟨e, he⟩ => ⟨_, ⟨e, he⟩, rfl⟩⟩

/-! ### Records -/

/-- The close of a record, and then the judgement of its deadline, are what a close makes of it (R105 to R107). -/
theorem receiverClosed_judged (slot : Fin 16) (run : BitVec 16) (deadline time : Nat) (r : Receiver) :
    ∃ r', judgedRecord time (dueRecord slot run deadline (releasedRecord slot run (some r))) = some r' ∧
      ReceiverClosed slot run deadline time r r' := by
  by_cases reserved : ofRun r .reserved slot run = true
  · obtain ⟨hp, hm⟩ := ofRun_iff.1 reserved
    have mine : r.tour.map (fun x => (x.slot, x.run)) = some (slot, run) := hm
    refine ⟨{ r with phase := .docked, tour := none, short := false, required := none }, ?_, ?_⟩
    · rw [releasedRecord, Option.map_some, if_pos reserved, dueRecord, Option.map_some,
        if_neg fun h => by simpa using (ofRun_iff.1 h).1, judgedRecord, Option.map_some,
        if_neg fun h => by simpa using (deadlineReached_iff.1 h).1]
    · rw [ReceiverClosed, if_pos ⟨mine, hp⟩]
  by_cases issued : ofRun r .issued slot run = true
  · obtain ⟨hp, hm⟩ := ofRun_iff.1 issued
    have mine : r.tour.map (fun x => (x.slot, x.run)) = some (slot, run) := hm
    refine ⟨{ r with phase := if deadline ≤ time then .overdue else .due, deadline := some deadline }, ?_, ?_⟩
    · by_cases hd : deadline ≤ time <;>
        simp [releasedRecord, reserved, dueRecord, issued, judgedRecord, deadlineReached, hd]
    · rw [ReceiverClosed, if_neg (by simp [hp]), if_pos ⟨mine, hp⟩]
  · have none_of (phase : RxState) (hn : ¬ ofRun r phase slot run = true) :
        ¬ (r.tour.map (fun x => (x.slot, x.run)) = some (slot, run) ∧ r.phase = phase) :=
      fun ⟨hm, hp⟩ => hn (ofRun_iff.2 ⟨hp, hm⟩)
    refine ⟨if deadlineReached time r then { r with phase := .overdue } else r, ?_, ?_⟩
    · simp [releasedRecord, reserved, dueRecord, issued, judgedRecord]
    · rw [ReceiverClosed, if_neg (none_of _ reserved), if_neg (none_of _ issued)]
      by_cases hp : r.phase = .due
      · rw [if_pos hp]
        cases hd : r.deadline with
        | none => 
          rw [if_neg (by simp [deadlineReached, hd])]
          simp only [Option.map_none, Option.getD_none]
          rw [← hp, ← hd]
        | some d =>
          by_cases hle : d ≤ time
          · simp [deadlineReached, hp, hd, hle]
          · rw [if_neg (by simp [deadlineReached, hd, hle])]
            simp only [Option.map_some, Option.getD_some, if_neg hle]
            rw [← hp, ← hd]
      · rw [if_neg hp, if_neg (by simp [deadlineReached, hp])]

/-- A record that a release has already dealt with. -/
theorem ReceiverClosed.of_released {slot : Fin 16} {run : BitVec 16} {deadline time : Nat} {r r₁ r' : Receiver}
    (hr : releasedRecord slot run (some r) = some r₁) (h : ReceiverClosed slot run deadline time r₁ r') :
    ReceiverClosed slot run deadline time r r' := by
  rw [releasedRecord, Option.map_some, Option.some.injEq] at hr
  by_cases reserved : ofRun r .reserved slot run = true
  · obtain ⟨hp, hm⟩ := ofRun_iff.1 reserved
    have mine : r.tour.map (fun x => (x.slot, x.run)) = some (slot, run) := hm
    rw [if_pos reserved] at hr
    rw [← hr, ReceiverClosed, if_neg (by simp), if_neg (by simp)] at h
    rw [ReceiverClosed, if_pos ⟨mine, hp⟩, h]
    rfl
  · rw [if_neg reserved] at hr
    rwa [hr]

/-! ### One close -/

/-- One close, with the service of the queues and the deadlines judged: what it leaves and the event that comes first. -/
structure TourEnded (slot : Fin 16) (s t : State) : Prop where
  closed : TourClosed slot s t
  event : ∃ more, EventsTaken (⟨.tourClosed, s.mge.hubTime, slot.val, some (s.tour slot).live.run,
    (s.tour slot).live.issued * 256 + (s.tour slot).live.returned⟩ :: more) s t
  keeps : KeepsAllBut [.receivers, .bays, .tours, .programs, .zones, .events, .egress] s t

/-- What a tour's close says is not about the bays, the rack sender and the events. -/
theorem TourClosed.of_keeps {ps : List Part} {slot : Fin 16} (h : TourClosed slot s t) (k : KeepsAllBut ps t u)
    (hp : (Part.tours ∉ ps ∧ Part.receivers ∉ ps) ∧ Part.programs ∉ ps ∧ Part.zones ∉ ps) : TourClosed slot s u := by
  have tours (k' : Fin 16) : u.tour k' = t.tour k' := k.tour_eq hp.1.1 k'
  have receivers (i : Fin 384) : u.receiver i = t.receiver i := k.receiver_eq hp.1.2 i
  have programs (p : Fin 32) : u.program p = t.program p := k.program_eq hp.2.1 p
  have channels (c : Fin 24) : u.channel c = t.channel c := k.channel_eq hp.2.2 c
  unfold TourClosed
  simp only [tours, receivers, programs, channels]
  exact h

theorem closeTour_ended (slot : Fin 16) (s : State) : TourEnded slot s (closeTour slot s) := by
  unfold closeTour
  have taken := closeActions_spec false slot s
  obtain ⟨r, hr⟩ : ∃ r, r = closeActions false slot s := ⟨_, rfl⟩
  rw [← hr] at taken
  dsimp only
  rw [← hr]
  have served := serveZones_served r.2 r.1
  obtain ⟨v, hv⟩ : ∃ v, v = serveZones r.2 r.1 := ⟨_, rfl⟩
  rw [← hv] at served ⊢
  obtain ⟨records, judged⟩ := judgeDeadlines_spec v
  have judge := judgeDeadlines_keepsParts v
  obtain ⟨t, ht⟩ : ∃ t, t = judgeDeadlines v := ⟨_, rfl⟩
  rw [← ht] at records judged judge ⊢
  have zone : (r.1.tour slot).live.zone = none := taken.live.2.2.2.2.1
  have tour : t.tour slot = r.1.tour slot := (judge.tour_eq (by decide) slot).trans (served.unzoned slot zone)
  have time : v.mge.hubTime = s.mge.hubTime :=
    (served.keeps .hubTime (by decide)).trans (taken.keeps .hubTime (by decide))
  have programs (p : Fin 32) : t.program p = r.1.program p :=
    (judge.program_eq (by decide) p).trans (served.keeps.program_eq (by decide) p)
  have channels (c : Fin 24) : t.channel c = v.channel c := judge.channel_eq (by decide) c
  have receivers (h : Fin 384) : t.receiver h = judgedRecord s.mge.hubTime
      (dueRecord slot (s.tour slot).live.run (dueDeadline s) (releasedRecord slot (s.tour slot).live.run (s.receiver h))) := by
    rw [records, time, served.keeps.receiver_eq (by decide) h, taken.receiver]
  refine ⟨⟨tour ▸ taken.live, tour ▸ taken.plan.1, tour ▸ taken.plan.2, fun h hn => ?_, fun h x hx => ?_,
    fun p e x hp hx => ?_, fun e ch hch => ?_⟩, ?_, ?_⟩
  · rw [receivers, hn]
    rfl
  · rw [receivers, hx]
    exact receiverClosed_judged _ _ _ _ x
  · rw [programs]
    exact taken.disowned _ ⟨p, e, x, hp, hx, rfl⟩
  · have freed : r.1.channel ch = freedChannel (s.channel ch) := by
      rw [taken.channel, if_pos (mem_tourChannels_iff.2 ⟨e, hch⟩)]
    have kept := served.channel ch
    rw [freed] at kept
    rw [channels]
    refine ⟨by rw [kept]; rfl, by rw [kept]; rfl, by rw [kept]; rfl, fun alone => ?_⟩
    rw [served.away ch ?_, freed]
    · rfl
    · rintro ⟨k, hz, hc⟩
      by_cases hk : k = slot
      · rw [hk, zone] at hz
        cases hz
      · rw [taken.away k hk] at hc
        obtain ⟨e', he'⟩ := mem_tourChannels_iff.1 hc
        exact alone k hk e' he'
  · obtain ⟨enables, more, events⟩ := served.reports
    exact ⟨_, ((taken.loud rfl).append events taken.reports.enables).append judged
      (enables.trans taken.reports.enables)⟩
  · exact (taken.keeps.trans (served.keeps.mono (by decide))).trans (judge.mono (by decide))

/-! ### TOUR END -/

/-- The state of TOUR END once the reservations are released and the timers loaded (R81). -/
def closingTour (slot : Fin 16) (hold : Option Nat) (s : State) : State :=
  let t := releaseRun slot (s.tour slot).live.run s
  t.putLive slot { (t.tour slot).live with
    phase := .closing, wait := some ((timingOf (t.tour slot)).maxWait * 250), hold := hold }

/-- The close hold that TOUR END loads (R81). -/
def loadedHold (slot : Fin 16) (s : State) : Option Nat :=
  if guideVoice s slot then none else some ((timingOf (s.tour slot)).closeHold * 250)

theorem endTour_eq (slot : Fin 16) (s : State) : endTour slot s =
    if loadedHold slot s = some 0 then closeTour slot (closingTour slot (loadedHold slot s) s)
    else closingTour slot (loadedHold slot s) s := by
  have released := releaseRun_spec slot (s.tour slot).live.run s
  unfold endTour closingTour
  obtain ⟨t, ht⟩ : ∃ t, t = releaseRun slot (s.tour slot).live.run s := ⟨_, rfl⟩
  rw [← ht] at released ⊢
  have timing : timingOf (t.tour slot) = timingOf (s.tour slot) := by rw [released.tour]; rfl
  have voice : guideVoice t slot = guideVoice s slot := by
    have sources (i : Fin 48) : t.source i = s.source i := released.keeps.source_eq (by decide) i
    unfold guideVoice
    rw [released.tour]
    unfold voiceOf
    simp only [sources]
  have hold : loadedHold slot s =
      if guideVoice t slot then none else some ((timingOf (t.tour slot)).closeHold * 250) := by
    rw [voice, timing]
    rfl
  rw [hold]
  rfl

theorem closingTour_tour (slot : Fin 16) (hold : Option Nat) (s : State) :
    (closingTour slot hold s).tour slot = { s.tour slot with live := { (s.tour slot).live with
      phase := .closing, hold := hold, wait := some ((timingOf (s.tour slot)).maxWait * 250)
      reserved := (s.tour slot).live.reserved - ((indices 384).filter fun h =>
        recordOfRun .reserved slot (s.tour slot).live.run (s.receiver h)).length } } := by
  have released := releaseRun_spec slot (s.tour slot).live.run s
  unfold closingTour
  dsimp only
  rw [putLive_tour_self, released.tour]
  rfl

theorem closingTour_keeps (slot : Fin 16) (hold : Option Nat) (s : State) :
    KeepsAllBut [.receivers, .bays, .tours] s (closingTour slot hold s) :=
  putLive_keeps (releaseRun_spec slot (s.tour slot).live.run s).keeps (by decide)

theorem closingTour_receiver (slot : Fin 16) (hold : Option Nat) (s : State) (h : Fin 384) :
    (closingTour slot hold s).receiver h = releasedRecord slot (s.tour slot).live.run (s.receiver h) := by
  have put : KeepsAllBut [.tours] (releaseRun slot (s.tour slot).live.run s) (closingTour slot hold s) :=
    putLive_keeps .refl (by decide)
  rw [put.receiver_eq (by decide) h, releaseRun_receiver]

theorem closingTour_away (slot : Fin 16) (hold : Option Nat) (s : State) {k : Fin 16} (hk : k ≠ slot) :
    (closingTour slot hold s).tour k = s.tour k :=
  (putLive_tour_ne hk _ _).trans ((releaseRun_spec slot (s.tour slot).live.run s).away k hk)

/-- A tour that TOUR END closes at once is closed. -/
theorem TourEnded.of_closing {slot : Fin 16} {hold : Option Nat} (h : TourEnded slot (closingTour slot hold s) t) :
    TourEnded slot s t := by
  have tour := closingTour_tour slot hold s
  have keeps := closingTour_keeps slot hold s
  have receivers := closingTour_receiver slot hold s
  have away := fun k => closingTour_away slot hold s (k := k)
  obtain ⟨u, hu⟩ : ∃ u, u = closingTour slot hold s := ⟨_, rfl⟩
  rw [← hu] at h tour keeps receivers away
  obtain ⟨⟨live, plan, timing, absent, present, programs, channels⟩, ⟨more, events⟩, kept⟩ := h
  have clock : u.mge = s.mge := keeps.mge_eq (by decide) (by decide) (by decide) (by decide)
  have deadline : dueDeadline u = dueDeadline s := by rw [dueDeadline, dueDeadline, clock]
  rw [tour] at live plan timing programs channels events
  refine ⟨⟨live, plan, timing, fun h hn => absent h (by rw [receivers, hn]; rfl), fun h r hr => ?_, programs,
    fun e ch hch => ?_⟩, ⟨more, ?_⟩, (keeps.mono (by decide)).trans kept⟩
  · have hu : u.receiver h = releasedRecord slot (s.tour slot).live.run (some r) := by rw [receivers, hr]
    obtain ⟨r₁, hr₁⟩ : ∃ r₁, releasedRecord slot (s.tour slot).live.run (some r) = some r₁ := ⟨_, rfl⟩
    obtain ⟨r', ht, closed⟩ := present h r₁ (hu.trans hr₁)
    rw [tour, deadline, clock] at closed
    exact ⟨r', ht, closed.of_released hr₁⟩
  · obtain ⟨phase, program, seq, zones⟩ := channels e ch hch
    rw [keeps.channel_eq (by decide) ch] at seq
    exact ⟨phase, program, seq, fun alone => zones fun k hk e' => by rw [away k hk]; exact alone k hk e'⟩
  · rw [clock] at events
    exact events.of_evq (keeps.evq_eq (by decide)).symm

/-! ### The requests -/

/-- A closed tour, after the rack sender has acted. -/
theorem TourEnded.rackSender {slot : Fin 16} (h : TourEnded slot s t) :
    TourClosed slot s (rackSender t) ∧
    (∃ more, EventsTaken (⟨.tourClosed, s.mge.hubTime, slot.val, some (s.tour slot).live.run,
      (s.tour slot).live.issued * 256 + (s.tour slot).live.returned⟩ :: more) s (Machine.rackSender t)) ∧
    KeepsAllBut [.receivers, .bays, .tours, .programs, .zones, .events, .egress, .sender] s (Machine.rackSender t) := by
  have sent := rackSender_keepsParts t
  obtain ⟨more, events⟩ := h.event
  exact ⟨h.closed.of_keeps sent (by decide), ⟨more, events.to_evq (sent.evq_eq (by decide))⟩,
    (h.keeps.mono (by decide)).trans (sent.mono (by decide))⟩

/-- The counts of a closed tour are those it had. -/
theorem TourEnded.counts {slot : Fin 16} (h : TourEnded slot s t) :
    countBytes (t.tour slot).live = countBytes (s.tour slot).live := by
  obtain ⟨-, -, -, -, -, -, -, -, -, -, -, -, -, -, issued, returned, -, -⟩ := h.closed.1
  rw [countBytes, countBytes, issued, returned]

theorem tourEnd_of_idle {a : List Byte} {slot : Fin 16} (h : byteAt a 0 = slot.val)
    (hp : (s.tour slot).live.phase = .free ∨ (s.tour slot).live.phase = .planned) :
    tourEnd a s = refuse .wrongState s := by
  unfold tourEnd
  rw [toId_val slot h]
  dsimp only
  rcases hp with hp | hp <;> rw [hp]

theorem tourEnd_of_closing {a : List Byte} {slot : Fin 16} (h : byteAt a 0 = slot.val)
    (hp : (s.tour slot).live.phase = .closing) : tourEnd a s = ⟨.done, 3#8 :: countBytes (s.tour slot).live, s⟩ := by
  unfold tourEnd
  rw [toId_val slot h]
  dsimp only
  rw [hp]
  dsimp only
  rw [endReply, hp]
  rfl

theorem tourEnd_of_live {a : List Byte} {slot : Fin 16} (h : byteAt a 0 = slot.val)
    (hp : (s.tour slot).live.phase = .live) : tourEnd a s = endReply slot (endTour slot s) := by
  unfold tourEnd
  rw [toId_val slot h]
  dsimp only
  rw [hp]

theorem tourAbort_of_slot {a : List Byte} {slot : Fin 16} (h : byteAt a 0 = slot.val) : tourAbort a s =
    if isRunning (s.tour slot) then
      ⟨.done, countBytes ((closeTour slot s).tour slot).live, closeTour slot s⟩ else refuse .wrongState s := by
  rw [tourAbort, toId_val slot h]

theorem endReply_ended {slot : Fin 16} (h : TourEnded slot s t) : endReply slot t =
    ⟨.done, 1#8 :: countBytes (s.tour slot).live, t⟩ := by
  rw [endReply, h.counts, h.closed.1.1]
  rfl

theorem endReply_closing (slot : Fin 16) (hold : Option Nat) (s : State) : endReply slot (closingTour slot hold s) =
    ⟨.done, 3#8 :: countBytes (s.tour slot).live, closingTour slot hold s⟩ := by
  rw [endReply, closingTour_tour]
  rfl

/-- A tour made CLOSING, after the rack sender has acted (R81, R105). -/
theorem closingTour_sent {slot : Fin 16} (hold : Option Nat) (s : State) :
    let u := rackSender (closingTour slot hold s)
    let mine (r : Receiver) := r.phase = .reserved ∧ r.tour.map (fun x => (x.slot, x.run)) = some (slot, (s.tour slot).live.run)
    (u.tour slot).plan = (s.tour slot).plan ∧ (u.tour slot).timing = (s.tour slot).timing ∧
    (∃ freed : List (Fin 384), freed.Nodup ∧ (∀ h, h ∈ freed ↔ ∃ r, s.receiver h = some r ∧ mine r) ∧
      (u.tour slot).live = { (s.tour slot).live with
        phase := .closing, reserved := (s.tour slot).live.reserved - freed.length
        wait := some ((timingOf (s.tour slot)).maxWait * 250), hold := hold }) ∧
    (∀ k, k ≠ slot → u.tour k = s.tour k) ∧
    (∀ h, s.receiver h = none → u.receiver h = none) ∧
    (∀ h r, s.receiver h = some r →
      (mine r → u.receiver h = some { r with phase := .docked, tour := none, short := false, required := none } ∧
        ∀ b, r.bay = some b → (u.bay b).assign = none) ∧
      (¬ mine r → u.receiver h = some r)) ∧
    KeepsAllBut [.receivers, .bays, .tours, .sender, .egress] s u := by
  intro u mine
  have released := releaseRun_spec slot (s.tour slot).live.run s
  have put : KeepsAllBut [.tours] (releaseRun slot (s.tour slot).live.run s) (closingTour slot hold s) :=
    putLive_keeps .refl (by decide)
  have tour := closingTour_tour slot hold s
  have away := fun k => closingTour_away slot hold s (k := k)
  have records := closingTour_receiver slot hold s
  have keeps := closingTour_keeps slot hold s
  have sent := rackSender_keepsParts (closingTour slot hold s)
  have bays := rackSender_bay (closingTour slot hold s)
  obtain ⟨v, hv⟩ : ∃ v, v = closingTour slot hold s := ⟨_, rfl⟩
  have hu : u = rackSender v := by rw [hv]
  rw [← hv, ← hu] at sent bays
  rw [← hv] at tour away records keeps put
  have tours (k : Fin 16) : u.tour k = v.tour k := sent.tour_eq (by decide) k
  have receivers (h : Fin 384) : u.receiver h = releasedRecord slot (s.tour slot).live.run (s.receiver h) :=
    (sent.receiver_eq (by decide) h).trans (records h)
  refine ⟨by rw [tours, tour], by rw [tours, tour], ⟨_, (List.nodup_finRange 384).filter _, fun h => ?_, by rw [tours, tour]⟩,
    fun k hk => (tours k).trans (away k hk), fun h hn => ?_, fun h r hr => ⟨fun hm => ⟨?_, fun b hb => ?_⟩, fun hm => ?_⟩,
    (keeps.mono (by decide)).trans (sent.mono (by decide))⟩
  · rw [List.mem_filter, recordOfRun_iff]
    simp only [List.mem_finRange, true_and]
    rfl
  · rw [receivers, hn]
    rfl
  · rw [receivers, hr, releasedRecord, Option.map_some, if_pos (ofRun_iff.2 hm)]
  · obtain ⟨p, hp⟩ := bays b
    rw [hp]
    show (v.bay b).assign = none
    rw [put.bay_eq (by decide) b]
    exact released.freed h r b (List.mem_finRange h) hr (ofRun_iff.2 hm) hb
  · rw [receivers, hr, releasedRecord, Option.map_some, if_neg (mt ofRun_iff.1 hm)]

/-- Settles O37: TOUR END by the phase it finds and by the hold it loads, and TOUR ABORT. -/
theorem tourEndAndAbort : Obligations.TourEndAndAbort := by
  unfold Obligations.TourEndAndAbort
  intro s req a refused
  refine ⟨fun serving hbad => ?_, fun serving hbad => ?_, fun slot hs => ?_⟩
  · have out : tourEnd a s = refuse .badArgument s := by rw [tourEnd, toId_eq_none.2 hbad]
    exact exec_servingRacks (by rfl) serving out
  · have out : tourAbort a s = refuse .badArgument s := by rw [tourAbort, toId_eq_none.2 hbad]
    exact exec_servingRacks (by rfl) serving out
  intro t counts closedTo
  have ended := endTour_eq slot s
  refine ⟨fun serving => ⟨fun hp => ?_, fun hp => ?_, fun hp => ?_⟩, fun serving => ⟨fun hp => ?_, fun hp => ?_⟩⟩
  · exact exec_servingRacks (by rfl) serving (tourEnd_of_idle hs hp)
  · exact exec_servingRacks (by rfl) serving (tourEnd_of_closing hs hp)
  · intro quiet mine timing
    have live := tourEnd_of_live (s := s) hs hp
    rw [endTour_eq] at live
    refine ⟨fun ⟨hq, hh⟩ => ?_, fun hn => ?_⟩
    · have now : loadedHold slot s = some 0 := by
        rw [loadedHold, if_neg (by rw [hq]; decide), hh]
      have closed := (closeTour_ended slot (closingTour slot (loadedHold slot s) s)).of_closing
      have out := (live.trans (congrArg (endReply slot) (if_pos now))).trans (endReply_ended closed)
      have run := exec_servingRacks (c := .tourEnd) (by rfl) serving out
      dsimp only at run
      exact ⟨_, run, closed.rackSender⟩
    · have later : ¬ loadedHold slot s = some 0 := by
        rw [loadedHold]
        split
        · nofun
        next hv =>
          refine fun h => hn ⟨Bool.eq_false_iff.2 hv, ?_⟩
          have zero := Option.some.inj h
          show (timingOf (s.tour slot)).closeHold = 0
          omega
      have out := (live.trans (congrArg (endReply slot) (if_neg later))).trans (endReply_closing slot _ s)
      have run := exec_servingRacks (c := .tourEnd) (by rfl) serving out
      dsimp only at run
      exact ⟨_, run, closingTour_sent _ s⟩
  · have out : tourAbort a s = refuse .wrongState s := by
      rw [tourAbort_of_slot hs, if_neg]
      rw [isRunning_iff]
      rcases hp with hp | hp <;> rw [hp] <;> decide
    exact exec_servingRacks (by rfl) serving out
  · have closed := closeTour_ended slot s
    have out : tourAbort a s = ⟨.done, counts, closeTour slot s⟩ := by
      rw [tourAbort_of_slot hs, if_pos (isRunning_iff.2 hp), closed.counts]
      rfl
    have run := exec_servingRacks (c := .tourAbort) (by rfl) serving out
    dsimp only at run
    exact ⟨_, run, closed.rackSender⟩

end Sys2Proof.Machine
end

section
/-! Handover, exactly: the previous zone dropped, a zone granted, and the service of wait queues as a run of grants to the
heads of queues (R52, R54, R57, R58). -/

namespace Sys2Proof.Machine

open Sys2Proof

variable {s t u : State}

/-! ### Zone sets of a tour's channels -/

/-- Some channels take the zone set that `g` makes of theirs. -/
structure ZonesWritten (chs : List (Fin 24)) (g : ZoneSet → ZoneSet) (s t : State) : Prop where
  keeps : KeepsAllBut [.zones] s t
  channel : ∀ c, t.channel c = if c ∈ chs then { s.channel c with zones := g (s.channel c).zones } else s.channel c
  queue : ∀ z, (t.zone z).queue = (s.zone z).queue
  counted : ZonesCounted s → ZonesCounted t

theorem forEach_setZones {g : ZoneSet → ZoneSet} (hg : ∀ zs, g (g zs) = g zs) (chs : List (Fin 24)) (s : State) :
    ZonesWritten chs g s (forEach chs (fun ch u => setZones ch (g (u.channel ch).zones) u) s) := by
  induction chs generalizing s with
  | nil => exact ⟨.refl, fun c => by rw [if_neg (by simp)]; rfl, fun _ => rfl, id⟩
  | cons ch chs ih =>
    obtain ⟨keeps, channel, queue, counted⟩ := ih (setZones ch (g (s.channel ch).zones) s)
    refine ⟨KeepsAllBut.trans (setZones_keeps .refl (by decide)) keeps, fun c => ?_, fun z => ?_,
      fun h => counted (zonesCounted_setZones _ _ h)⟩
    · refine (channel c).trans ?_
      rw [setZones_channel]
      by_cases here : c = ch
      · subst here
        simp [hg]
      · simp [here]
    · refine (queue z).trans ?_
      rw [setZones_zone]

theorem setTourZones_written (slot : Fin 16) (zs : ZoneSet) (s : State) :
    ZonesWritten (tourChannels (s.tour slot).live) (fun _ => zs) s (setTourZones slot zs s) :=
  forEach_setZones (g := fun _ => zs) (fun _ => rfl) _ s

/-! ### The previous zone dropped -/

/-- The previous zone of a slot's tour is dropped between two states (R54). -/
structure Dropped (slot : Fin 16) (p : Fin 12) (s t : State) : Prop where
  keeps : KeepsAllBut [.tours, .zones, .events, .egress] s t
  tour : t.tour slot = { s.tour slot with live := { (s.tour slot).live with prevZone := none, window := none } }
  away : ∀ k, k ≠ slot → t.tour k = s.tour k
  channel : ∀ c, t.channel c = if c ∈ tourChannels (s.tour slot).live
    then { s.channel c with zones := (s.channel c).zones &&& ~~~zoneBit p } else s.channel c
  queue : ∀ z, (t.zone z).queue = (s.zone z).queue
  counted : ZonesCounted s → ZonesCounted t
  events : EventsTaken [⟨.handoverDone, s.mge.hubTime, slot.val, some (s.tour slot).live.run, p.val⟩] s t

theorem dropPrevious_of_none {slot : Fin 16} (h : (s.tour slot).live.prevZone = none) : dropPrevious slot s = s := by
  unfold dropPrevious
  rw [h]

theorem dropPrevious_spec {slot : Fin 16} {p : Fin 12} (h : (s.tour slot).live.prevZone = some p) :
    Dropped slot p s (dropPrevious slot s) := by
  have run : dropPrevious slot s = raiseTour .handoverDone slot p.val
      ((forEach (tourChannels (s.tour slot).live)
        (fun ch u => setZones ch ((u.channel ch).zones &&& ~~~zoneBit p) u) s).putLive slot
        { ((forEach (tourChannels (s.tour slot).live)
          (fun ch u => setZones ch ((u.channel ch).zones &&& ~~~zoneBit p) u) s).tour slot).live with
          prevZone := none, window := none }) := by
    unfold dropPrevious
    rw [h]
  have written := forEach_setZones (g := fun zs => zs &&& ~~~zoneBit p) (fun zs => by rw [BitVec.and_assoc, BitVec.and_self])
    (tourChannels (s.tour slot).live) s
  rw [run]
  obtain ⟨v, hv⟩ : ∃ v, v = forEach (tourChannels (s.tour slot).live)
    (fun ch u => setZones ch ((u.channel ch).zones &&& ~~~zoneBit p) u) s := ⟨_, rfl⟩
  rw [← hv] at written ⊢
  have tours (k : Fin 16) : v.tour k = s.tour k := written.keeps.tour_eq (by decide) k
  obtain ⟨w, hw⟩ : ∃ w, w = v.putLive slot { (v.tour slot).live with prevZone := none, window := none } := ⟨_, rfl⟩
  have put : KeepsAllBut [.tours] v w := hw ▸ putLive_keeps .refl (by decide)
  have here : w.tour slot = { s.tour slot with live := { (s.tour slot).live with prevZone := none, window := none } } := by
    rw [hw, putLive_tour_self, tours]
  have there {k : Fin 16} (hk : k ≠ slot) : w.tour k = s.tour k := by rw [hw, putLive_tour_ne hk, tours]
  rw [← hw]
  have rise : KeepsAllBut [.events, .egress] w (raiseTour .handoverDone slot p.val w) :=
    raiseEvent_keeps .refl (by decide) (by decide)
  have base : KeepsAllBut [.tours, .zones] s w := (written.keeps.mono (by decide)).trans (put.mono (by decide))
  have event : EventsTaken [⟨.handoverDone, s.mge.hubTime, slot.val, some (s.tour slot).live.run, p.val⟩] s
      (raiseTour .handoverDone slot p.val w) := by
    rw [raiseTour, here]
    exact .raise_of_evq (base.evq_eq (by decide)) (base .hubTime (by decide))
  obtain ⟨t, ht⟩ : ∃ t, t = raiseTour .handoverDone slot p.val w := ⟨_, rfl⟩
  rw [← ht] at rise event ⊢
  have zones (z : Fin 12) : t.zone z = v.zone z := (rise.zone_eq (by decide) z).trans (put.zone_eq (by decide) z)
  have channels (c : Fin 24) : t.channel c = v.channel c :=
    (rise.channel_eq (by decide) c).trans (put.channel_eq (by decide) c)
  refine ⟨(base.mono (by decide)).trans (rise.mono (by decide)), (rise.tour_eq (by decide) slot).trans here,
    fun k hk => (rise.tour_eq (by decide) k).trans (there hk), fun c => (channels c).trans (written.channel c),
    fun z => by rw [zones]; exact written.queue z, fun hc => ?_, event⟩
  exact zonesCounted_congr (fun z => by rw [zones]) (fun c => by rw [channels]) (written.counted hc)

/-! ### A grant -/

/-- The window of a slot's timing in mix points (R52). -/
def grantWindow (t : Tour) : Nat := (timingOf t).window / 4

/-- A zone is granted to a slot's tour between two states (R52). -/
structure ZoneGranted (slot : Fin 16) (z cur : Fin 12) (s t : State) : Prop where
  keeps : KeepsAllBut [.tours, .zones, .events, .egress] s t
  tour : t.tour slot = { s.tour slot with live := { (s.tour slot).live with
    zone := some z, target := none
    prevZone := if grantWindow (s.tour slot) = 0 then none else some cur
    window := if grantWindow (s.tour slot) = 0 then none else some (grantWindow (s.tour slot)) } }
  away : ∀ k, k ≠ slot → t.tour k = s.tour k
  channel : ∀ c, t.channel c = if c ∈ tourChannels (s.tour slot).live
    then { s.channel c with zones := if grantWindow (s.tour slot) = 0
      then (zoneBit cur ||| zoneBit z) &&& ~~~zoneBit cur else zoneBit cur ||| zoneBit z } else s.channel c
  queue : ∀ y, (t.zone y).queue = if y = z then (s.zone z).queue.filter (fun w => decide (w.slot ≠ slot))
    else (s.zone y).queue
  counted : ZonesCounted s → ZonesCounted t
  events : EventsTaken (if grantWindow (s.tour slot) = 0
    then [⟨.handoverDone, s.mge.hubTime, slot.val, some (s.tour slot).live.run, cur.val⟩] else []) s t

theorem grant_of_none {slot : Fin 16} {z : Fin 12} (h : (s.tour slot).live.zone = none) : grant slot z s = (s, 0#12) := by
  unfold grant
  rw [h]

/-- The state of a grant before the previous zone may be dropped. -/
def zoneEntered (slot : Fin 16) (z cur : Fin 12) (s : State) : State :=
  let t := dequeue slot z (setTourZones slot (zoneBit cur ||| zoneBit z) s)
  t.putLive slot { (t.tour slot).live with
    prevZone := some cur, zone := some z, target := none, window := some (grantWindow (t.tour slot)) }

theorem dequeue_queue (slot : Fin 16) (z y : Fin 12) (s : State) : ((dequeue slot z s).zone y).queue =
    if y = z then (s.zone z).queue.filter (fun w => decide (w.slot ≠ slot)) else (s.zone y).queue := by
  rw [dequeue, State.putZone_zone]
  split <;> rfl

theorem dequeue_carried (slot : Fin 16) (z y : Fin 12) (s : State) :
    ((dequeue slot z s).zone y).carried = (s.zone y).carried := by
  rw [dequeue, State.putZone_zone]
  split
  next h => rw [h]
  next => rfl

/-- The zone entered, with both zones carried (R52). -/
structure ZoneEntered (slot : Fin 16) (z cur : Fin 12) (s t : State) : Prop where
  keeps : KeepsAllBut [.tours, .zones] s t
  tour : t.tour slot = { s.tour slot with live := { (s.tour slot).live with
    prevZone := some cur, zone := some z, target := none, window := some (grantWindow (s.tour slot)) } }
  away : ∀ k, k ≠ slot → t.tour k = s.tour k
  channel : ∀ c, t.channel c = if c ∈ tourChannels (s.tour slot).live
    then { s.channel c with zones := zoneBit cur ||| zoneBit z } else s.channel c
  queue : ∀ y, (t.zone y).queue = if y = z then (s.zone z).queue.filter (fun w => decide (w.slot ≠ slot))
    else (s.zone y).queue
  counted : ZonesCounted s → ZonesCounted t

theorem zoneEntered_spec (slot : Fin 16) (z cur : Fin 12) (s : State) :
    ZoneEntered slot z cur s (zoneEntered slot z cur s) := by
  unfold zoneEntered
  have written := setTourZones_written slot (zoneBit cur ||| zoneBit z) s
  obtain ⟨v, hv⟩ : ∃ v, v = setTourZones slot (zoneBit cur ||| zoneBit z) s := ⟨_, rfl⟩
  rw [← hv] at written ⊢
  have tours (k : Fin 16) : (dequeue slot z v).tour k = s.tour k := written.keeps.tour_eq (by decide) k
  dsimp only
  refine ⟨putLive_keeps (KeepsAllBut.trans (written.keeps.mono (by decide)) (putZone_keeps .refl (by decide))) (by decide),
    by rw [putLive_tour_self, tours], fun k hk => by rw [putLive_tour_ne hk, tours], fun c => written.channel c,
    fun y => ?_, fun hc => ?_⟩
  · refine (dequeue_queue slot z y v).trans ?_
    rw [written.queue, written.queue]
  · exact zonesCounted_congr (t := dequeue slot z v) (fun y => dequeue_carried slot z y v) (fun _ => rfl)
      (written.counted hc)

theorem grant_of_zone {slot : Fin 16} {z cur : Fin 12} (h : (s.tour slot).live.zone = some cur) : grant slot z s =
    if grantWindow (s.tour slot) = 0 then (dropPrevious slot (zoneEntered slot z cur s), zoneBit cur)
    else (zoneEntered slot z cur s, 0#12) := by
  have same : (dequeue slot z (setTourZones slot (zoneBit cur ||| zoneBit z) s)).tour slot = s.tour slot :=
    (setTourZones_written slot (zoneBit cur ||| zoneBit z) s).keeps.tour_eq (by decide) slot
  have run : grant slot z s =
      if grantWindow ((dequeue slot z (setTourZones slot (zoneBit cur ||| zoneBit z) s)).tour slot) = 0 then
        (dropPrevious slot (zoneEntered slot z cur s), zoneBit cur) else (zoneEntered slot z cur s, 0#12) := by
    unfold grant
    rw [h]
    rfl
  rw [run, same]

theorem grant_spec {slot : Fin 16} {z cur : Fin 12} (h : (s.tour slot).live.zone = some cur) :
    ZoneGranted slot z cur s (grant slot z s).1 ∧
    (grant slot z s).2 = if grantWindow (s.tour slot) = 0 then zoneBit cur else 0#12 := by
  rw [grant_of_zone h]
  obtain ⟨keeps, tour, away, channel, queue, counted⟩ := zoneEntered_spec slot z cur s
  obtain ⟨v, hv⟩ : ∃ v, v = zoneEntered slot z cur s := ⟨_, rfl⟩
  rw [← hv] at keeps tour away channel queue counted ⊢
  by_cases h0 : grantWindow (s.tour slot) = 0
  · rw [if_pos h0, if_pos h0]
    have drop := dropPrevious_spec (s := v) (slot := slot) (p := cur) (by rw [tour])
    have chs : tourChannels (v.tour slot).live = tourChannels (s.tour slot).live := by rw [tour]; rfl
    refine ⟨⟨(keeps.mono (by decide)).trans drop.keeps, ?_, fun k hk => (drop.away k hk).trans (away k hk), fun c => ?_,
      fun y => (drop.queue y).trans (queue y), fun hc => drop.counted (counted hc), ?_⟩, rfl⟩
    · rw [drop.tour, tour, if_pos h0, if_pos h0]
    · rw [drop.channel, chs, channel, if_pos h0]
      split <;> rfl
    · have event := drop.events
      rw [tour, show v.mge.hubTime = s.mge.hubTime from keeps .hubTime (by decide)] at event
      rw [if_pos h0]
      exact event.of_evq (keeps.evq_eq (by decide)).symm
  · rw [if_neg h0, if_neg h0]
    refine ⟨⟨keeps.mono (by decide), ?_, away, fun c => ?_, queue, counted, ?_⟩, rfl⟩
    · rw [tour, if_neg h0, if_neg h0]
    · rw [channel, if_neg h0]
    · rw [if_neg h0]
      exact EventsTaken.nil.to_evq (keeps.evq_eq (by decide))

/-! ### The service as a run of grants to heads -/

/-- A relation that holds over the grant to the head of a wait queue (R57). -/
structure HeadClosed (R : State → State → Prop) : Prop where
  refl : ∀ s, R s s
  trans : ∀ {s t u}, R s t → R t u → R s u
  head : ∀ s z w rest, (s.zone z).queue = w :: rest → w.need ≤ freeSlots s z →
    R s (grant w.slot z (dequeue w.slot z s)).1

namespace HeadClosed
variable {R : State → State → Prop}

theorem serveZone (h : HeadClosed R) (z : Fin 12) (n : Nat) (zs : ZoneSet) (s : State) :
    R s (serveZone z n (s, zs)).1 := by
  induction n generalizing s zs with
  | zero => exact h.refl s
  | succ n ih =>
    simp only [Machine.serveZone]
    split
    · exact h.refl s
    next w rest hq =>
      split
      next fits => exact h.trans (h.head s z w rest hq fits) (ih _ _)
      next => exact h.refl s

theorem serveSet (h : HeadClosed R) (n : Nat) (zs : ZoneSet) (s : State) : R s (serveSet n zs s) := by
  induction n generalizing s zs with
  | zero => exact h.refl s
  | succ n ih =>
    simp only [Machine.serveSet]
    split
    · exact h.refl s
    · exact h.trans (h.serveZone _ _ _ _) (ih _ _)

theorem serveZones (h : HeadClosed R) (zs : ZoneSet) (s : State) : R s (serveZones zs s) := h.serveSet _ _ _

end HeadClosed

/-- A slot stands in a wait queue. -/
def Queued (s : State) (k : Fin 16) : Prop := ∃ z w, w ∈ (s.zone z).queue ∧ w.slot = k

/-- What the service leaves: queues lose entries only, and only queued tours and their channels change. -/
structure QueuesServed (s t : State) : Prop where
  queue : ∀ z w, w ∈ (t.zone z).queue → w ∈ (s.zone z).queue
  unqueued : ∀ k, ¬ Queued s k → t.tour k = s.tour k
  channels : ∀ k, (t.tour k).live.channels = (s.tour k).live.channels
  away : ∀ c, (∀ k, Queued s k → c ∉ tourChannels (s.tour k).live) → t.channel c = s.channel c
  counted : ZonesCounted s → ZonesCounted t

theorem QueuesServed.queued (h : QueuesServed s t) {k : Fin 16} (hk : Queued t k) : Queued s k :=
  let ⟨z, w, hw, hs⟩ := hk
  ⟨z, w, h.queue z w hw, hs⟩

theorem QueuesServed.trans (h : QueuesServed s t) (k : QueuesServed t u) : QueuesServed s u where
  queue z w hw := h.queue z w (k.queue z w hw)
  unqueued i hi := by rw [k.unqueued i (mt h.queued hi), h.unqueued i hi]
  channels i := (k.channels i).trans (h.channels i)
  away c hc := by
    rw [k.away c fun i hi => ?_, h.away c hc]
    have := hc i (h.queued hi)
    rwa [tourChannels, h.channels i]
  counted hc := k.counted (h.counted hc)

theorem queuesServed_head {z : Fin 12} {w : Waiter} {rest : List Waiter} (hq : (s.zone z).queue = w :: rest) :
    QueuesServed s (grant w.slot z (dequeue w.slot z s)).1 := by
  have queued : Queued s w.slot := ⟨z, w, by rw [hq]; exact List.mem_cons_self, rfl⟩
  have gone (y : Fin 12) (x : Waiter) (hx : x ∈ ((dequeue w.slot z s).zone y).queue) : x ∈ (s.zone y).queue := by
    rw [dequeue_queue] at hx
    split at hx
    next e => rw [e]; exact List.mem_of_mem_filter hx
    next => exact hx
  have counts : ZonesCounted s → ZonesCounted (dequeue w.slot z s) :=
    zonesCounted_congr (fun y => dequeue_carried w.slot z y s) fun _ => rfl
  cases hz : (s.tour w.slot).live.zone with
  | none =>
    rw [grant_of_none (s := dequeue w.slot z s) hz]
    exact ⟨gone, fun _ _ => rfl, fun _ => rfl, fun _ _ => rfl, counts⟩
  | some cur =>
    obtain ⟨⟨-, tour, away, channel, queue, counted, -⟩, -⟩ := grant_spec (s := dequeue w.slot z s) (z := z) hz
    refine ⟨fun y x hx => ?_, fun k hk => away k fun e => hk (e ▸ queued), fun k => ?_, fun c hc => ?_,
      counted ∘ counts⟩
    · rw [queue] at hx
      split at hx
      next e => rw [e]; exact gone z x (List.mem_of_mem_filter hx)
      next => exact gone y x hx
    · by_cases hk : k = w.slot
      · rw [hk, tour]
        rfl
      · rw [away k hk]
        rfl
    · refine (channel c).trans (if_neg ?_)
      exact hc w.slot queued

theorem queuesServed_closed : HeadClosed QueuesServed where
  refl _ := ⟨fun _ _ => id, fun _ _ => rfl, fun _ => rfl, fun _ _ => rfl, id⟩
  trans := QueuesServed.trans
  head _ _ _ _ hq _ := queuesServed_head hq

theorem serveZones_queues (zs : ZoneSet) (s : State) : QueuesServed s (serveZones zs s) :=
  queuesServed_closed.serveZones zs s

end Sys2Proof.Machine
end

section
/-! The silence stages of a tour, exactly (R76 to R79). -/

namespace Sys2Proof.Machine

open Sys2Proof

variable {s t u : State}

/-! ### Fallback slots of a plan's programs -/

/-- The fallback slots of some entries' programs are written, each by its entry. -/
structure FallbacksWritten (entries : List (Fin 4 × Entry)) (g : Fin 4 × Entry → Option (Fin 48)) (s t : State) : Prop where
  keeps : KeepsAllBut [.programs] s t
  applyRequest : t.mxr.applyRequest = s.mxr.applyRequest
  program : ∀ p, t.program p = { s.program p with fallback := (t.program p).fallback }
  unnamed : ∀ p, (∀ x ∈ entries, x.2.program ≠ p) → t.program p = s.program p
  last : ∀ x ∈ entries, (∀ y ∈ entries, y.2.program = x.2.program → g y = g x) →
    (t.program x.2.program).fallback = g x

theorem forEach_setFallback (entries : List (Fin 4 × Entry)) (g : Fin 4 × Entry → Option (Fin 48)) (s : State) :
    FallbacksWritten entries g s (forEach entries (fun x => setFallback x.2.program (g x)) s) := by
  induction entries generalizing s with
  | nil => exact ⟨.refl, rfl, fun _ => rfl, fun _ _ => rfl, fun _ h => nomatch h⟩
  | cons a rest ih =>
    obtain ⟨keeps, request, program, unnamed, last⟩ := ih (setFallback a.2.program (g a) s)
    have one (p : Fin 32) : (setFallback a.2.program (g a) s).program p =
        if p = a.2.program then { s.program a.2.program with fallback := g a } else s.program p := by
      rw [setFallback, State.putProgram_program]
    refine ⟨KeepsAllBut.trans (putProgram_keeps .refl (by decide)) keeps, request, fun p => (program p).trans ?_,
      fun p hp => (unnamed p fun x hx => hp x (List.mem_cons_of_mem _ hx)).trans ?_, fun x hx same => ?_⟩
    · rw [one]
      split
      next h => rw [h]; rfl
      next => rfl
    · rw [one, if_neg (Ne.symm (hp a List.mem_cons_self))]
    · by_cases later : ∃ y ∈ rest, y.2.program = x.2.program
      · obtain ⟨y, hy, hp⟩ := later
        have value := last y hy fun z hz hzy =>
          (same z (List.mem_cons_of_mem _ hz) (hzy.trans hp)).trans (same y (List.mem_cons_of_mem _ hy) hp).symm
        rw [hp] at value
        exact value.trans (same y (List.mem_cons_of_mem _ hy) hp)
      · have here : x = a := (List.mem_cons.1 hx).resolve_right fun h => later ⟨x, h, rfl⟩
        have kept := unnamed x.2.program fun y hy e => later ⟨y, hy, e⟩
        refine (congrArg Program.fallback kept).trans ?_
        rw [one, here, if_pos rfl]

/-! ### A count at a mix point -/

/-- The silence stages of a slot's tour have counted a mix point between two states; the new stage, timer and fallback are
the last three parameters. -/
structure Silenced (slot : Fin 16) (stage timer : Nat) (fallback : FallbackState) (s t : State) : Prop where
  keeps : KeepsAllBut [.tours, .programs, .events, .egress] s t
  tcl : t.tcl = (s.putLive slot { (s.tour slot).live with stage := stage, timer := timer, fallback := fallback }).tcl
  applyRequest : t.mxr.applyRequest = s.mxr.applyRequest
  program : ∀ p, t.program p = { s.program p with fallback := (t.program p).fallback }
  unnamed : ∀ p, ¬ InPlan s slot p → t.program p = s.program p
  reports : Reports s t

theorem Silenced.tour {slot : Fin 16} {stage timer : Nat} {fallback : FallbackState}
    (h : Silenced slot stage timer fallback s t) : t.tour slot =
      { s.tour slot with live := { (s.tour slot).live with stage := stage, timer := timer, fallback := fallback } } := by
  rw [State.tour, h.tcl]
  exact putLive_tour_self slot _ s

theorem Silenced.away {slot : Fin 16} {stage timer : Nat} {fallback : FallbackState}
    (h : Silenced slot stage timer fallback s t) {k : Fin 16} (hk : k ≠ slot) : t.tour k = s.tour k := by
  rw [State.tour, h.tcl]
  exact putLive_tour_ne hk _ s

/-- A count that writes the live record only. -/
theorem silenced_putLive (slot : Fin 16) (stage timer : Nat) (fallback : FallbackState) (s : State) :
    Silenced slot stage timer fallback s
      (s.putLive slot { (s.tour slot).live with stage := stage, timer := timer, fallback := fallback }) :=
  ⟨putLive_keeps .refl (by decide), rfl, rfl, fun _ => rfl, fun _ _ => rfl,
    .of_keeps (putLive_keeps (ps := [.tours]) .refl (by decide)) (by decide)⟩

/-- The event of a count is no part of what it says otherwise. -/
theorem Silenced.raise {slot : Fin 16} {stage timer : Nat} {fallback : FallbackState}
    (h : Silenced slot stage timer fallback s t) (k : EventKind) (d : Nat) :
    Silenced slot stage timer fallback s (raiseTour k slot d t) := by
  have rise : KeepsAllBut [.events, .egress] t (raiseTour k slot d t) := raiseEvent_keeps .refl (by decide) (by decide)
  have event : Reports t (raiseTour k slot d t) := .event _ _ _ _ _
  obtain ⟨w, hw⟩ : ∃ w, w = raiseTour k slot d t := ⟨_, rfl⟩
  rw [← hw] at rise event ⊢
  have programs (p : Fin 32) : w.program p = t.program p := rise.program_eq (by decide) p
  have mixer : w.mxr = t.mxr := rise .programs (by decide)
  refine ⟨h.keeps.trans (rise.mono (by decide)), ?_, by rw [mixer]; exact h.applyRequest,
    fun p => by rw [programs]; exact h.program p, fun p hp => (programs p).trans (h.unnamed p hp), h.reports.trans event⟩
  have tours : w.tcl = t.tcl := rise .tours (by decide)
  rw [tours, h.tcl]

theorem putLive_tcl_congr (h : t.tcl = s.tcl) (k : Fin 16) (x : TourLive) : (t.putLive k x).tcl = (s.putLive k x).tcl := by
  simp only [State.putLive, State.putTour, State.withTcl, State.tour, h]

theorem tab_set_set {α : Type} {n : Nat} (t : Tab α n) (i : Fin n) (x y : α) : (t.set i x).set i y = t.set i y :=
  Tab.ext_get fun j => by
    simp only [Tab.get_set]
    split <;> rfl

theorem putLive_putLive_tcl (k : Fin 16) (x y : TourLive) (s : State) :
    ((s.putLive k x).putLive k y).tcl = (s.putLive k y).tcl := by
  have same : (s.putLive k x).putLive k y = (s.putTour k { s.tour k with live := x }).putTour k { s.tour k with live := y } := by
    rw [State.putLive, putLive_tour_self]
    rfl
  rw [same]
  show Tcl.mk ((s.tcl.tours.set k _).set k _) = Tcl.mk (s.tcl.tours.set k _)
  rw [tab_set_set]

/-- Fallback slots of the plan's programs written before the live record. -/
theorem FallbacksWritten.thenLive {slot : Fin 16} {stage timer : Nat} {fallback : FallbackState} {p : Plan}
    {g : Fin 4 × Entry → Option (Fin 48)} (hp : (s.tour slot).plan = some p)
    (h : FallbacksWritten (planEntries p) g s t) : Silenced slot stage timer fallback s
      (t.putLive slot { (s.tour slot).live with stage := stage, timer := timer, fallback := fallback }) :=
  ⟨putLive_keeps (h.keeps.mono (by decide)) (by decide), putLive_tcl_congr (h.keeps .tours (by decide)) slot _,
    h.applyRequest, h.program, fun q hq => h.unnamed q fun x hx e => hq (e ▸ inPlan_of_mem hp hx),
    .of_keeps (putLive_keeps (KeepsAllBut.mono h.keeps (by decide : [Part.programs] ⊆ [.programs, .tours])) (by decide))
      (by decide)⟩

/-- Fallback slots of the plan's programs written after the live record. -/
theorem FallbacksWritten.afterLive {slot : Fin 16} {stage timer : Nat} {fallback : FallbackState} {p : Plan}
    {g : Fin 4 × Entry → Option (Fin 48)} (hp : (s.tour slot).plan = some p)
    (h : FallbacksWritten (planEntries p) g
      (s.putLive slot { (s.tour slot).live with stage := stage, timer := timer, fallback := fallback }) t) :
    Silenced slot stage timer fallback s t :=
  have put := silenced_putLive slot stage timer fallback s
  ⟨put.keeps.trans (h.keeps.mono (by decide)), h.keeps .tours (by decide), h.applyRequest, h.program,
    fun q hq => h.unnamed q fun x hx e => hq (e ▸ inPlan_of_mem hp hx),
    put.reports.trans (.of_keeps h.keeps (by decide))⟩

/-! ### The fallback written from a stop -/

/-- The entries whose fallback source at a stop is present. -/
def spokenEntries (p : Plan) (stop : Stop) : List (Fin 4) :=
  ((planEntries p).map Prod.fst).filter fun e => (stop.fallback.get e).isSome

/-- The fallback field that a stop leaves. -/
def writtenFallback (p : Plan) (stop : Stop) : FallbackState := if spokenEntries p stop = [] then .none else .on

/-- The fallback slots of a slot's plan are written from a stop between two states (R78, R79). -/
structure StopWritten (slot : Fin 16) (p : Plan) (stop : Stop) (s t : State) : Prop where
  silenced : Silenced slot (s.tour slot).live.stage (s.tour slot).live.timer (writtenFallback p stop) s t
  program : ∀ x ∈ planEntries p, (∀ y ∈ planEntries p, y.2.program = x.2.program → y.1 = x.1) →
    (t.program x.2.program).fallback = stop.fallback.get x.1
  events : EventsTaken [⟨if spokenEntries p stop = [] then .fallbackNone else .fallbackOn, s.mge.hubTime, slot.val,
    some (s.tour slot).live.run, (s.tour slot).live.stop * 256 + entrySet (spokenEntries p stop)⟩] s t

theorem writeFallback_spec {slot : Fin 16} {p : Plan} {stop : Stop} (hp : (s.tour slot).plan = some p)
    (hs : p.route[(s.tour slot).live.stop]? = some stop) : StopWritten slot p stop s (writeFallback slot s) := by
  have written := forEach_setFallback (planEntries p) (fun x => stop.fallback.get x.1) s
  obtain ⟨v, hv⟩ : ∃ v, v = forEach (planEntries p) (fun x => setFallback x.2.program (stop.fallback.get x.1)) s :=
    ⟨_, rfl⟩
  have run : writeFallback slot s = raiseTour (if spokenEntries p stop = [] then .fallbackNone else .fallbackOn) slot
      (detailPair (v.tour slot).live.stop (entrySet (spokenEntries p stop)))
      (v.putLive slot { (v.tour slot).live with fallback := writtenFallback p stop }) := by
    unfold writeFallback
    rw [hp]
    dsimp only
    rw [hs, hv]
    rfl
  rw [← hv] at written
  have tour : v.tour slot = s.tour slot := written.keeps.tour_eq (by decide) slot
  have live := written.thenLive (stage := (s.tour slot).live.stage) (timer := (s.tour slot).live.timer)
    (fallback := writtenFallback p stop) hp
  rw [run, tour]
  refine ⟨live.raise _ _, fun x hx alone => ?_, ?_⟩
  · have value := written.last x hx fun y hy e => by rw [alone y hy e]
    rw [← value]
    obtain ⟨w, hw⟩ : ∃ w, w = v.putLive slot { (s.tour slot).live with fallback := writtenFallback p stop } := ⟨_, rfl⟩
    have same : w.program x.2.program = v.program x.2.program := by rw [hw]; rfl
    rw [← hw, ← same]
    exact congrArg Program.fallback
      ((raiseEvent_keeps (ps := [.events, .egress]) .refl (by decide) (by decide)).program_eq (by decide) _)
  · have named := live.tour
    have keeps : KeepsAllBut [.programs, .tours] s
        (v.putLive slot { (s.tour slot).live with fallback := writtenFallback p stop }) :=
      putLive_keeps (written.keeps.mono (by decide)) (by decide)
    obtain ⟨w, hw⟩ : ∃ w, w = v.putLive slot { (s.tour slot).live with fallback := writtenFallback p stop } := ⟨_, rfl⟩
    rw [← hw] at keeps named ⊢
    rw [raiseTour, named]
    exact .raise_of_evq (keeps.evq_eq (by decide)) (keeps .hubTime (by decide))

end Sys2Proof.Machine
end

section
/-! The count of a silence stage by its cases, and the commands GUIDE_QUIET and FALLBACK_WRITE (R76 to R78). -/

namespace Sys2Proof.Machine

open Sys2Proof

variable {s t u : State} {slot : Fin 16}

/-! ### The cases of a count -/

theorem Silenced.trans {stage timer stage' timer' : Nat} {fallback fallback' : FallbackState}
    (h : Silenced slot stage timer fallback s t) (k : Silenced slot stage' timer' fallback' t u) :
    Silenced slot stage' timer' fallback' s u where
  keeps := h.keeps.trans k.keeps
  tcl := by
    rw [k.tcl, h.tour, putLive_tcl_congr h.tcl, putLive_putLive_tcl]
  applyRequest := k.applyRequest.trans h.applyRequest
  program p := by rw [k.program p, h.program p]
  unnamed p hp := by
    have same : ¬ InPlan t slot p := fun ⟨q, e, x, hq, he, hx⟩ => hp ⟨q, e, x, by rw [h.tour] at hq; exact hq, he, hx⟩
    rw [k.unnamed p same, h.unnamed p hp]
  reports := h.reports.trans k.reports

/-- A guide that speaks brings the tour back to stage 0 (R76). -/
theorem tickSilence_speaks (hv : guideVoice s slot = true) :
    Silenced slot 0 ((timingOf (s.tour slot)).q1 * 250) .off s (tickSilence slot s) ∧
    ((s.tour slot).live.fallback = .on → ∀ p, (s.tour slot).plan = some p → ∀ x ∈ planEntries p,
      ((tickSilence slot s).program x.2.program).fallback = none) ∧
    ((s.tour slot).live.fallback ≠ .on → ∀ p, (tickSilence slot s).program p = s.program p) := by
  have reset : tickSilence slot s = resetSilence slot s := if_pos hv
  have live := silenced_putLive slot 0 ((timingOf (s.tour slot)).q1 * 250) .off s
  rw [reset]
  unfold resetSilence
  dsimp only
  by_cases on : (s.tour slot).live.fallback = .on
  · rw [if_pos on]
    cases hp : (s.tour slot).plan with
    | none => exact ⟨live.raise _ _, fun _ _ h => (nomatch h), fun h => absurd on h⟩
    | some p =>
      have cleared := forEach_setFallback (planEntries p) (fun _ => none)
        (s.putLive slot { (s.tour slot).live with stage := 0, timer := (timingOf (s.tour slot)).q1 * 250, fallback := .off })
      refine ⟨(cleared.afterLive hp).raise _ _, fun _ q hq x hx => ?_, fun h => absurd on h⟩
      obtain rfl := Option.some.inj hq
      have value := cleared.last x hx fun _ _ _ => rfl
      rw [← value]
      exact congrArg Program.fallback
        ((raiseEvent_keeps (ps := [.events, .egress]) .refl (by decide) (by decide)).program_eq (by decide) _)
  · rw [if_neg on]
    exact ⟨live, fun h => absurd h on, fun _ _ => rfl⟩

theorem tickSilence_quiet (hv : guideVoice s slot = false) : tickSilence slot s = countSilence slot s :=
  if_neg (by rw [hv]; decide)

/-- The timer of stage 0 runs out (R77). -/
theorem countSilence_first (h0 : (s.tour slot).live.stage = 0) (ht : (s.tour slot).live.timer ≤ 1) :
    countSilence slot s = raiseTour .guideQuiet slot 0 (s.putLive slot { (s.tour slot).live with
      stage := 1, timer := (timingOf (s.tour slot)).q2 * 250 }) := by
  unfold countSilence
  dsimp only
  rw [if_pos h0, if_pos (by omega)]
  rfl

/-- The timer of stage 0 or 1 falls (R77). -/
theorem countSilence_falls (h0 : (s.tour slot).live.stage ≤ 1) (ht : 1 < (s.tour slot).live.timer) :
    countSilence slot s = s.putLive slot { (s.tour slot).live with timer := (s.tour slot).live.timer - 1 } := by
  have pos : ¬ (s.tour slot).live.timer - 1 = 0 := by omega
  unfold countSilence
  dsimp only
  by_cases zero : (s.tour slot).live.stage = 0
  · rw [if_pos zero, if_neg pos]
  · rw [if_neg zero, if_pos (by omega), if_neg pos]

/-- The timer of stage 1 runs out (R78). -/
theorem countSilence_second (h1 : (s.tour slot).live.stage = 1) (ht : (s.tour slot).live.timer ≤ 1) :
    countSilence slot s = writeFallback slot (s.putLive slot { (s.tour slot).live with stage := 2, timer := 0 }) := by
  unfold countSilence
  dsimp only
  rw [if_neg (by omega), if_pos h1, if_pos (by omega)]

/-- Stage 2 counts nothing (R77). -/
theorem countSilence_last (h : 1 < (s.tour slot).live.stage) : countSilence slot s = s := by
  unfold countSilence
  dsimp only
  rw [if_neg (by omega), if_neg (by omega)]

theorem silenced_raise_first (s : State) : Silenced slot 1 ((timingOf (s.tour slot)).q2 * 250) (s.tour slot).live.fallback s
    (raiseTour .guideQuiet slot 0 (s.putLive slot { (s.tour slot).live with
      stage := 1, timer := (timingOf (s.tour slot)).q2 * 250 })) :=
  (silenced_putLive slot 1 ((timingOf (s.tour slot)).q2 * 250) (s.tour slot).live.fallback s).raise _ _

/-- The fallback is written when the timer of stage 1 runs out (R78). -/
structure FallbackOut (slot : Fin 16) (p : Plan) (stop : Stop) (s t : State) : Prop where
  silenced : Silenced slot 2 0 (writtenFallback p stop) s t
  program : ∀ x ∈ planEntries p, (∀ y ∈ planEntries p, y.2.program = x.2.program → y.1 = x.1) →
    (t.program x.2.program).fallback = stop.fallback.get x.1
  events : EventsTaken [⟨if spokenEntries p stop = [] then .fallbackNone else .fallbackOn, s.mge.hubTime, slot.val,
    some (s.tour slot).live.run, (s.tour slot).live.stop * 256 + entrySet (spokenEntries p stop)⟩] s t

theorem fallbackOut_of_second {p : Plan} {stop : Stop} (h1 : (s.tour slot).live.stage = 1)
    (ht : (s.tour slot).live.timer ≤ 1) (hp : (s.tour slot).plan = some p)
    (hs : p.route[(s.tour slot).live.stop]? = some stop) : FallbackOut slot p stop s (countSilence slot s) := by
  rw [countSilence_second h1 ht]
  have put := silenced_putLive slot 2 0 (s.tour slot).live.fallback s
  obtain ⟨v, hv⟩ : ∃ v, v = s.putLive slot { (s.tour slot).live with stage := 2, timer := 0 } := ⟨_, rfl⟩
  have same : v = s.putLive slot { (s.tour slot).live with
    stage := 2, timer := 0, fallback := (s.tour slot).live.fallback } := hv
  rw [← same] at put
  rw [← hv]
  obtain ⟨silenced, program, events⟩ := writeFallback_spec (s := v) (slot := slot) (p := p) (stop := stop)
    (by rw [put.tour]; exact hp) (by rw [put.tour]; exact hs)
  rw [put.tour] at silenced events
  refine ⟨put.trans silenced, program, ?_⟩
  rw [show v.mge.hubTime = s.mge.hubTime from put.keeps .hubTime (by decide)] at events
  exact events.of_evq (by rw [hv]; rfl)

/-- Without a stop to write from, the end of stage 1 writes the live record only. -/
theorem writeFallback_of_none (h : ∀ p stop, (s.tour slot).plan = some p → p.route[(s.tour slot).live.stop]? ≠ some stop) :
    writeFallback slot s = s := by
  unfold writeFallback
  cases hp : (s.tour slot).plan with
  | none => rfl
  | some p =>
    dsimp only
    cases hs : p.route[(s.tour slot).live.stop]? with
    | none => rfl
    | some stop => exact absurd hs (h p stop hp)

/-- A count at a mix point, whichever case it is. -/
theorem tickSilence_silenced (slot : Fin 16) (s : State) :
    ∃ stage timer fallback, Silenced slot stage timer fallback s (tickSilence slot s) := by
  by_cases hv : guideVoice s slot = true
  · exact ⟨_, _, _, (tickSilence_speaks hv).1⟩
  rw [tickSilence_quiet (Bool.eq_false_iff.2 hv)]
  by_cases h2 : 1 < (s.tour slot).live.stage
  · rw [countSilence_last h2]
    refine ⟨(s.tour slot).live.stage, (s.tour slot).live.timer, (s.tour slot).live.fallback, ?_⟩
    refine ⟨.refl, ?_, rfl, fun _ => rfl, fun _ _ => rfl, .of_keeps (ps := []) .refl (by decide)⟩
    show s.tcl = Tcl.mk (s.tcl.tours.set slot (s.tcl.tours.get slot))
    rw [Tab.set_get_self]
  by_cases ht : 1 < (s.tour slot).live.timer
  · rw [countSilence_falls (by omega) ht]
    exact ⟨_, _, _, silenced_putLive slot (s.tour slot).live.stage _ (s.tour slot).live.fallback s⟩
  by_cases h0 : (s.tour slot).live.stage = 0
  · rw [countSilence_first h0 (by omega)]
    exact ⟨_, _, _, silenced_raise_first s⟩
  have h1 : (s.tour slot).live.stage = 1 := by omega
  by_cases hw : ∃ p stop, (s.tour slot).plan = some p ∧ p.route[(s.tour slot).live.stop]? = some stop
  · obtain ⟨p, stop, hp, hs⟩ := hw
    exact ⟨_, _, _, (fallbackOut_of_second h1 (by omega) hp hs).silenced⟩
  · rw [countSilence_second h1 (by omega), writeFallback_of_none]
    · exact ⟨_, _, _, silenced_putLive slot 2 0 (s.tour slot).live.fallback s⟩
    · rw [putLive_tour_self]
      exact fun p stop hp hs => hw ⟨p, stop, hp, hs⟩

/-! ### The entries written -/

theorem mem_spokenEntries {p : Plan} {stop : Stop} {e : Fin 4} : e ∈ spokenEntries p stop ↔
    (p.entries.get e).isSome = true ∧ (stop.fallback.get e).isSome = true := by
  rw [spokenEntries, List.mem_filter, List.mem_map]
  refine and_congr_left' ⟨?_, fun h => ?_⟩
  · rintro ⟨x, hx, rfl⟩
    rw [mem_planEntries_iff.1 hx]
    rfl
  · obtain ⟨x, hx⟩ := Option.isSome_iff_exists.1 h
    exact ⟨(e, x), mem_planEntries_iff.2 hx, rfl⟩

theorem spokenEntries_eq (p : Plan) (stop : Stop) : spokenEntries p stop = (indices 4).filter fun e =>
    (p.entries.get e).isSome && (stop.fallback.get e).isSome := by
  have entries : (planEntries p).map Prod.fst = (indices 4).filter fun e => (p.entries.get e).isSome := by
    rw [planEntries, List.map_filterMap, ← List.filterMap_eq_filter]
    refine List.filterMap_congr fun e _ => ?_
    cases he : p.entries.get e <;> simp [Option.guard, he]
  rw [spokenEntries, entries, List.filter_filter]
  exact List.filter_congr fun e _ => Bool.and_comm _ _

/-- The set of entries as the sum over all four (08, field encoding). -/
theorem entrySet_filter (f : Fin 4 → Bool) :
    entrySet ((indices 4).filter f) = ((indices 4).map fun e => if f e then 2 ^ e.val else 0).sum := by
  suffices ∀ es : List (Fin 4), entrySet (es.filter f) = (es.map fun e => if f e then 2 ^ e.val else 0).sum from this _
  intro es
  induction es with
  | nil => rfl
  | cons e es ih =>
    rw [List.map_cons, List.sum_cons, ← ih, List.filter_cons]
    cases f e
    · simp
    · simp [entrySet]

theorem entrySet_eq_zero_iff {es : List (Fin 4)} : entrySet es = 0 ↔ es = [] := by
  constructor
  · intro h
    cases es with
    | nil => rfl
    | cons e es =>
      have pos : 0 < 2 ^ e.val := Nat.two_pow_pos _
      rw [entrySet, List.map_cons, List.sum_cons] at h
      omega
  · rintro rfl
    rfl

/-! ### GUIDE_QUIET and FALLBACK_WRITE -/

theorem silenceDue_iff {stage : Nat} : silenceDue s slot stage = true ↔
    ((s.tour slot).live.phase = .live ∨ (s.tour slot).live.phase = .closing) ∧ guideVoice s slot = false ∧
      (s.tour slot).live.stage = stage ∧ (s.tour slot).live.timer ≤ 1 := by
  simp only [silenceDue, Bool.and_eq_true, isRunning_iff, Bool.not_eq_true', decide_eq_true_eq, and_assoc]

theorem exec_guideQuiet (slot : Fin 16) (s : State) : exec (.guideQuiet slot) s =
    .next (if silenceDue s slot 0 then countSilence slot s else s) := rfl

theorem exec_fallbackWrite (slot : Fin 16) (s : State) : exec (.fallbackWrite slot) s =
    .next (if silenceDue s slot 1 then countSilence slot s else s) := rfl

end Sys2Proof.Machine
end

section
/-! The work of a mix point on the other tours, as one tour sees it (R54, R76 to R83). -/

namespace Sys2Proof.Machine

open Sys2Proof

variable {s t u : State} {slot : Fin 16}

/-- A receiver's record names no slot but this one. -/
def OnlyOf (slot : Fin 16) (r : Receiver) : Prop := ∀ x, r.tour = some x → x.slot = slot

theorem OnlyOf.not_ofRun {j : Fin 16} {r : Receiver} (h : OnlyOf slot r) (hj : j ≠ slot) (phase : RxState) (run : BitVec 16) :
    ofRun r phase j run = false := by
  refine Bool.eq_false_iff.2 fun hr => ?_
  obtain ⟨-, hm⟩ := ofRun_iff.1 hr
  rw [InRun, Option.map_eq_some_iff] at hm
  obtain ⟨x, hx, he⟩ := hm
  exact hj ((Prod.mk.inj he).1.symm.trans (h x hx))

/-- A record may have become OVERDUE, its deadline reached (R107). -/
def MayBeOverdue (time : Nat) (r r' : Receiver) : Prop :=
  r' = r ∨ deadlineReached time r = true ∧ r' = { r with phase := .overdue }

theorem MayBeOverdue.trans {time : Nat} {r r' r'' : Receiver} (h : MayBeOverdue time r r')
    (k : MayBeOverdue time r' r'') : MayBeOverdue time r r'' := by
  rcases h with rfl | ⟨hd, rfl⟩
  · exact k
  · rcases k with rfl | ⟨-, rfl⟩
    · exact .inr ⟨hd, rfl⟩
    · exact .inr ⟨hd, rfl⟩

theorem MayBeOverdue.onlyOf {time : Nat} {r r' : Receiver} (h : MayBeOverdue time r r') (hr : OnlyOf slot r) :
    OnlyOf slot r' := by
  rcases h with rfl | ⟨-, rfl⟩ <;> exact hr

/-- What the work on other tours leaves of one slot's tour. -/
structure Beside (slot : Fin 16) (s t : State) : Prop where
  keeps : KeepsAllBut [.receivers, .bays, .tours, .programs, .zones, .events, .egress] s t
  plan : ∀ k, (t.tour k).plan = (s.tour k).plan ∧ (t.tour k).timing = (s.tour k).timing
  live : SameRun (s.tour slot).live (t.tour slot).live
  unzoned : (s.tour slot).live.zone = none → t.tour slot = s.tour slot
  unqueued : ¬ Queued s slot → t.tour slot = s.tour slot
  queue : ∀ z w, w ∈ (t.zone z).queue → w ∈ (s.zone z).queue
  channels : ∀ k, tourChannels (t.tour k).live ⊆ tourChannels (s.tour k).live
  record : ∀ h r, s.receiver h = some r → OnlyOf slot r →
    ∃ r', t.receiver h = some r' ∧ MayBeOverdue s.mge.hubTime r r'
  owner : ∀ p, (s.program p).owner = none → (t.program p).owner = none
  fallback : ∀ p, (∀ k, k ≠ slot → ¬ InPlan s k p) → (t.program p).fallback = (s.program p).fallback
  free : ∀ c, (s.channel c).phase = .free → (s.channel c).program = none →
    (t.channel c).phase = .free ∧ (t.channel c).program = none
  apart : ¬ Queued s slot → ∀ c, (∀ k, k ≠ slot → c ∉ tourChannels (s.tour k).live) → t.channel c = s.channel c
  reports : Reports s t

namespace Beside

theorem inPlan_iff (h : Beside slot s t) {k : Fin 16} {p : Fin 32} : InPlan t k p ↔ InPlan s k p := by
  unfold InPlan
  rw [(h.plan k).1]

theorem queued (h : Beside slot s t) (hq : Queued t slot) : Queued s slot :=
  let ⟨z, w, hw, hs⟩ := hq
  ⟨z, w, h.queue z w hw, hs⟩

theorem trans (h : Beside slot s t) (k : Beside slot t u) : Beside slot s u where
  keeps := h.keeps.trans k.keeps
  plan i := ⟨(k.plan i).1.trans (h.plan i).1, (k.plan i).2.trans (h.plan i).2⟩
  live := h.live.trans k.live
  unzoned hz := by rw [k.unzoned (by rw [h.unzoned hz]; exact hz), h.unzoned hz]
  unqueued hq := by rw [k.unqueued (mt h.queued hq), h.unqueued hq]
  queue z w hw := h.queue z w (k.queue z w hw)
  channels i := List.Subset.trans (k.channels i) (h.channels i)
  record i r hr only := by
    obtain ⟨r', hr', one⟩ := h.record i r hr only
    obtain ⟨r'', hr'', two⟩ := k.record i r' hr' (one.onlyOf only)
    rw [show t.mge.hubTime = s.mge.hubTime from h.keeps .hubTime (by decide)] at two
    exact ⟨r'', hr'', one.trans two⟩
  owner p hp := k.owner p (h.owner p hp)
  fallback p hp := by
    rw [k.fallback p fun i hi => mt h.inPlan_iff.1 (hp i hi), h.fallback p hp]
  free c hc hp := (h.free c hc hp).elim (k.free c)
  apart hq c hc := by
    rw [k.apart (mt h.queued hq) c fun i hi hm => hc i hi (h.channels i hm), h.apart hq c hc]
  reports := h.reports.trans k.reports

/-- A step that keeps the receivers, the tours, the programs and the Zone Allocator. -/
theorem of_keeps (k : KeepsAllBut [.bays, .events, .egress] s t) (reports : Reports s t) : Beside slot s t := by
  have tours (i : Fin 16) : t.tour i = s.tour i := k.tour_eq (by decide) i
  have receivers (i : Fin 384) : t.receiver i = s.receiver i := k.receiver_eq (by decide) i
  have programs (p : Fin 32) : t.program p = s.program p := k.program_eq (by decide) p
  have channels (c : Fin 24) : t.channel c = s.channel c := k.channel_eq (by decide) c
  have zones (z : Fin 12) : t.zone z = s.zone z := k.zone_eq (by decide) z
  exact ⟨k.mono (by decide), fun i => by rw [tours]; exact ⟨rfl, rfl⟩, by rw [tours]; exact .refl _, fun _ => tours slot,
    fun _ => tours slot, fun z w hw => zones z ▸ hw, fun i => by rw [tours]; exact List.Subset.refl _,
    fun i r hr _ => ⟨r, (receivers i).trans hr, .inl rfl⟩, fun p hp => by rw [programs]; exact hp,
    fun p _ => by rw [programs], fun c h1 h2 => by rw [channels]; exact ⟨h1, h2⟩, fun _ c _ => channels c, reports⟩

theorem refl (s : State) : Beside slot s s := of_keeps .refl (.of_keeps (ps := []) .refl (by decide))

/-- A live record of another slot is written, its channels among those it had. -/
theorem putLive {j : Fin 16} (hj : j ≠ slot) {x : TourLive} (hx : tourChannels x ⊆ tourChannels (s.tour j).live) :
    Beside slot s (s.putLive j x) where
  keeps := putLive_keeps .refl (by decide)
  plan i := by
    by_cases h : i = j
    · rw [h, putLive_tour_self]
      exact ⟨rfl, rfl⟩
    · rw [putLive_tour_ne h]
      exact ⟨rfl, rfl⟩
  live := by rw [putLive_tour_ne hj.symm]; exact .refl _
  unzoned _ := putLive_tour_ne hj.symm _ _
  unqueued _ := putLive_tour_ne hj.symm _ _
  queue _ _ hw := hw
  channels i := by
    by_cases h : i = j
    · rw [h, putLive_tour_self]
      exact hx
    · rw [putLive_tour_ne h]
      exact List.Subset.refl _
  record i r hr _ := ⟨r, hr, .inl rfl⟩
  owner _ h := h
  fallback _ _ := rfl
  free _ h1 h2 := ⟨h1, h2⟩
  apart _ _ _ := rfl
  reports := .of_keeps (putLive_keeps (ps := [.tours]) .refl (by decide)) (by decide)

theorem served (h : Served s t) (q : QueuesServed s t) (hq : ¬ Queued s slot → ∀ c,
    (∀ k, k ≠ slot → c ∉ tourChannels (s.tour k).live) → t.channel c = s.channel c) : Beside slot s t where
  keeps := h.keeps.mono (by decide)
  plan := h.plan
  live := h.live slot
  unzoned := h.unzoned slot
  unqueued := q.unqueued slot
  queue := q.queue
  channels i := by rw [(h.live i).tourChannels_eq]; exact List.Subset.refl _
  record i r hr _ := ⟨r, (h.keeps.receiver_eq (by decide) i).trans hr, .inl rfl⟩
  owner p hp := by rw [h.keeps.program_eq (by decide) p]; exact hp
  fallback p _ := by rw [h.keeps.program_eq (by decide) p]
  free c h1 h2 := by rw [h.channel c]; exact ⟨h1, h2⟩
  apart := hq
  reports := h.reports

theorem serveZones (zs : ZoneSet) (s : State) : Beside slot s (serveZones zs s) :=
  have q := serveZones_queues zs s
  served (serveZones_served zs s) q fun hq c hc => q.away c fun k hk => hc k fun e => hq (e ▸ hk)

theorem dropPrevious {j : Fin 16} (hj : j ≠ slot) (s : State) : Beside slot s (dropPrevious j s) := by
  cases hp : (s.tour j).live.prevZone with
  | none => rw [dropPrevious_of_none hp]; exact refl s
  | some p =>
    obtain ⟨keeps, tour, away, channel, queue, -, events⟩ := dropPrevious_spec hp
    have live (i : Fin 16) : ((Machine.dropPrevious j s).tour i).plan = (s.tour i).plan ∧
        ((Machine.dropPrevious j s).tour i).timing = (s.tour i).timing ∧
        tourChannels ((Machine.dropPrevious j s).tour i).live = tourChannels (s.tour i).live := by
      by_cases h : i = j
      · rw [h, tour]
        exact ⟨rfl, rfl, rfl⟩
      · rw [away i h]
        exact ⟨rfl, rfl, rfl⟩
    refine ⟨keeps.mono (by decide), fun i => ⟨(live i).1, (live i).2.1⟩, by rw [away slot hj.symm]; exact .refl _,
      fun _ => away slot hj.symm, fun _ => away slot hj.symm, fun z w hw => by rwa [queue] at hw,
      fun i => by rw [(live i).2.2]; exact List.Subset.refl _,
      fun i r hr _ => ⟨r, (keeps.receiver_eq (by decide) i).trans hr, .inl rfl⟩,
      fun p hp => by rw [keeps.program_eq (by decide) p]; exact hp,
      fun p _ => by rw [keeps.program_eq (by decide) p], fun c h1 h2 => ?_, fun _ c hc => ?_,
      ⟨keeps .enables (by decide), _, events⟩⟩
    · rw [channel]
      split <;> exact ⟨h1, h2⟩
    · rw [channel, if_neg (hc j hj)]

theorem tickWindow {j : Fin 16} (hj : j ≠ slot) (s : State) : Beside slot s (tickWindow j s) := by
  unfold Machine.tickWindow
  dsimp only
  split
  · exact refl s
  split
  · exact ((putLive hj (by exact List.Subset.refl _)).trans (dropPrevious hj _)).trans (serveZones _ _)
  · exact putLive hj (by exact List.Subset.refl _)

theorem tickSilence {j : Fin 16} (hj : j ≠ slot) (s : State) : Beside slot s (tickSilence j s) := by
  obtain ⟨stage, timer, fallback, h⟩ := tickSilence_silenced j s
  have away {i : Fin 16} (hi : i ≠ j) := h.away hi
  have live (i : Fin 16) : ((Machine.tickSilence j s).tour i).plan = (s.tour i).plan ∧
      ((Machine.tickSilence j s).tour i).timing = (s.tour i).timing ∧
      tourChannels ((Machine.tickSilence j s).tour i).live = tourChannels (s.tour i).live := by
    by_cases hi : i = j
    · rw [hi, h.tour]
      exact ⟨rfl, rfl, rfl⟩
    · rw [away hi]
      exact ⟨rfl, rfl, rfl⟩
  exact ⟨h.keeps.mono (by decide), fun i => ⟨(live i).1, (live i).2.1⟩, by rw [away hj.symm]; exact .refl _,
    fun _ => away hj.symm, fun _ => away hj.symm, fun z w hw => by rwa [h.keeps.zone_eq (by decide) z] at hw,
    fun i => by rw [(live i).2.2]; exact List.Subset.refl _,
    fun i r hr _ => ⟨r, (h.keeps.receiver_eq (by decide) i).trans hr, .inl rfl⟩,
    fun p hp => by rw [h.program p]; exact hp, fun p hp => by rw [h.unnamed p (hp j hj)],
    fun c h1 h2 => by rw [h.keeps.channel_eq (by decide) c]; exact ⟨h1, h2⟩,
    fun _ c _ => h.keeps.channel_eq (by decide) c, h.reports⟩

theorem closeActions {j : Fin 16} (hj : j ≠ slot) (s : State) : Beside slot s (closeActions false j s).1 := by
  have h := closeActions_spec false j s
  have gone : tourChannels ((Machine.closeActions false j s).1.tour j).live = [] :=
    List.eq_nil_iff_forall_not_mem.2 fun c hc => by
      obtain ⟨e, he⟩ := mem_tourChannels_iff.1 hc
      rw [h.live.2.2.2.1 e] at he
      cases he
  refine ⟨h.keeps, fun i => ?_, by rw [h.away slot hj.symm]; exact .refl _, fun _ => h.away slot hj.symm,
    fun _ => h.away slot hj.symm, fun z w hw => (h.queue z w hw).1, fun i => ?_, fun i r hr only => ⟨r, ?_, .inl rfl⟩,
    fun p hp => ?_, fun p hp => by rw [h.owned p (hp j hj)], fun c h1 h2 => ?_, fun _ c hc => ?_, h.reports⟩
  · by_cases hi : i = j
    · rw [hi]
      exact h.plan
    · rw [h.away i hi]
      exact ⟨rfl, rfl⟩
  · by_cases hi : i = j
    · rw [hi, gone]
      exact List.nil_subset _
    · rw [h.away i hi]
      exact List.Subset.refl _
  · rw [h.receiver, hr, releasedRecord, Option.map_some, if_neg (by rw [only.not_ofRun hj]; decide), dueRecord,
      Option.map_some, if_neg (by rw [only.not_ofRun hj]; decide)]
  · by_cases hin : InPlan s j p
    · exact (h.disowned p hin).1
    · rw [h.owned p hin]
      exact hp
  · rw [h.channel]
    split
    · exact ⟨rfl, rfl⟩
    · exact ⟨h1, h2⟩
  · rw [h.channel, if_neg (hc j hj)]

theorem judgeDeadlines (s : State) : Beside slot s (judgeDeadlines s) := by
  obtain ⟨records, events⟩ := judgeDeadlines_spec s
  have k := judgeDeadlines_keepsParts s
  obtain ⟨t, ht⟩ : ∃ t, t = Machine.judgeDeadlines s := ⟨_, rfl⟩
  rw [← ht] at records events k ⊢
  have tours (i : Fin 16) : t.tour i = s.tour i := k.tour_eq (by decide) i
  have channels (c : Fin 24) : t.channel c = s.channel c := k.channel_eq (by decide) c
  have programs (p : Fin 32) : t.program p = s.program p := k.program_eq (by decide) p
  refine ⟨k.mono (by decide), fun i => by rw [tours]; exact ⟨rfl, rfl⟩, by rw [tours]; exact .refl _, fun _ => tours slot,
    fun _ => tours slot, fun z w hw => by rwa [k.zone_eq (by decide) z] at hw,
    fun i => by rw [tours]; exact List.Subset.refl _, fun i r hr _ => ?_, fun p hp => by rw [programs]; exact hp,
    fun p _ => by rw [programs], fun c h1 h2 => by rw [channels]; exact ⟨h1, h2⟩, fun _ c _ => channels c,
    k .enables (by decide), _, events⟩
  rw [records, hr, judgedRecord, Option.map_some]
  refine ⟨_, rfl, ?_⟩
  split
  next h => exact .inr ⟨h, rfl⟩
  next => exact .inl rfl

theorem closeTour {j : Fin 16} (hj : j ≠ slot) (s : State) : Beside slot s (closeTour j s) := by
  have taken := closeActions hj s
  unfold Machine.closeTour
  dsimp only
  obtain ⟨r, hr⟩ : ∃ r, r = Machine.closeActions false j s := ⟨_, rfl⟩
  rw [← hr] at taken ⊢
  exact (taken.trans (serveZones _ _)).trans (judgeDeadlines _)

theorem tickTour {j : Fin 16} (hj : j ≠ slot) (s : State) : Beside slot s (tickTour j s) := by
  unfold Machine.tickTour
  split
  · refine (tickSilence hj s).trans ?_
    unfold Machine.tickClose
    dsimp only
    split
    · split
      · exact (putLive hj (by exact List.Subset.refl _)).trans (closeTour hj _)
      · exact putLive hj (by exact List.Subset.refl _)
    · exact refl _
  · exact refl s

theorem doWork {x : TourWork} (hx : x.slot ≠ slot) (s : State) : Beside slot s (doWork x s) := by
  cases x with
  | window j => exact tickWindow hx s
  | timers j => exact tickTour hx s

theorem forEach_doWork {order : List TourWork} (ho : ∀ x ∈ order, x.slot ≠ slot) (s : State) :
    Beside slot s (forEach order Machine.doWork s) := by
  induction order generalizing s with
  | nil => exact refl s
  | cons x xs ih =>
    exact (doWork (ho x List.mem_cons_self) s).trans (ih (fun y hy => ho y (List.mem_cons_of_mem _ hy)) _)

end Beside

/-! ### The order of the work -/

theorem mergeWork_perm (pick : Nat → Bool) (n : Nat) (ws ts : List TourWork) (h : ws.length + ts.length ≤ n) :
    (mergeWork pick n ws ts).Perm (ws ++ ts) := by
  induction n generalizing ws ts with
  | zero =>
    rw [List.length_eq_zero_iff.1 (by omega : ws.length = 0), List.length_eq_zero_iff.1 (by omega : ts.length = 0)]
    exact .refl _
  | succ n ih =>
    cases ws with
    | nil => exact .refl _
    | cons w ws =>
      cases ts with
      | nil => rw [List.append_nil]; exact .refl _
      | cons t ts =>
        rw [mergeWork]
        simp only [List.length_cons] at h
        split
        · exact (ih ws (t :: ts) (by simp only [List.length_cons]; omega)).cons w
        · exact ((ih (w :: ws) ts (by simp only [List.length_cons]; omega)).cons t).trans List.perm_middle.symm

/-- Every slot's window and timers come once in the order of a mix point (R54, R83, log 5). -/
theorem workOrder_perm (choice : Nat) :
    (workOrder choice).Perm ((indices 16).map .window ++ (indices 16).map .timers) :=
  mergeWork_perm _ _ _ _ (by simp)

theorem workOrder_nodup (choice : Nat) : (workOrder choice).Nodup := by
  rw [(workOrder_perm choice).nodup_iff]
  decide

theorem mem_workOrder (choice : Nat) (x : TourWork) : x ∈ workOrder choice := by
  rw [(workOrder_perm choice).mem_iff]
  cases x <;> simp

/-- A slot's two pieces of work, one first and one second. -/
def OwnPair (slot : Fin 16) (a b : TourWork) : Prop :=
  a = .window slot ∧ b = .timers slot ∨ a = .timers slot ∧ b = .window slot

/-- The order of a mix point as one slot sees it: its two pieces, and the work on other slots around them. -/
theorem workOrder_split (choice : Nat) (slot : Fin 16) : ∃ xs a ys b zs, OwnPair slot a b ∧
    workOrder choice = xs ++ a :: (ys ++ b :: zs) ∧
    (∀ x ∈ xs, x.slot ≠ slot) ∧ (∀ x ∈ ys, x.slot ≠ slot) ∧ ∀ x ∈ zs, x.slot ≠ slot := by
  have nodup := workOrder_nodup choice
  have own (x : TourWork) (hw : x ≠ .window slot) (ht : x ≠ .timers slot) : x.slot ≠ slot := by
    cases x with
    | window j => exact fun h => hw (congrArg _ h)
    | timers j => exact fun h => ht (congrArg _ h)
  have build {a b : TourWork} {xs ys zs : List TourWork} (pair : OwnPair slot a b)
      (ho : workOrder choice = xs ++ a :: (ys ++ b :: zs)) :
      (∀ x ∈ xs, x.slot ≠ slot) ∧ (∀ x ∈ ys, x.slot ≠ slot) ∧ ∀ x ∈ zs, x.slot ≠ slot := by
    rw [ho] at nodup
    have apart (x : TourWork) (ha : x ≠ a) (hb : x ≠ b) : x.slot ≠ slot := by
      rcases pair with ⟨rfl, rfl⟩ | ⟨rfl, rfl⟩
      · exact own x ha hb
      · exact own x hb ha
    simp only [List.nodup_append, List.nodup_cons, List.mem_append, List.mem_cons] at nodup
    refine ⟨fun x hx => apart x ?_ ?_, fun x hx => apart x ?_ ?_, fun x hx => apart x ?_ ?_⟩ <;> rintro rfl <;> grind
  obtain ⟨xs, rest, ho⟩ := List.append_of_mem (mem_workOrder choice (.window slot))
  have ht := mem_workOrder choice (.timers slot)
  rw [ho, List.mem_append, List.mem_cons] at ht
  rcases ht with ht | ht | ht
  · obtain ⟨ys, zs, hx⟩ := List.append_of_mem ht
    have pair : OwnPair slot (.timers slot) (.window slot) := .inr ⟨rfl, rfl⟩
    have ho' : workOrder choice = ys ++ .timers slot :: (zs ++ .window slot :: rest) := by
      rw [ho, hx, List.append_assoc, List.cons_append]
    exact ⟨ys, _, zs, _, rest, pair, ho', build pair ho'⟩
  · cases ht
  · obtain ⟨ys, zs, hr⟩ := List.append_of_mem ht
    have pair : OwnPair slot (.window slot) (.timers slot) := .inl ⟨rfl, rfl⟩
    have ho' : workOrder choice = xs ++ .window slot :: (ys ++ .timers slot :: zs) := by rw [ho, hr]
    exact ⟨xs, _, ys, _, zs, pair, ho', build pair ho'⟩

end Sys2Proof.Machine
end

section
/-! A mix point as one tour sees it, and the close timers (R54, R82, R83, R85). -/

namespace Sys2Proof.Machine

open Sys2Proof

variable {s t u : State} {slot : Fin 16}

/-! ### The state in which the work on the tours begins -/

/-- The state in which the work on the tours begins at a mix point. -/
def mixReady (s : State) : State := (mixEmitted (reachMix s) (takeSources (reachMix s))).useChoice

/-- What the sources, the programs and the PROGRAM frames of a mix point leave. -/
structure MixStart (s v : State) : Prop where
  keeps : KeepsAllBut [.clock, .sources, .programs, .zones, .events, .egress, .choices] s v
  source : ∀ i, v.source i = (mixPoint s).source i
  zone : v.zone = s.zone
  channel : ∀ c, v.channel c = { s.channel c with seq := (v.channel c).seq }
  program : ∀ p, (v.program p).owner = (s.program p).owner ∧ (v.program p).fallback = (s.program p).fallback
  reports : Reports s v

theorem mixedProgram_named (mode : HallMode) (apply : Bool) (feed : MixFeed) (p : Program) :
    (mixedProgram mode apply feed p).owner = p.owner ∧ (mixedProgram mode apply feed p).fallback = p.fallback := by
  unfold mixedProgram
  dsimp only
  split <;> rw [preparedProgram_eq] <;> exact ⟨rfl, rfl⟩

theorem emitProgram_zone (x : Fin 24 × Frame) (s : State) : (emitProgram x s).zone = s.zone :=
  funext fun z => KeepsAllBut.zone_eq (ps := [.egress]) (handOver_keeps .refl (by decide) (List.nil_subset _)) (by decide) z

theorem emitPrograms_zones (xs : List (Fin 24 × Frame)) (s : State) : (emitPrograms xs s).zone = s.zone ∧
    ∀ c, (emitPrograms xs s).channel c = { s.channel c with seq := ((emitPrograms xs s).channel c).seq } := by
  have each (ys : List (Fin 24 × Frame)) (s : State) : (forEach ys emitProgram s).zone = s.zone ∧ ∀ c,
      (forEach ys emitProgram s).channel c = { s.channel c with seq := ((forEach ys emitProgram s).channel c).seq } := by
    induction ys generalizing s with
    | nil => exact ⟨rfl, fun _ => rfl⟩
    | cons y ys ih =>
      obtain ⟨zones, channels⟩ := ih (emitProgram y s)
      refine ⟨zones.trans (emitProgram_zone y s), fun c => (channels c).trans ?_⟩
      rw [emitProgram_channel]
      split <;> rfl
  rw [emitPrograms_eq]
  split
  · exact ⟨rfl, fun _ => rfl⟩
  · exact each _ (supersede s)

theorem mixPrograms_zone (feed : MixFeed) (s : State) (z : Fin 12) : (mixPrograms feed s).zone z = s.zone z := rfl

theorem mixPrepared_zone (s : State) (z : Fin 12) : (mixPrepared s).zone z = s.zone z := by
  rw [mixPrepared, mixPrograms_zone, (takeSources_keeps (reachMix s)).zone_eq (by decide)]
  rfl

theorem mixReady_start (s : State) : MixStart s (mixReady s) := by
  have taken := takeSources_keeps (reachMix s)
  have reach : KeepsAllBut [.clock] s (reachMix s) := withClock_keeps (reach_keeps .refl (by decide)) (by decide)
  have frames := emitPrograms_zones (mixFrames s) (mixPrepared s)
  have emitted : KeepsAllBut [.programs, .zones, .egress] (takeSources (reachMix s))
      (mixEmitted (reachMix s) (takeSources (reachMix s))) :=
    emitPrograms_keeps (withMxr_keeps .refl (by decide)) (by decide) (by decide)
  have used : KeepsAllBut [.choices] (mixEmitted (reachMix s) (takeSources (reachMix s))) (mixReady s) :=
    useChoice_keeps .refl (by decide)
  have sources (i : Fin 48) : (mixReady s).source i = (takeSources (reachMix s)).source i :=
    (used.source_eq (by decide) i).trans (emitted.source_eq (by decide) i)
  refine ⟨((reach.mono (by decide)).trans (taken.mono (by decide))).trans
      ((emitted.mono (by decide)).trans (used.mono (by decide))), fun i => ?_, ?_, fun c => ?_, fun p => ?_, ?_⟩
  · rw [sources, (takeSources_spec (reachMix s)).1, mixPoint_source_eq]
    rfl
  · refine funext fun z => (used.zone_eq (by decide) z).trans ?_
    rw [mixEmitted_eq, frames.1, mixPrepared_zone]
  · have same := frames.2 c
    rw [← mixEmitted_eq, mixPrepared_channel] at same
    rw [used.channel_eq (by decide) c]
    exact same
  · have program : (mixReady s).program p = mixedProgram s.mge.mode s.mxr.applyRequest (mixFeed s (mixPoint s)) (s.program p) := by
      refine Eq.trans ?_ (mixPrograms_takeSources s p)
      rw [used.program_eq (by decide) p, State.program, mixEmitted_mxr]
      rfl
    rw [program]
    exact mixedProgram_named _ _ _ _
  · have first : Reports (reachMix s) (takeSources (reachMix s)) :=
      ⟨taken .enables (by decide), _, (takeSources_spec (reachMix s)).2⟩
    exact ((Reports.of_keeps reach (by decide)).trans first).trans
      ((Reports.of_keeps emitted (by decide)).trans (.of_keeps used (by decide)))

/-- The work of a mix point as one tour sees it: its own two pieces, and work on the others around them. -/
structure MixSeen (slot : Fin 16) (a b : TourWork) (s u v w x : State) : Prop where
  pair : OwnPair slot a b
  before : Beside slot (mixReady s) u
  between : Beside slot (doWork a u) v
  after : Beside slot (doWork b v) w
  done : x = rackSender w

theorem forEach_append_states {α : Type} (f : α → State → State) (xs ys : List α) (s : State) :
    forEach (xs ++ ys) f s = forEach ys f (forEach xs f s) := by
  rw [forEach, List.foldl_append]
  rfl

theorem mixPoint_eq (s : State) : mixPoint s =
    rackSender (forEach (workOrder (mixEmitted (reachMix s) (takeSources (reachMix s))).choices) doWork (mixReady s)) := rfl

theorem mixPoint_seen (slot : Fin 16) (s : State) : ∃ a b u v w, MixSeen slot a b s u v w (mixPoint s) := by
  obtain ⟨xs, a, ys, b, zs, pair, order, hx, hy, hz⟩ :=
    workOrder_split (mixEmitted (reachMix s) (takeSources (reachMix s))).choices slot
  refine ⟨a, b, forEach xs doWork (mixReady s), forEach ys doWork (doWork a (forEach xs doWork (mixReady s))), _, pair,
    Beside.forEach_doWork hx _, Beside.forEach_doWork hy _, Beside.forEach_doWork hz _, ?_⟩
  rw [mixPoint_eq, order, forEach_append_states]
  show rackSender (forEach (ys ++ b :: zs) doWork (doWork a (forEach xs doWork (mixReady s)))) = _
  rw [forEach_append_states]
  rfl

/-- Whether a tour's guide speaks, told by the Source Table. -/
theorem guideVoice_iff (s : State) (slot : Fin 16) : guideVoice s slot = true ↔
    ∃ p x, (s.tour slot).plan = some p ∧ s.source p.guide = some x ∧ x.live.voice = true := by
  unfold guideVoice
  cases hp : (s.tour slot).plan with
  | none => simp
  | some p =>
    dsimp only
    unfold voiceOf
    cases hx : s.source p.guide with
    | none => simp [hx]
    | some x => simp [hx]

/-- The guide's voice during a mix point is that of the sources after it. -/
theorem guideVoice_of_start (v : State) (h : ∀ i, v.source i = t.source i) (hp : (v.tour slot).plan = (s.tour slot).plan) :
    guideVoice v slot = true ↔
      ∃ p x, (s.tour slot).plan = some p ∧ t.source p.guide = some x ∧ x.live.voice = true := by
  rw [guideVoice_iff, hp]
  simp only [h]

end Sys2Proof.Machine
end

section
/-! The close timers at a mix point and by command (R82, R83, R85). -/

namespace Sys2Proof.Machine

open Sys2Proof

variable {s t u : State} {slot : Fin 16}

/-- A live record between two moments of its tour's work that close nothing: the silence stage and the handover may have
moved. -/
def SameTour (l m : TourLive) : Prop :=
  ∃ z p w g stage timer fallback, m = { l with
    zone := z, prevZone := p, window := w, target := g, stage := stage, timer := timer, fallback := fallback }

theorem SameRun.sameTour {l m : TourLive} (h : SameRun l m) : SameTour l m := by
  obtain ⟨z, p, w, g, rfl⟩ := h
  exact ⟨z, p, w, g, l.stage, l.timer, l.fallback, rfl⟩

theorem SameTour.trans {l m n : TourLive} (h : SameTour l m) (k : SameTour m n) : SameTour l n := by
  obtain ⟨_, _, _, _, _, _, _, rfl⟩ := h
  obtain ⟨z, p, w, g, a, b, c, rfl⟩ := k
  exact ⟨z, p, w, g, a, b, c, rfl⟩

/-- The parts that the close of a tour later reads, between two moments of the work of a mix point. -/
structure RunKept (slot : Fin 16) (s t : State) : Prop where
  keeps : KeepsAllBut [.receivers, .bays, .tours, .programs, .zones, .events, .egress] s t
  plan : (t.tour slot).plan = (s.tour slot).plan ∧ (t.tour slot).timing = (s.tour slot).timing
  live : SameTour (s.tour slot).live (t.tour slot).live
  record : ∀ h r, s.receiver h = some r → OnlyOf slot r →
    ∃ r', t.receiver h = some r' ∧ MayBeOverdue s.mge.hubTime r r'
  owner : ∀ p, (s.program p).owner = none → (t.program p).owner = none
  free : ∀ c, (s.channel c).phase = .free → (s.channel c).program = none →
    (t.channel c).phase = .free ∧ (t.channel c).program = none
  reports : Reports s t

theorem Beside.runKept (h : Beside slot s t) : RunKept slot s t :=
  ⟨h.keeps, h.plan slot, h.live.sameTour, h.record, h.owner, h.free, h.reports⟩

namespace RunKept

theorem trans (h : RunKept slot s t) (k : RunKept slot t u) : RunKept slot s u where
  keeps := h.keeps.trans k.keeps
  plan := ⟨k.plan.1.trans h.plan.1, k.plan.2.trans h.plan.2⟩
  live := h.live.trans k.live
  record i r hr only := by
    obtain ⟨r', hr', one⟩ := h.record i r hr only
    obtain ⟨r'', hr'', two⟩ := k.record i r' hr' (one.onlyOf only)
    rw [show t.mge.hubTime = s.mge.hubTime from h.keeps .hubTime (by decide)] at two
    exact ⟨r'', hr'', one.trans two⟩
  owner p hp := k.owner p (h.owner p hp)
  free c hc hp := (h.free c hc hp).elim (k.free c)
  reports := h.reports.trans k.reports

/-- A step that keeps the receivers and writes programs and channels as a tour's silence or handover does. -/
theorem of_keeps (keeps : KeepsAllBut [.tours, .programs, .zones, .events, .egress] s t)
    (plan : (t.tour slot).plan = (s.tour slot).plan ∧ (t.tour slot).timing = (s.tour slot).timing)
    (live : SameTour (s.tour slot).live (t.tour slot).live)
    (owner : ∀ p, (t.program p).owner = (s.program p).owner)
    (channel : ∀ c, (t.channel c).phase = (s.channel c).phase ∧ (t.channel c).program = (s.channel c).program)
    (reports : Reports s t) : RunKept slot s t :=
  ⟨keeps.mono (by decide), plan, live, fun i r hr _ => ⟨r, (keeps.receiver_eq (by decide) i).trans hr, .inl rfl⟩,
    fun p hp => (owner p).trans hp, fun c h1 h2 => ⟨(channel c).1.trans h1, (channel c).2.trans h2⟩, reports⟩

theorem refl (s : State) : RunKept slot s s := (Beside.refl s).runKept

theorem tickSilence (slot : Fin 16) (s : State) : RunKept slot s (tickSilence slot s) := by
  obtain ⟨stage, timer, fallback, h⟩ := tickSilence_silenced slot s
  refine of_keeps (h.keeps.mono (by decide)) (by rw [h.tour]; exact ⟨rfl, rfl⟩) ?_
    (fun p => by rw [h.program p]) (fun c => by rw [h.keeps.channel_eq (by decide) c]; exact ⟨rfl, rfl⟩) h.reports
  rw [h.tour]
  exact ⟨_, _, _, _, stage, timer, fallback, rfl⟩

theorem putWindow (slot : Fin 16) (w : Option Nat) (s : State) :
    RunKept slot s (s.putLive slot { (s.tour slot).live with window := w }) :=
  of_keeps (putLive_keeps .refl (by decide)) (by rw [putLive_tour_self]; exact ⟨rfl, rfl⟩)
    (by rw [putLive_tour_self]; exact ⟨_, _, w, _, _, _, _, rfl⟩) (fun _ => rfl) (fun _ => ⟨rfl, rfl⟩)
    (.of_keeps (putLive_keeps (ps := [.tours]) .refl (by decide)) (by decide))

theorem dropPrevious (slot : Fin 16) (s : State) : RunKept slot s (dropPrevious slot s) := by
  cases hp : (s.tour slot).live.prevZone with
  | none => rw [dropPrevious_of_none hp]; exact refl s
  | some p =>
    obtain ⟨keeps, tour, -, channel, -, -, events⟩ := dropPrevious_spec hp
    refine of_keeps (keeps.mono (by decide)) (by rw [tour]; exact ⟨rfl, rfl⟩) ?_
      (fun p => by rw [keeps.program_eq (by decide) p]) (fun c => ?_) ⟨keeps .enables (by decide), _, events⟩
    · rw [tour]
      exact ⟨_, none, none, _, _, _, _, rfl⟩
    · rw [channel]
      split <;> exact ⟨rfl, rfl⟩

theorem tickWindow (slot : Fin 16) (s : State) : RunKept slot s (tickWindow slot s) := by
  unfold Machine.tickWindow
  dsimp only
  split
  · exact refl s
  split
  · exact ((putWindow slot _ s).trans (dropPrevious slot _)).trans (Beside.serveZones _ _).runKept
  · exact putWindow slot _ s

end RunKept

/-- A closed tour has no window to count. -/
theorem tickWindow_of_none (h : (s.tour slot).live.prevZone = none) : tickWindow slot s = s := by
  unfold tickWindow
  dsimp only
  rw [h]

/-! ### A CLOSING tour at a mix point -/

/-- What a mix point does around the close timers of one tour. -/
structure CloseSeen (slot : Fin 16) (s y z t : State) : Prop where
  before : RunKept slot (mixReady s) y
  after : RunKept slot (tickClose slot y) z
  still : ((tickClose slot y).tour slot).live.zone = none → ((tickClose slot y).tour slot).live.prevZone = none →
    z.tour slot = (tickClose slot y).tour slot
  done : t = rackSender z

theorem tickTour_of_running (h : isRunning (s.tour slot) = true) : tickTour slot s = tickClose slot (tickSilence slot s) :=
  if_pos h

theorem mixPoint_closeSeen (h : (s.tour slot).live.phase = .closing) : ∃ y z, CloseSeen slot s y z (mixPoint s) := by
  obtain ⟨a, b, u, v, w, pair, before, between, after, done⟩ := mixPoint_seen slot s
  have start := mixReady_start s
  have closing {x : State} (hx : RunKept slot (mixReady s) x) : isRunning (x.tour slot) = true := by
    obtain ⟨_, _, _, _, _, _, _, hl⟩ := hx.live
    refine isRunning_iff.2 (.inr ?_)
    rw [hl, start.keeps.tour_eq (by decide) slot]
    exact h
  rcases pair with ⟨rfl, rfl⟩ | ⟨rfl, rfl⟩
  · have first := (before.runKept.trans (RunKept.tickWindow slot u)).trans between.runKept
    have run : doWork (.timers slot) v = tickClose slot (tickSilence slot v) := tickTour_of_running (closing first)
    rw [run] at after
    exact ⟨_, w, first.trans (RunKept.tickSilence slot v), after.runKept, fun hz _ => after.unzoned hz, done⟩
  · have run : doWork (.timers slot) u = tickClose slot (tickSilence slot u) := tickTour_of_running (closing before.runKept)
    rw [run] at between
    refine ⟨_, w, before.runKept.trans (RunKept.tickSilence slot u),
      (between.runKept.trans (RunKept.tickWindow slot v)).trans after.runKept, fun hz hp => ?_, done⟩
    have kept := between.unzoned hz
    have same : doWork (.window slot) v = v := tickWindow_of_none (by rw [kept]; exact hp)
    rw [after.unzoned (by rw [same, kept]; exact hz), same, kept]

/-- A record that a close finds after, and that is judged once more after it. -/
theorem ReceiverClosed.between {run : BitVec 16} {deadline time : Nat} {r r₁ r₂ r₃ : Receiver}
    (h : MayBeOverdue time r r₁) (closed : ReceiverClosed slot run deadline time r₁ r₂) (k : MayBeOverdue time r₂ r₃) :
    ReceiverClosed slot run deadline time r r₃ := by
  have settled : r₃ = r₂ := by
    rcases k with rfl | ⟨late, rfl⟩
    · rfl
    obtain ⟨hp, d, hd, hle⟩ := deadlineReached_iff.1 late
    unfold ReceiverClosed at closed
    dsimp only at closed
    split at closed
    · rw [closed] at hp
      cases hp
    split at closed
    · rw [closed] at hd hp
      obtain rfl := Option.some.inj hd
      dsimp only at hp
      rw [if_pos hle] at hp
      cases hp
    · by_cases due : r₁.phase = .due
      · rw [if_pos due] at closed
        rw [closed] at hd hp
        dsimp only at hd hp
        rw [hd, Option.map_some, Option.getD_some, if_pos hle] at hp
        cases hp
      · rw [if_neg due] at closed
        rw [closed] at hp
        exact absurd hp due
  subst settled
  rcases h with rfl | ⟨late, rfl⟩
  · exact closed
  obtain ⟨hp, d, hd, hle⟩ := deadlineReached_iff.1 late
  unfold ReceiverClosed at closed ⊢
  dsimp only at closed ⊢
  rw [if_neg (by simp), if_neg (by simp), if_neg (by simp)] at closed
  rw [if_neg (by simp [hp]), if_neg (by simp [hp]), if_pos hp, hd, Option.map_some, Option.getD_some, if_pos hle, closed,
    ← hd]

/-- The close hold that a mix point leaves, told by the guide's voice (R82). -/
theorem nextHold_eq {voice : Bool} {speaks : Prop} (hv : voice = true ↔ speaks) {old hold : Option Nat} {full : Nat}
    (h1 : speaks → hold = none) (h2 : ¬ speaks → hold = some (old.getD full - 1)) : nextHold voice old full = hold := by
  unfold nextHold
  split
  next h => exact (h1 (hv.1 h)).symm
  next h =>
    rw [h2 (mt hv.2 h)]
    cases old <;> rfl

/-- The close timers of a CLOSING tour at a mix point (R82, R83). -/
theorem tickClose_of_closing (h : (s.tour slot).live.phase = .closing) : tickClose slot s =
    let hold := nextHold (guideVoice s slot) (s.tour slot).live.hold ((timingOf (s.tour slot)).closeHold * 250)
    let wait := (s.tour slot).live.wait.getD 0 - 1
    let u := s.putLive slot { (s.tour slot).live with hold := hold, wait := some wait }
    if hold = some 0 ∨ wait = 0 then closeTour slot u else u := by
  unfold tickClose
  exact if_pos h

/-- A close after the close timers were written is a close of the tour as it was. -/
theorem closeTour_of_timers (hold wait : Option Nat) (s : State) : TourEnded slot s
    (closeTour slot (s.putLive slot { (s.tour slot).live with hold := hold, wait := wait })) := by
  have ended := closeTour_ended slot (s.putLive slot { (s.tour slot).live with hold := hold, wait := wait })
  have tour := putLive_tour_self slot { (s.tour slot).live with hold := hold, wait := wait } s
  have away := fun k (hk : k ≠ slot) => putLive_tour_ne hk { (s.tour slot).live with hold := hold, wait := wait } s
  obtain ⟨u, hu⟩ : ∃ u, u = s.putLive slot { (s.tour slot).live with hold := hold, wait := wait } := ⟨_, rfl⟩
  have keeps : KeepsAllBut [.tours] s u := hu ▸ putLive_keeps .refl (by decide)
  rw [← hu] at ended tour away ⊢
  obtain ⟨⟨live, plan, timing, absent, present, programs, channels⟩, ⟨more, events⟩, kept⟩ := ended
  have clock : u.mge = s.mge := keeps.mge_eq (by decide) (by decide) (by decide) (by decide)
  have deadline : dueDeadline u = dueDeadline s := by rw [dueDeadline, dueDeadline, clock]
  have receivers (h : Fin 384) : u.receiver h = s.receiver h := keeps.receiver_eq (by decide) h
  have seqs (c : Fin 24) : u.channel c = s.channel c := keeps.channel_eq (by decide) c
  rw [tour] at live plan timing present programs channels events
  rw [clock] at events
  simp only [receivers, deadline, clock] at absent present
  refine ⟨⟨live, plan, timing, absent, present, programs, fun e ch hch => ?_⟩,
    ⟨more, events.of_evq (keeps.evq_eq (by decide)).symm⟩, (keeps.mono (by decide)).trans kept⟩
  obtain ⟨phase, program, seq, zones⟩ := channels e ch hch
  rw [seqs] at seq
  exact ⟨phase, program, seq, fun alone => zones fun k hk e' => by rw [away k hk]; exact alone k hk e'⟩

end Sys2Proof.Machine
end

section
/-! CLOSE_HOLD_EXPIRY and CLOSE_WAIT_EXPIRY, and the close timers of MIX_POINT (R82, R83, R85). -/

namespace Sys2Proof.Machine

open Sys2Proof

variable {s t u : State} {slot : Fin 16}

/-- What a mix point leaves of a CLOSING tour whose hold or wait comes to 0. -/
structure MixClosed (slot : Fin 16) (s t : State) : Prop where
  live : LiveClosed (s.tour slot).live (t.tour slot).live
  plan : (t.tour slot).plan = (s.tour slot).plan
  timing : (t.tour slot).timing = (s.tour slot).timing
  record : ∀ h r, s.receiver h = some r → r.tour.map (fun x => (x.slot, x.run)) = some (slot, (s.tour slot).live.run) →
    ∃ r', t.receiver h = some r' ∧
      ReceiverClosed slot (s.tour slot).live.run (dueDeadline s) s.mge.hubTime r r'
  owner : ∀ p e x, (s.tour slot).plan = some p → p.entries.get e = some x → (t.program x.program).owner = none
  channel : ∀ e ch, (s.tour slot).live.channels.get e = some ch →
    (t.channel ch).phase = .free ∧ (t.channel ch).program = none
  events : ∃ before after, EventsTaken (before ++ [⟨.tourClosed, s.mge.hubTime, slot.val, some (s.tour slot).live.run,
    (s.tour slot).live.issued * 256 + (s.tour slot).live.returned⟩] ++ after) s t

theorem onlyOf_of_inRun {run : BitVec 16} {r : Receiver} (h : r.tour.map (fun x => (x.slot, x.run)) = some (slot, run)) :
    OnlyOf slot r := by
  intro x hx
  rw [hx, Option.map_some, Option.some.injEq] at h
  exact (Prod.mk.inj h).1

/-- A record that a close leaves names no slot but the one closed. -/
theorem ReceiverClosed.onlyOf {run : BitVec 16} {deadline time : Nat} {r r' : Receiver}
    (h : ReceiverClosed slot run deadline time r r') (only : OnlyOf slot r) : OnlyOf slot r' := by
  unfold ReceiverClosed at h
  dsimp only at h
  split at h
  · rw [h]
    exact nofun
  split at h <;> rw [h] <;> exact only

/-- The live record of a tour when the close timers are looked at. -/
theorem CloseSeen.tour {y z : State} (h : CloseSeen slot s y z t) : (y.tour slot).plan = (s.tour slot).plan ∧
    (y.tour slot).timing = (s.tour slot).timing ∧ SameTour (s.tour slot).live (y.tour slot).live := by
  have start := (mixReady_start s).keeps.tour_eq (by decide) slot
  obtain ⟨plan, timing⟩ := h.before.plan
  have live := h.before.live
  rw [start] at plan timing live
  exact ⟨plan, timing, live⟩

/-- The close of a tour at a mix point, with what comes before and after. -/
theorem CloseSeen.closed {y z : State} (h : CloseSeen slot s y z t) (ended : TourEnded slot y (tickClose slot y)) :
    MixClosed slot s t := by
  obtain ⟨before, after, still, done⟩ := h
  have start := mixReady_start s
  obtain ⟨plan, timing, live⟩ := CloseSeen.tour ⟨before, after, still, done⟩
  have clock : (mixReady s).mge = s.mge := start.keeps.mge_eq (by decide) (by decide) (by decide) (by decide)
  have clock' : y.mge = s.mge := (before.keeps.mge_eq (by decide) (by decide) (by decide) (by decide)).trans clock
  have deadline : dueDeadline y = dueDeadline s := by rw [dueDeadline, dueDeadline, clock']
  obtain ⟨c, hc⟩ : ∃ c, c = tickClose slot y := ⟨_, rfl⟩
  rw [← hc] at ended after still
  obtain ⟨⟨lives, plans, timings, -, present, programs, channels⟩, ⟨more, events⟩, kept⟩ := ended
  have clock'' : c.mge.hubTime = s.mge.hubTime := (kept .hubTime (by decide)).trans (by rw [clock'])
  have sent := rackSender_keepsParts z
  rw [← done] at sent
  have tour : t.tour slot = c.tour slot :=
    (sent.tour_eq (by decide) slot).trans (still lives.2.2.2.2.1 lives.2.2.2.2.2.1)
  obtain ⟨_, _, _, _, _, _, _, same⟩ := live
  refine ⟨?_, by rw [tour, plans, plan], by rw [tour, timings, timing], fun i r hr mine => ?_, fun p e x hp hx => ?_,
    fun e ch hch => ?_, ?_⟩
  · rw [tour]
    rw [same] at lives
    exact lives
  · have only := onlyOf_of_inRun mine
    obtain ⟨r₁, hr₁, one⟩ := before.record i r ((start.keeps.receiver_eq (by decide) i).trans hr) only
    obtain ⟨r₂, hr₂, two⟩ := present i r₁ hr₁
    obtain ⟨r₃, hr₃, three⟩ := after.record i r₂ hr₂ (two.onlyOf (one.onlyOf only))
    rw [clock] at one
    rw [same, deadline, clock'] at two
    rw [clock''] at three
    exact ⟨r₃, (sent.receiver_eq (by decide) i).trans hr₃, ReceiverClosed.between one two three⟩
  · rw [sent.program_eq (by decide)]
    exact after.owner _ (programs p e x (plan.trans hp) hx).1
  · rw [sent.channel_eq (by decide)]
    obtain ⟨phase, program, -, -⟩ := channels e ch (by rw [same]; exact hch)
    exact after.free ch phase program
  · obtain ⟨en₀, es₀, ev₀⟩ := start.reports
    obtain ⟨en₁, es₁, ev₁⟩ := before.reports
    obtain ⟨en₂, es₂, ev₂⟩ := after.reports
    have enables : y.evq.enables = s.evq.enables := en₁.trans en₀
    have enables' : c.evq.enables = s.evq.enables := (kept .enables (by decide)).trans enables
    rw [same, clock'] at events
    refine ⟨es₀ ++ es₁, more ++ es₂, ?_⟩
    have all := (((ev₀.append ev₁ en₀).append events enables).append ev₂ enables').to_evq (sent.evq_eq (by decide))
    simpa using all

/-- The hold that runs out at the next mix point of a tour whose guide is quiet (R82). -/
theorem holdDue_iff : holdDue s slot = true ↔ (s.tour slot).live.phase = .closing ∧ guideVoice s slot = false ∧
    ((∃ n, (s.tour slot).live.hold = some n ∧ n ≤ 1) ∨
      ((s.tour slot).live.hold = none ∧ (timingOf (s.tour slot)).closeHold = 0)) := by
  unfold holdDue nextHold
  simp only [Bool.and_eq_true, decide_eq_true_eq]
  refine and_congr_right fun _ => ?_
  have periods : Config.periodsPerSecond = 250 := rfl
  cases guideVoice s slot with
  | true => simp
  | false =>
    cases (s.tour slot).live.hold with
    | none => simp [periods]; omega
    | some n => simp; omega

theorem waitDue_iff : waitDue s slot = true ↔
    (s.tour slot).live.phase = .closing ∧ (s.tour slot).live.wait.getD 0 ≤ 1 := by
  unfold waitDue
  simp only [Bool.and_eq_true, decide_eq_true_eq]

theorem exec_closeHoldExpiry (slot : Fin 16) (s : State) : exec (.closeHoldExpiry slot) s =
    .next (if holdDue s slot then rackSender (closeTour slot s) else s) := rfl

theorem exec_closeWaitExpiry (slot : Fin 16) (s : State) : exec (.closeWaitExpiry slot) s =
    .next (if waitDue s slot then rackSender (closeTour slot s) else s) := rfl

/-- A CLOSING tour whose timers do not run out stays CLOSING, with both timers counted (R82, R83). -/
theorem CloseSeen.counted {y z : State} (h : CloseSeen slot s y z t) {hold wait : Option Nat}
    (run : tickClose slot y = y.putLive slot { (y.tour slot).live with hold := hold, wait := wait }) :
    (t.tour slot).live.phase = (s.tour slot).live.phase ∧ (t.tour slot).live.hold = hold ∧
      (t.tour slot).live.wait = wait := by
  obtain ⟨-, -, live⟩ := h.tour
  obtain ⟨_, _, _, _, _, _, _, same⟩ := live
  have kept := h.after.live
  rw [run, putLive_tour_self] at kept
  obtain ⟨_, _, _, _, _, _, _, last⟩ := kept
  have sent := rackSender_keepsParts z
  rw [← h.done] at sent
  rw [sent.tour_eq (by decide) slot, last, same]
  exact ⟨rfl, rfl, rfl⟩

/-- Settles O57: the close timers at a mix point by whether they run out, and the two commands. -/
theorem closeTimersCloseTour : Obligations.CloseTimersCloseTour := by
  unfold Obligations.CloseTimersCloseTour
  refine ⟨fun s slot => ?_, fun s slot => ?_⟩
  · by_cases closing : (s.tour slot).live.phase = .closing
    · obtain ⟨y, z, seen⟩ := mixPoint_closeSeen closing
      obtain ⟨plan, timing, live⟩ := seen.tour
      have voice := guideVoice_of_start (s := s) (t := mixPoint s) (slot := slot) y (fun i =>
        (seen.before.keeps.source_eq (by decide) i).trans ((mixReady_start s).source i)) plan
      have times : timingOf (y.tour slot) = timingOf (s.tour slot) := by rw [timingOf, timingOf, timing]
      obtain ⟨_, _, _, _, _, _, _, same⟩ := live
      have run := tickClose_of_closing (s := y) (slot := slot) (by rw [same]; exact closing)
      dsimp only at run
      rw [times] at run
      have holds : (y.tour slot).live.hold = (s.tour slot).live.hold := by rw [same]
      have waits : (y.tour slot).live.wait = (s.tour slot).live.wait := by rw [same]
      rw [holds, waits] at run
      have ended := closeTour_of_timers (slot := slot) (nextHold (guideVoice y slot) (s.tour slot).live.hold
        ((timingOf (s.tour slot)).closeHold * 250)) (some ((s.tour slot).live.wait.getD 0 - 1)) y
      by_cases due : nextHold (guideVoice y slot) (s.tour slot).live.hold ((timingOf (s.tour slot)).closeHold * 250) = some 0 ∨
          (s.tour slot).live.wait.getD 0 - 1 = 0
      · rw [if_pos due] at run
        have closed := seen.closed (run ▸ ended)
        obtain ⟨before, after, events⟩ := closed.events
        refine ⟨mixPoint s, before, after, rfl, fun _ hold h1 h2 => ?_⟩
        have hold_eq := nextHold_eq voice h1 h2
        rw [hold_eq] at due
        exact ⟨fun h => absurd due h, fun _ => ⟨closed.live, closed.plan, closed.timing, closed.record, closed.owner,
          closed.channel, events⟩⟩
      · rw [if_neg due] at run
        obtain ⟨phase, hold', wait'⟩ := seen.counted run
        refine ⟨mixPoint s, [], [], rfl, fun _ hold h1 h2 => ?_⟩
        have hold_eq := nextHold_eq voice h1 h2
        rw [hold_eq] at due hold'
        exact ⟨fun _ => ⟨phase.trans closing, hold', wait'⟩, fun h => absurd h due⟩
    · exact ⟨mixPoint s, [], [], rfl, fun h => absurd h closing⟩
  · intro l hold closes
    have closed := (closeTour_ended slot s).rackSender
    obtain ⟨tour, ⟨more, events⟩, keeps⟩ := closed
    have byHold (h : holdDue s slot = true) : closes (.closeHoldExpiry slot) := by
      have run := exec_closeHoldExpiry slot s
      rw [if_pos h] at run
      exact ⟨_, more, run, tour, events, keeps⟩
    have byWait (h : waitDue s slot = true) : closes (.closeWaitExpiry slot) := by
      have run := exec_closeWaitExpiry slot s
      rw [if_pos h] at run
      exact ⟨_, more, run, tour, events, keeps⟩
    refine ⟨fun h => byHold (holdDue_iff.2 h), fun h => ?_, fun w hp hw hle => byWait (waitDue_iff.2 ⟨hp, ?_⟩), fun h => ?_⟩
    · rw [exec_closeHoldExpiry, if_neg (mt holdDue_iff.1 h)]
    · show l.wait.getD 0 ≤ 1
      rw [hw]
      exact hle
    · rw [exec_closeWaitExpiry, if_neg]
      rw [waitDue_iff]
      rintro ⟨hp, hle⟩
      rcases h with h | ⟨w, hw, hlt⟩
      · exact h hp
      · have value : l.wait.getD 0 = w := by rw [hw]; rfl
        have : l.wait.getD 0 ≤ 1 := hle
        omega

end Sys2Proof.Machine
end

section
/-! GUIDE_QUIET, FALLBACK_WRITE and the silence stages of MIX_POINT (R76 to R78). -/

namespace Sys2Proof.Machine

open Sys2Proof

variable {s t u : State} {slot : Fin 16}

/-! ### The commands -/

/-- No two entries of a plan share a program. -/
def ProgramsApart (p : Plan) : Prop :=
  ∀ e f x y, p.entries.get e = some x → p.entries.get f = some y → x.program = y.program → e = f

theorem ProgramsApart.alone {p : Plan} (h : ProgramsApart p) {x : Fin 4 × Entry} (hx : x ∈ planEntries p) :
    ∀ y ∈ planEntries p, y.2.program = x.2.program → y.1 = x.1 :=
  fun _ hy e => h _ _ _ _ (mem_planEntries_iff.1 hy) (mem_planEntries_iff.1 hx) e

theorem writtenFallback_eq (p : Plan) (stop : Stop) : writtenFallback p stop =
    if ∃ e, (p.entries.get e).isSome = true ∧ (stop.fallback.get e).isSome = true then .on else .none := by
  unfold writtenFallback
  split
  next h =>
    rw [if_neg]
    rintro ⟨e, he⟩
    have := mem_spokenEntries.2 he
    rw [h] at this
    cases this
  next h =>
    obtain ⟨e, he⟩ := List.exists_mem_of_ne_nil _ h
    rw [if_pos ⟨e, mem_spokenEntries.1 he⟩]

/-- What FALLBACK_WRITE leaves (R78). -/
theorem FallbackOut.told {p : Plan} {stop : Stop} (h : FallbackOut slot p stop s t) (hp : (s.tour slot).plan = some p)
    (apart : ProgramsApart p) :
    let bits := entrySet (spokenEntries p stop)
    (∀ e x, p.entries.get e = some x →
      t.program x.program = { s.program x.program with fallback := stop.fallback.get e }) ∧
    (∀ q, (∀ e x, p.entries.get e = some x → x.program ≠ q) → t.program q = s.program q) ∧
    t.mxr.applyRequest = s.mxr.applyRequest ∧
    t.tcl = (s.putLive slot { (s.tour slot).live with
      stage := 2, timer := 0, fallback := if bits = 0 then .none else .on }).tcl ∧
    EventsTaken [⟨if bits = 0 then .fallbackNone else .fallbackOn, s.mge.hubTime, slot.val, some (s.tour slot).live.run,
      (s.tour slot).live.stop * 256 + bits⟩] s t ∧
    KeepsAllBut [.tours, .programs, .events, .egress] s t := by
  intro bits
  have zero : bits = 0 ↔ spokenEntries p stop = [] := entrySet_eq_zero_iff
  have events := h.events
  have tcl := h.silenced.tcl
  unfold writtenFallback at tcl
  simp only [← zero] at events tcl
  refine ⟨fun e x hx => ?_, fun q hq => h.silenced.unnamed q ?_, h.silenced.applyRequest, tcl, events, h.silenced.keeps⟩
  · have mem : (e, x) ∈ planEntries p := mem_planEntries_iff.2 hx
    rw [h.silenced.program x.program, h.program (e, x) mem (apart.alone mem)]
  · rintro ⟨p', e, x, hp', hx, rfl⟩
    obtain rfl := Option.some.inj (hp.symm.trans hp')
    exact hq e x hx rfl

/-- What GUIDE_QUIET leaves (R77). -/
theorem guideQuiet_told (h0 : (s.tour slot).live.stage = 0) (ht : (s.tour slot).live.timer ≤ 1) :
    (countSilence slot s).tcl = (s.putLive slot { (s.tour slot).live with
      stage := 1, timer := (timingOf (s.tour slot)).q2 * 250 }).tcl ∧
    EventsTaken [⟨.guideQuiet, s.mge.hubTime, slot.val, some (s.tour slot).live.run, 0⟩] s (countSilence slot s) ∧
    KeepsAllBut [.tours, .events, .egress] s (countSilence slot s) := by
  rw [countSilence_first h0 ht]
  have tour := putLive_tour_self slot { (s.tour slot).live with
    stage := 1, timer := (timingOf (s.tour slot)).q2 * 250 } s
  obtain ⟨v, hv⟩ : ∃ v, v = s.putLive slot { (s.tour slot).live with
    stage := 1, timer := (timingOf (s.tour slot)).q2 * 250 } := ⟨_, rfl⟩
  have put : KeepsAllBut [.tours] s v := hv ▸ putLive_keeps .refl (by decide)
  rw [← hv] at tour ⊢
  have rise : KeepsAllBut [.events, .egress] v (raiseTour .guideQuiet slot 0 v) :=
    raiseEvent_keeps .refl (by decide) (by decide)
  refine ⟨rise .tours (by decide), ?_, (put.mono (by decide)).trans (rise.mono (by decide))⟩
  rw [raiseTour, tour]
  exact .raise_of_evq (put.evq_eq (by decide)) (put .hubTime (by decide))

/-! ### MIX_POINT -/

/-- The parts that a silence stage reads and writes, between two moments of a mix point's work on other things. -/
structure SilenceKept (slot : Fin 16) (s t : State) : Prop where
  keeps : KeepsAllBut [.receivers, .bays, .tours, .programs, .zones, .events, .egress] s t
  plan : ∀ k, (t.tour k).plan = (s.tour k).plan ∧ (t.tour k).timing = (s.tour k).timing
  live : SameRun (s.tour slot).live (t.tour slot).live
  fallback : ∀ p, (∀ k, k ≠ slot → ¬ InPlan s k p) → (t.program p).fallback = (s.program p).fallback

theorem Beside.silenceKept (h : Beside slot s t) : SilenceKept slot s t := ⟨h.keeps, h.plan, h.live, h.fallback⟩

theorem SilenceKept.trans (h : SilenceKept slot s t) (k : SilenceKept slot t u) : SilenceKept slot s u where
  keeps := h.keeps.trans k.keeps
  plan i := ⟨(k.plan i).1.trans (h.plan i).1, (k.plan i).2.trans (h.plan i).2⟩
  live := h.live.trans k.live
  fallback p hp := by
    rw [k.fallback p fun i hi hin => hp i hi ?_, h.fallback p hp]
    obtain ⟨q, e, x, hq, he, hx⟩ := hin
    exact ⟨q, e, x, (h.plan i).1.symm.trans hq, he, hx⟩

/-- A handover write of the tour's own. -/
theorem SilenceKept.of_keeps (keeps : KeepsAllBut [.tours, .zones, .events, .egress] s t)
    (away : ∀ k, k ≠ slot → t.tour k = s.tour k)
    (plan : (t.tour slot).plan = (s.tour slot).plan ∧ (t.tour slot).timing = (s.tour slot).timing)
    (live : SameRun (s.tour slot).live (t.tour slot).live) : SilenceKept slot s t := by
  refine ⟨keeps.mono (by decide), fun k => ?_, live, fun p _ => by rw [keeps.program_eq (by decide) p]⟩
  by_cases hk : k = slot
  · rw [hk]
    exact plan
  · rw [away k hk]
    exact ⟨rfl, rfl⟩

theorem tickWindow_silenceKept (slot : Fin 16) (s : State) : SilenceKept slot s (tickWindow slot s) := by
  have put (w : Option Nat) : SilenceKept slot s (s.putLive slot { (s.tour slot).live with window := w }) :=
    .of_keeps (putLive_keeps .refl (by decide)) (fun k hk => putLive_tour_ne hk _ _)
      (by rw [putLive_tour_self]; exact ⟨rfl, rfl⟩) (by rw [putLive_tour_self]; exact ⟨_, _, w, _, rfl⟩)
  unfold tickWindow
  dsimp only
  split
  · exact (Beside.refl s).silenceKept
  split
  · refine ((put (some 0)).trans ?_).trans (Beside.serveZones _ _).silenceKept
    obtain ⟨v, hv⟩ : ∃ v, v = s.putLive slot { (s.tour slot).live with window := some 0 } := ⟨_, rfl⟩
    rw [← hv]
    cases hp : (v.tour slot).live.prevZone with
    | none => rw [dropPrevious_of_none hp]; exact (Beside.refl v).silenceKept
    | some p =>
      obtain ⟨keeps, tour, away, -, -, -, -⟩ := dropPrevious_spec hp
      exact .of_keeps keeps away (by rw [tour]; exact ⟨rfl, rfl⟩) (by rw [tour]; exact ⟨_, none, none, _, rfl⟩)
  · exact put _

/-- What a mix point does around the silence stage of one tour. -/
structure SilenceSeen (slot : Fin 16) (s y z t : State) : Prop where
  before : SilenceKept slot (mixReady s) y
  after : SilenceKept slot (tickTour slot y) z
  done : t = rackSender z

theorem mixPoint_silenceSeen (slot : Fin 16) (s : State) : ∃ y z, SilenceSeen slot s y z (mixPoint s) := by
  obtain ⟨a, b, u, v, w, pair, before, between, after, done⟩ := mixPoint_seen slot s
  rcases pair with ⟨rfl, rfl⟩ | ⟨rfl, rfl⟩
  · exact ⟨v, w, (before.silenceKept.trans (tickWindow_silenceKept slot u)).trans between.silenceKept, after.silenceKept, done⟩
  · exact ⟨u, w, before.silenceKept, (between.silenceKept.trans (tickWindow_silenceKept slot v)).trans after.silenceKept,
      done⟩

/-- The close timers of a tour that is not closed. -/
structure TimersCounted (slot : Fin 16) (s t : State) : Prop where
  tour : ∃ hold wait, t.tour slot = { s.tour slot with live := { (s.tour slot).live with hold := hold, wait := wait } }
  program : ∀ p, t.program p = s.program p
  channel : ∀ c, t.channel c = s.channel c

/-- The close timers after the silence stage of a running tour: counted, or its close. -/
theorem tickTour_cases (h : isRunning (s.tour slot) = true) : TimersCounted slot (tickSilence slot s) (tickTour slot s) ∨
    (s.tour slot).live.phase = .closing ∧ TourEnded slot (tickSilence slot s) (tickTour slot s) := by
  rw [tickTour_of_running h]
  obtain ⟨_, _, _, silenced⟩ := tickSilence_silenced slot s
  have phase : (s.tour slot).live.phase = ((tickSilence slot s).tour slot).live.phase := by rw [silenced.tour]
  rw [phase]
  obtain ⟨v, hv⟩ : ∃ v, v = tickSilence slot s := ⟨_, rfl⟩
  rw [← hv]
  by_cases closing : (v.tour slot).live.phase = .closing
  · rw [tickClose_of_closing closing]
    dsimp only
    split
    · exact .inr ⟨closing, closeTour_of_timers _ _ v⟩
    · exact .inl ⟨by rw [putLive_tour_self]; exact ⟨_, _, rfl⟩, fun _ => rfl, fun _ => rfl⟩
  · have same : tickClose slot v = v := if_neg closing
    rw [same]
    exact .inl ⟨⟨(v.tour slot).live.hold, (v.tour slot).live.wait, rfl⟩, fun _ => rfl, fun _ => rfl⟩

/-- The close timers after the silence stage of a running tour that is not closed. -/
theorem tickTour_of_open (h : isRunning (s.tour slot) = true)
    (hc : (s.tour slot).live.phase = .live ∨ ((tickTour slot s).tour slot).live.phase ≠ .planned) :
    TimersCounted slot (tickSilence slot s) (tickTour slot s) := by
  refine (tickTour_cases h).resolve_right fun ⟨closing, ended⟩ => ?_
  rcases hc with hc | hc
  · rw [closing] at hc
    cases hc
  · exact hc ended.closed.1.1

/-- The silence stage of a tour that a mix point does not close, told by its count. -/
structure StageTold (slot : Fin 16) (stage timer : Nat) (fallback : FallbackState) (s y t : State) : Prop where
  phase : (t.tour slot).live.phase = (s.tour slot).live.phase
  stop : (t.tour slot).live.stop = (s.tour slot).live.stop
  stage_eq : (t.tour slot).live.stage = stage
  timer_eq : (t.tour slot).live.timer = timer
  fallback_eq : (t.tour slot).live.fallback = fallback
  program : ∀ p, (∀ k, k ≠ slot → ¬ InPlan s k p) →
    (t.program p).fallback = ((tickSilence slot y).program p).fallback

theorem SilenceSeen.found {y z : State} (h : SilenceSeen slot s y z t) :
    (y.tour slot).plan = (s.tour slot).plan ∧ timingOf (y.tour slot) = timingOf (s.tour slot) ∧
    SameRun (s.tour slot).live (y.tour slot).live ∧
    ∀ p, (∀ k, k ≠ slot → ¬ InPlan s k p) → (y.program p).fallback = (s.program p).fallback := by
  have start := mixReady_start s
  have tours (k : Fin 16) : (mixReady s).tour k = s.tour k := start.keeps.tour_eq (by decide) k
  obtain ⟨plan, timing⟩ := h.before.plan slot
  have live := h.before.live
  rw [tours] at plan timing live
  refine ⟨plan, by rw [timingOf, timingOf, timing], live, fun p hp => ?_⟩
  rw [h.before.fallback p fun k hk hin => hp k hk ?_, (start.program p).2]
  obtain ⟨q, e, x, hq, he, hx⟩ := hin
  exact ⟨q, e, x, (congrArg Tour.plan (tours k)).symm.trans hq, he, hx⟩

theorem SilenceSeen.told {y z : State} (h : SilenceSeen slot s y z t) {stage timer : Nat} {fallback : FallbackState}
    (hr : isRunning (s.tour slot) = true) (hc : (s.tour slot).live.phase = .live ∨ (t.tour slot).live.phase ≠ .planned)
    (silenced : Silenced slot stage timer fallback y (tickSilence slot y)) : StageTold slot stage timer fallback s y t := by
  obtain ⟨-, -, live, -⟩ := h.found
  have sent := rackSender_keepsParts z
  rw [← h.done] at sent
  have tour : t.tour slot = z.tour slot := sent.tour_eq (by decide) slot
  have running : isRunning (y.tour slot) = true := by
    obtain ⟨_, _, _, _, same⟩ := live
    rw [isRunning_iff] at hr ⊢
    rw [same]
    exact hr
  have last := h.after.live
  have stays : (y.tour slot).live.phase = .live ∨ ((tickTour slot y).tour slot).live.phase ≠ .planned := by
    obtain ⟨_, _, _, _, first⟩ := live
    obtain ⟨_, _, _, _, same⟩ := last
    rw [tour, same] at hc
    rw [first]
    exact hc
  obtain ⟨⟨hold, wait, ticked⟩, programs, -⟩ := tickTour_of_open running stays
  have plans (k : Fin 16) : ((tickTour slot y).tour k).plan = (s.tour k).plan := by
    have start : (mixReady s).tour k = s.tour k := (mixReady_start s).keeps.tour_eq (by decide) k
    have before : (y.tour k).plan = (s.tour k).plan := ((h.before.plan k).1).trans (by rw [start])
    by_cases hk : k = slot
    · rw [hk, ticked, silenced.tour]
      exact hk ▸ before
    · exact ((Beside.tickTour (slot := k) (Ne.symm hk) y).plan k).1.trans before
  obtain ⟨_, _, _, _, first⟩ := live
  rw [ticked, silenced.tour, first] at last
  obtain ⟨_, _, _, _, final⟩ := last
  refine ⟨by rw [tour, final], by rw [tour, final], by rw [tour, final], by rw [tour, final], by rw [tour, final],
    fun p hp => ?_⟩
  rw [sent.program_eq (by decide) p, h.after.fallback p fun k hk hin => hp k hk ?_, programs]
  obtain ⟨q, e, x, hq, he, hx⟩ := hin
  exact ⟨q, e, x, (plans k).symm.trans hq, he, hx⟩

/-- The programs' fallback slots after a count, for the programs of one entry each. -/
structure SlotsTold (slot : Fin 16) (voice : Bool) (y : State) : Prop where
  cleared : voice = true → (y.tour slot).live.fallback = .on → ∀ p, (y.tour slot).plan = some p →
    ∀ x ∈ planEntries p, ((tickSilence slot y).program x.2.program).fallback = none
  written : voice = false → (y.tour slot).live.stage = 1 → (y.tour slot).live.timer ≤ 1 → ∀ p stop,
    (y.tour slot).plan = some p → p.route[(y.tour slot).live.stop]? = some stop → ProgramsApart p →
    Silenced slot 2 0 (writtenFallback p stop) y (tickSilence slot y) ∧
    ∀ x ∈ planEntries p, ((tickSilence slot y).program x.2.program).fallback = stop.fallback.get x.1
  kept : ¬ (voice = true ∧ (y.tour slot).live.fallback = .on) →
    ¬ (voice = false ∧ (y.tour slot).live.stage = 1 ∧ (y.tour slot).live.timer ≤ 1) →
    ∀ p, ((tickSilence slot y).program p).fallback = (y.program p).fallback

theorem slotsTold (slot : Fin 16) (y : State) : SlotsTold slot (guideVoice y slot) y := by
  refine ⟨fun hv on => (tickSilence_speaks hv).2.1 on, fun hv h1 ht p stop hp hs apart => ?_, fun hc hw p => ?_⟩
  · rw [tickSilence_quiet hv]
    have out := fallbackOut_of_second h1 ht hp hs
    exact ⟨out.silenced, fun x hx => out.program x hx (apart.alone hx)⟩
  · cases hv : guideVoice y slot with
    | true => rw [(tickSilence_speaks hv).2.2 (fun on => hc ⟨hv, on⟩) p]
    | false =>
      rw [tickSilence_quiet hv]
      by_cases h2 : 1 < (y.tour slot).live.stage
      · rw [countSilence_last h2]
      by_cases ht : 1 < (y.tour slot).live.timer
      · rw [countSilence_falls (by omega) ht]
        rfl
      have h0 : (y.tour slot).live.stage = 0 := by
        have : ¬ (y.tour slot).live.stage = 1 := fun h1 => hw ⟨hv, h1, by omega⟩
        omega
      exact congrArg Program.fallback ((guideQuiet_told h0 (by omega)).2.2.program_eq (by decide) p)

end Sys2Proof.Machine
end

section
/-! The silence stages of MIX_POINT, as O56 states them (R76 to R78). -/

namespace Sys2Proof.Machine

open Sys2Proof

variable {s t u : State} {slot : Fin 16}

/-- A running tour that a mix point does not close: what its silence stage becomes (R76 to R78). -/
structure MixSilence (slot : Fin 16) (speaks : Prop) (s t : State) : Prop where
  phase : (t.tour slot).live.phase = (s.tour slot).live.phase
  stop : (t.tour slot).live.stop = (s.tour slot).live.stop
  spoken : speaks → (t.tour slot).live.stage = 0 ∧
    (t.tour slot).live.timer = (timingOf (s.tour slot)).q1 * 250 ∧ (t.tour slot).live.fallback = .off
  first : ¬ speaks → (s.tour slot).live.stage = 0 → (t.tour slot).live.fallback = (s.tour slot).live.fallback ∧
    ((s.tour slot).live.timer ≤ 1 → (t.tour slot).live.stage = 1 ∧
      (t.tour slot).live.timer = (timingOf (s.tour slot)).q2 * 250) ∧
    (1 < (s.tour slot).live.timer → (t.tour slot).live.stage = 0 ∧
      (t.tour slot).live.timer = (s.tour slot).live.timer - 1)
  second : ¬ speaks → (s.tour slot).live.stage = 1 → 1 < (s.tour slot).live.timer → (t.tour slot).live.stage = 1 ∧
    (t.tour slot).live.timer = (s.tour slot).live.timer - 1 ∧
    (t.tour slot).live.fallback = (s.tour slot).live.fallback
  last : ¬ speaks → 1 < (s.tour slot).live.stage → (t.tour slot).live.stage = (s.tour slot).live.stage ∧
    (t.tour slot).live.timer = (s.tour slot).live.timer ∧
    (t.tour slot).live.fallback = (s.tour slot).live.fallback
  written : ∀ p stop, (s.tour slot).plan = some p → p.route[(s.tour slot).live.stop]? = some stop → ProgramsApart p →
    ¬ speaks → (s.tour slot).live.stage = 1 → (s.tour slot).live.timer ≤ 1 →
    (t.tour slot).live.stage = 2 ∧ (t.tour slot).live.timer = 0 ∧ (t.tour slot).live.fallback = writtenFallback p stop
  slots : ∀ p stop, (s.tour slot).plan = some p → p.route[(s.tour slot).live.stop]? = some stop → ProgramsApart p →
    ∀ x ∈ planEntries p, (∀ k, k ≠ slot → ¬ InPlan s k x.2.program) →
    (speaks → (s.tour slot).live.fallback = .on → (t.program x.2.program).fallback = none) ∧
    (¬ speaks → (s.tour slot).live.stage = 1 → (s.tour slot).live.timer ≤ 1 →
      (t.program x.2.program).fallback = stop.fallback.get x.1) ∧
    (¬ (speaks ∧ (s.tour slot).live.fallback = .on) →
      ¬ (¬ speaks ∧ (s.tour slot).live.stage = 1 ∧ (s.tour slot).live.timer ≤ 1) →
      (t.program x.2.program).fallback = (s.program x.2.program).fallback)

theorem silenced_same (s : State) : Silenced slot (s.tour slot).live.stage (s.tour slot).live.timer
    (s.tour slot).live.fallback s s := by
  refine ⟨.refl, ?_, rfl, fun _ => rfl, fun _ _ => rfl, .of_keeps (ps := []) .refl (by decide)⟩
  show s.tcl = Tcl.mk (s.tcl.tours.set slot (s.tcl.tours.get slot))
  rw [Tab.set_get_self]

theorem SilenceSeen.mixSilence {y z : State} {speaks : Prop} (h : SilenceSeen slot s y z t)
    (voice : guideVoice y slot = true ↔ speaks) (hr : isRunning (s.tour slot) = true)
    (hc : (s.tour slot).live.phase = .live ∨ (t.tour slot).live.phase ≠ .planned) : MixSilence slot speaks s t := by
  obtain ⟨plan, timing, live, slots⟩ := h.found
  obtain ⟨_, _, _, _, same⟩ := live
  have stage : (y.tour slot).live.stage = (s.tour slot).live.stage := by rw [same]
  have timer : (y.tour slot).live.timer = (s.tour slot).live.timer := by rw [same]
  have fallback : (y.tour slot).live.fallback = (s.tour slot).live.fallback := by rw [same]
  have stop : (y.tour slot).live.stop = (s.tour slot).live.stop := by rw [same]
  have quiet (hn : ¬ speaks) : guideVoice y slot = false := Bool.eq_false_iff.2 (mt voice.1 hn)
  obtain ⟨_, _, _, some_⟩ := tickSilence_silenced slot y
  have any := h.told hr hc some_
  have told := slotsTold slot y
  refine ⟨any.phase, any.stop, fun hs => ?_, fun hn h0 => ⟨?_, fun ht => ?_, fun ht => ?_⟩, fun hn h1 ht => ?_,
    fun hn h2 => ?_, fun p st hp hst apart hn h1 ht => ?_, fun p st hp hst apart x hx others => ?_⟩
  · have out := h.told hr hc (tickSilence_speaks (voice.2 hs)).1
    exact ⟨out.stage_eq, out.timer_eq.trans (by rw [timing]), out.fallback_eq⟩
  · by_cases ht : 1 < (s.tour slot).live.timer
    · have count := silenced_putLive slot (y.tour slot).live.stage ((y.tour slot).live.timer - 1) (y.tour slot).live.fallback y
      have run := (tickSilence_quiet (quiet hn)).trans (countSilence_falls (by omega) (timer ▸ ht))
      exact (h.told hr hc (run ▸ count)).fallback_eq.trans fallback
    · have run := (tickSilence_quiet (quiet hn)).trans (countSilence_first (stage.trans h0) (by omega))
      exact (h.told hr hc (run ▸ silenced_raise_first y)).fallback_eq.trans fallback
  · have run := (tickSilence_quiet (quiet hn)).trans (countSilence_first (stage.trans h0) (timer ▸ ht))
    have out := h.told hr hc (run ▸ silenced_raise_first y)
    exact ⟨out.stage_eq, out.timer_eq.trans (by rw [timing])⟩
  · have count := silenced_putLive slot (y.tour slot).live.stage ((y.tour slot).live.timer - 1) (y.tour slot).live.fallback y
    have run := (tickSilence_quiet (quiet hn)).trans (countSilence_falls (by omega) (timer ▸ ht))
    have out := h.told hr hc (run ▸ count)
    exact ⟨out.stage_eq.trans (stage.trans h0), out.timer_eq.trans (by rw [timer])⟩
  · have count := silenced_putLive slot (y.tour slot).live.stage ((y.tour slot).live.timer - 1) (y.tour slot).live.fallback y
    have run := (tickSilence_quiet (quiet hn)).trans (countSilence_falls (by omega) (timer ▸ ht))
    have out := h.told hr hc (run ▸ count)
    exact ⟨out.stage_eq.trans (stage.trans h1), out.timer_eq.trans (by rw [timer]), out.fallback_eq.trans fallback⟩
  · have run := (tickSilence_quiet (quiet hn)).trans (countSilence_last (by omega))
    have count : Silenced slot (y.tour slot).live.stage (y.tour slot).live.timer (y.tour slot).live.fallback y
        (tickSilence slot y) := by
      rw [run]
      exact silenced_same y
    have out := h.told hr hc count
    exact ⟨out.stage_eq.trans stage, out.timer_eq.trans timer, out.fallback_eq.trans fallback⟩
  · obtain ⟨out, -⟩ := told.written (quiet hn) (stage.trans h1) (timer ▸ ht) p st (plan.trans hp) (stop ▸ hst) apart
    have out := h.told hr hc out
    exact ⟨out.stage_eq, out.timer_eq, out.fallback_eq⟩
  · rw [any.program _ others]
    refine ⟨fun hs on => told.cleared (voice.2 hs) (fallback.trans on) p (plan.trans hp) x hx, fun hn h1 ht => ?_,
      fun hcl hw => ?_⟩
    · exact (told.written (quiet hn) (stage.trans h1) (timer ▸ ht) p st (plan.trans hp) (stop ▸ hst) apart).2 x hx
    · rw [told.kept (fun hv => hcl ⟨voice.1 hv.1, fallback ▸ hv.2⟩) (fun hv => hw ⟨fun hs => ?_, stage ▸ hv.2.1, timer ▸ hv.2.2⟩),
        slots _ others]
      rw [voice.2 hs] at hv
      exact absurd hv.1 (by decide)

/-- Settles O56: the silence stages at a mix point by the guide's voice, the stage and the timer, and the two commands. -/
theorem silenceStagesAdvance : Obligations.SilenceStagesAdvance := by
  unfold Obligations.SilenceStagesAdvance
  refine ⟨fun s slot => ⟨mixPoint s, rfl, ?_⟩, fun s slot => ?_⟩
  · intro l m time speaks running
    obtain ⟨y, z, seen⟩ := mixPoint_silenceSeen slot s
    have voice := guideVoice_of_start (s := s) (t := mixPoint s) (slot := slot) y (fun i =>
      (seen.before.keeps.source_eq (by decide) i).trans ((mixReady_start s).source i)) seen.found.1
    have out := seen.mixSilence voice (isRunning_iff.2 (running.imp_right And.left)) <|
      running.imp_right fun h => by
        have closing : ((mixPoint s).tour slot).live.phase = .closing := h.2
        rw [closing]
        decide
    refine ⟨out.phase, out.stop, out.spoken, fun hn => ⟨out.first hn, out.second hn, out.last hn⟩,
      fun p stop hp hs apart => ⟨fun ⟨hn, h1, ht⟩ => ?_, fun e x hx others => ?_⟩⟩
    · rw [← writtenFallback_eq]
      exact out.written p stop hp hs apart hn h1 ht
    · obtain ⟨cleared, written, kept⟩ := out.slots p stop hp hs apart (e, x) (mem_planEntries_iff.2 hx)
        fun k hk ⟨q, f, y, hq, hy, he⟩ => others k q f y hk hq hy he
      exact ⟨fun h => cleared h.1 h.2, fun h => written h.1 h.2.1 h.2.2, kept⟩
  · intro l due
    refine ⟨fun h => ?_, fun h => ?_, fun h => ?_, fun p stop h hp hs apart => ?_⟩
    · rw [exec_guideQuiet, if_neg (mt silenceDue_iff.1 h)]
    · rw [exec_fallbackWrite, if_neg (mt silenceDue_iff.1 h)]
    · refine ⟨_, (exec_guideQuiet slot s).trans (by rw [if_pos (silenceDue_iff.2 h)]), ?_⟩
      exact guideQuiet_told h.2.2.1 h.2.2.2
    · intro set bits
      refine ⟨_, (exec_fallbackWrite slot s).trans (by rw [if_pos (silenceDue_iff.2 h)]), ?_⟩
      have same : bits = entrySet (spokenEntries p stop) := by
        rw [spokenEntries_eq, entrySet_filter]
      rw [same]
      exact (fallbackOut_of_second h.2.2.1 h.2.2.2 hp hs).told hp apart

end Sys2Proof.Machine
end

section
/-! The zone counts of tours that are placed: what a dropped and a granted zone carry (R44, R51, R52, R54). -/

namespace Sys2Proof.Machine

open Sys2Proof

variable {s t u : State} {slot : Fin 16}

/-! ### Zone bits -/

theorem zoneBit_getLsbD (z y : Fin 12) : (zoneBit z).getLsbD y.val = decide (z = y) := by
  revert z y
  decide

theorem lowestZone_zoneBit (z : Fin 12) : lowestZone (zoneBit z) = some z := by
  revert z
  decide

theorem lowestZone_zero : lowestZone 0#12 = none := by decide

theorem zoneBit_removed (z : Fin 12) : zoneBit z &&& ~~~zoneBit z = 0#12 := by
  revert z
  decide

theorem and_not_zoneBit_getLsbD (zs : ZoneSet) (z y : Fin 12) :
    (zs &&& ~~~zoneBit z).getLsbD y.val = (zs.getLsbD y.val && decide (z ≠ y)) := by
  have lt : y.val < 12 := y.isLt
  rw [BitVec.getLsbD_and, BitVec.getLsbD_not, zoneBit_getLsbD]
  simp [lt]

theorem or_zoneBit_getLsbD (a b y : Fin 12) :
    (zoneBit a ||| zoneBit b).getLsbD y.val = decide (a = y ∨ b = y) := by
  rw [BitVec.getLsbD_or, zoneBit_getLsbD, zoneBit_getLsbD, Bool.decide_or]

/-- A zone entered and the one left at once (R52 with a window of 0). -/
theorem entered_left {a b : Fin 12} (h : a ≠ b) : (zoneBit a ||| zoneBit b) &&& ~~~zoneBit a = zoneBit b := by
  revert a b
  decide

/-! ### Channels of a tour -/

/-- The channels of a tour are distinct (R49). -/
theorem tourChannels_nodup {l : TourLive} (h : ∀ e f ch, l.channels.get e = some ch → l.channels.get f = some ch → e = f) :
    (tourChannels l).Nodup := by
  rw [tourChannels, Tab.items_eq, List.filterMap_map]
  refine (List.nodup_finRange 4).filterMap fun e f ch he hf => h e f ch ?_ ?_
  · simpa using he
  · simpa using hf

/-- The number of channels a tour holds is its need (section 3.5). -/
theorem tourNeed_eq (l : TourLive) : tourNeed l = ((indices 4).filter fun e => (l.channels.get e).isSome).length := by
  rw [tourNeed, tourChannels, Tab.items_eq, List.filterMap_map, ← List.countP_eq_length_filter]
  have count (es : List (Fin 4)) : (es.filterMap (id ∘ l.channels.get)).length =
      es.countP fun e => (l.channels.get e).isSome := by
    induction es with
    | nil => rfl
    | cons e es ih =>
      rw [List.filterMap_cons, List.countP_cons, ← ih]
      cases he : l.channels.get e <;> simp [he]
  exact count _

theorem TourPlaced.nodup (h : TourPlaced s slot) : (tourChannels (s.tour slot).live).Nodup :=
  tourChannels_nodup fun e f ch he hf => ((h.1 e ch he).2.2.2 slot f hf).2.symm

theorem TourPlaced.alone (h : TourPlaced s slot) {c : Fin 24} (hc : c ∈ tourChannels (s.tour slot).live) {k : Fin 16}
    (hk : c ∈ tourChannels (s.tour k).live) : k = slot := by
  obtain ⟨e, he⟩ := mem_tourChannels_iff.1 hc
  obtain ⟨f, hf⟩ := mem_tourChannels_iff.1 hk
  exact ((h.1 e c he).2.2.2 k f hf).1

theorem TourPlaced.carried (h : TourPlaced s slot) {c : Fin 24} (hc : c ∈ tourChannels (s.tour slot).live) (z : Fin 12) :
    (s.channel c).zones.getLsbD z.val =
      decide ((s.tour slot).live.zone = some z ∨ (s.tour slot).live.prevZone = some z) := by
  obtain ⟨e, he⟩ := mem_tourChannels_iff.1 hc
  exact (h.1 e c he).2.2.1 z

theorem TourPlaced.zoned (h : TourPlaced s slot) {c : Fin 24} (hc : c ∈ tourChannels (s.tour slot).live) :
    (s.tour slot).live.zone.isSome = true := by
  obtain ⟨e, he⟩ := mem_tourChannels_iff.1 hc
  exact (h.1 e c he).2.1

/-! ### Loads -/

theorem length_filter_add {α : Type} [DecidableEq α] {xs chs : List α} (hx : xs.Nodup) (hn : chs.Nodup) (hs : chs ⊆ xs)
    (f g : α → Bool) (gain : ∀ c ∈ chs, f c = true ∧ g c = false) (same : ∀ c, c ∉ chs → f c = g c) :
    (xs.filter f).length = (xs.filter g).length + chs.length := by
  have perm : (xs.filter f).Perm (xs.filter g ++ chs) := by
    refine (List.perm_ext_iff_of_nodup (hx.filter _) ?_).2 fun c => ?_
    · refine List.nodup_append.2 ⟨hx.filter _, hn, fun a ha b hb e => ?_⟩
      subst e
      rw [List.mem_filter, (gain a hb).2] at ha
      exact absurd ha.2 (by decide)
    · rw [List.mem_append, List.mem_filter, List.mem_filter]
      by_cases hc : c ∈ chs
      · simp [hc, (gain c hc).1, hs hc]
      · simp [hc, same c hc]
  rw [perm.length_eq, List.length_append]

/-- The load of a zone that some channels leave. -/
theorem zoneLoad_of_left {chs : List (Fin 24)} {z : Fin 12} (hn : chs.Nodup)
    (left : ∀ c ∈ chs, (s.channel c).zones.getLsbD z.val = true ∧ (t.channel c).zones.getLsbD z.val = false)
    (same : ∀ c, c ∉ chs → (t.channel c).zones.getLsbD z.val = (s.channel c).zones.getLsbD z.val) :
    zoneLoad s z = zoneLoad t z + chs.length :=
  length_filter_add (List.nodup_finRange 24) hn (fun c _ => List.mem_finRange c) _ _ left fun c hc => (same c hc).symm

/-- The load of a zone that no channel enters or leaves. -/
theorem zoneLoad_congr {z : Fin 12} (same : ∀ c, (t.channel c).zones.getLsbD z.val = (s.channel c).zones.getLsbD z.val) :
    zoneLoad t z = zoneLoad s z :=
  congrArg List.length (List.filter_congr fun c _ => same c)

/-! ### Queues of placed tours -/

theorem ZonesPlaced.queued (h : ZonesPlaced s) {k : Fin 16} (hq : Queued s k) :
    (s.tour k).live.target.isSome = true ∧ (s.tour k).live.zone.isSome = true := by
  obtain ⟨-, -, -, -, queues⟩ := h
  obtain ⟨z, w, hw, rfl⟩ := hq
  obtain ⟨target, zone, -⟩ := queues z w hw
  exact ⟨by rw [target]; rfl, zone⟩

/-- A tour with an open window waits in no queue (R51). -/
theorem ZonesPlaced.not_queued_of_window (h : ZonesPlaced s) (hp : (s.tour slot).live.prevZone.isSome = true) :
    ¬ Queued s slot := by
  intro hq
  have target := (h.queued hq).1
  obtain ⟨-, -, tours, -, -⟩ := h
  rw [((tours slot).2.1 target).1] at hp
  cases hp

/-! ### A zone dropped and a zone granted -/

/-- The previous zone of a placed tour dropped: what each zone carries (R54). -/
theorem Dropped.carried {p : Fin 12} (h : Dropped slot p s t) (placed : TourPlaced s slot) (counted : ZonesCounted s)
    (hp : (s.tour slot).live.prevZone = some p) (z : Fin 12) :
    (s.zone z).carried = (t.zone z).carried + if z = p then tourNeed (s.tour slot).live else 0 := by
  rw [counted z, h.counted counted z]
  have cleared (c : Fin 24) : (t.channel c).zones.getLsbD z.val = if c ∈ tourChannels (s.tour slot).live
      then ((s.channel c).zones.getLsbD z.val && decide (p ≠ z)) else (s.channel c).zones.getLsbD z.val := by
    rw [h.channel]
    split
    · exact and_not_zoneBit_getLsbD _ _ _
    · rfl
  by_cases hz : z = p
  · rw [if_pos hz]
    refine zoneLoad_of_left placed.nodup (fun c hc => ⟨?_, ?_⟩) fun c hc => ?_
    · rw [placed.carried hc, hz]
      exact decide_eq_true (.inr hp)
    · rw [cleared, if_pos hc, hz]
      simp
    · rw [cleared, if_neg hc]
  · rw [if_neg hz, Nat.add_zero]
    refine (zoneLoad_congr fun c => ?_).symm
    rw [cleared]
    split
    · simp [Ne.symm hz]
    · rfl

/-- The zone sets that a grant writes. -/
theorem ZoneGranted.zones {z cur : Fin 12} (h : ZoneGranted slot z cur s t) (hne : cur ≠ z) (c : Fin 24) :
    (t.channel c).zones = if c ∈ tourChannels (s.tour slot).live
      then zoneBit z ||| (if grantWindow (s.tour slot) = 0 then 0#12 else zoneBit cur) else (s.channel c).zones := by
  rw [h.channel]
  split
  · dsimp only
    split
    · rw [entered_left hne, BitVec.or_zero]
    · exact BitVec.or_comm _ _
  · rfl

/-- A zone granted to a placed tour that waits for it: what the zone carries (R52). -/
theorem ZoneGranted.carried {z cur : Fin 12} (h : ZoneGranted slot z cur s t) (placed : TourPlaced s slot)
    (counted : ZonesCounted s) (hz : (s.tour slot).live.zone = some cur) (hp : (s.tour slot).live.prevZone = none)
    (hne : cur ≠ z) (y : Fin 12) : (t.zone y).carried + (if y = cur ∧ grantWindow (s.tour slot) = 0
      then tourNeed (s.tour slot).live else 0) = (s.zone y).carried + if y = z then tourNeed (s.tour slot).live else 0 := by
  rw [counted y, h.counted counted y]
  have before (c : Fin 24) (hc : c ∈ tourChannels (s.tour slot).live) :
      (s.channel c).zones.getLsbD y.val = decide (cur = y) := by
    rw [placed.carried hc, hz, hp]
    simp
  have after (c : Fin 24) (hc : c ∈ tourChannels (s.tour slot).live) : (t.channel c).zones.getLsbD y.val =
      (decide (z = y) || (decide (grantWindow (s.tour slot) ≠ 0) && decide (cur = y))) := by
    rw [h.zones hne, if_pos hc]
    split
    next h0 => rw [BitVec.or_zero, zoneBit_getLsbD]; simp [h0]
    next h0 => rw [or_zoneBit_getLsbD]; simp [h0]
  have same (c : Fin 24) (hc : c ∉ tourChannels (s.tour slot).live) :
      (t.channel c).zones.getLsbD y.val = (s.channel c).zones.getLsbD y.val := by
    rw [h.zones hne, if_neg hc]
  by_cases hyz : y = z
  · have hyc : ¬ (y = cur ∧ grantWindow (s.tour slot) = 0) := fun hc => hne (hc.1.symm.trans hyz)
    rw [if_pos hyz, if_neg hyc, Nat.add_zero]
    refine zoneLoad_of_left placed.nodup (fun c hc => ⟨?_, ?_⟩) fun c hc => (same c hc).symm
    · rw [after c hc]
      simp [hyz]
    · rw [before c hc]
      simpa [hyz] using hne
  · rw [if_neg hyz, Nat.add_zero]
    by_cases hyc : y = cur ∧ grantWindow (s.tour slot) = 0
    · rw [if_pos hyc]
      refine (zoneLoad_of_left placed.nodup (fun c hc => ⟨?_, ?_⟩) fun c hc => same c hc).symm
      · rw [before c hc]
        simp [hyc.1]
      · rw [after c hc]
        simp [hyc.2, Ne.symm hyz]
    · rw [if_neg hyc, Nat.add_zero]
      refine zoneLoad_congr fun c => ?_
      by_cases hc : c ∈ tourChannels (s.tour slot).live
      · rw [before c hc, after c hc]
        by_cases hcur : cur = y
        · have open_ : ¬ grantWindow (s.tour slot) = 0 := fun h0 => hyc ⟨hcur.symm, h0⟩
          simp [hcur, Ne.symm hyz, open_]
        · simp [hcur, Ne.symm hyz]
      · exact same c hc

end Sys2Proof.Machine
end

section
/-! WINDOW_END: the window's last mix point, and the service of the one queue it brings (R54, R57, R58). -/

namespace Sys2Proof.Machine

open Sys2Proof

variable {s t u : State} {slot : Fin 16}

/-! ### The service of one queue -/

/-- The head of a wait queue, if any, does not fit (R57). -/
def HeadStuck (s : State) (z : Fin 12) : Prop := ∀ x, (s.zone z).queue.head? = some x → freeSlots s z < x.need

theorem serveZone_of_stuck {z : Fin 12} (h : HeadStuck s z) (n : Nat) (zs : ZoneSet) :
    serveZone z n (s, zs) = (s, zs) := by
  cases n with
  | zero => rfl
  | succ n =>
    unfold serveZone
    dsimp only
    cases hq : (s.zone z).queue with
    | nil => rfl
    | cons w rest =>
      have stuck := h w (by rw [hq]; rfl)
      dsimp only
      rw [if_neg (by omega)]

theorem serveSet_zero (n : Nat) (s : State) : serveSet n 0#12 s = s := by
  cases n with
  | zero => rfl
  | succ n =>
    unfold serveSet
    rw [lowestZone_zero]

/-- The service of one zone is the service of its queue and then of the zones that it releases. -/
theorem serveZones_single (z : Fin 12) (s : State) : serveZones (zoneBit z) s =
    serveSet (serviceRounds s) (serveZone z (s.zone z).queue.length (s, 0#12)).2
      (serveZone z (s.zone z).queue.length (s, 0#12)).1 := by
  rw [serveZones, serveSet, lowestZone_zoneBit]
  dsimp only
  rw [zoneBit_removed]

theorem serveZones_of_stuck {z : Fin 12} (h : HeadStuck s z) : serveZones (zoneBit z) s = s := by
  rw [serveZones_single, serveZone_of_stuck h, serveSet_zero]

/-- The state after the head of a queue is granted its zone. -/
def headGranted (x : Waiter) (z : Fin 12) (s : State) : State := (grant x.slot z (dequeue x.slot z s)).1

/-- The service of a queue whose head fits: the grant to the head, and then the rest of the service. -/
structure HeadServed (x : Waiter) (z : Fin 12) (s t : State) : Prop where
  later : QueuesServed (headGranted x z s) t
  reports : Reports (headGranted x z s) t
  stuck : (grant x.slot z (dequeue x.slot z s)).2 = 0#12 → HeadStuck (headGranted x z s) z → t = headGranted x z s

theorem serveZones_of_head {z : Fin 12} {x : Waiter} {rest : List Waiter} (hq : (s.zone z).queue = x :: rest)
    (fits : x.need ≤ freeSlots s z) : HeadServed x z s (serveZones (zoneBit z) s) := by
  have first : serveZone z (s.zone z).queue.length (s, 0#12) = serveZone z rest.length
      (headGranted x z s, 0#12 ||| (grant x.slot z (dequeue x.slot z s)).2) := by
    rw [hq, List.length_cons]
    conv => lhs; unfold serveZone
    dsimp only
    rw [hq]
    dsimp only
    rw [if_pos fits]
    rfl
  rw [serveZones_single, first]
  refine ⟨(queuesServed_closed.serveZone z _ _ _).trans (queuesServed_closed.serveSet _ _ _),
    (served_closed.serveZone z _ _ _).reports.trans (served_closed.serveSet _ _ _).reports, fun none stuck => ?_⟩
  rw [none, serveZone_of_stuck stuck]
  exact serveSet_zero _ _

/-! ### The end of a window -/

theorem windowDue_eq_false {l : TourLive} (h : l.prevZone = none ∨ ∃ w, l.window = some w ∧ 1 < w) :
    windowDue l = false := by
  unfold windowDue
  rcases h with h | ⟨w, h, hw⟩
  · rw [h]
    rfl
  · rw [h]
    simp [hw]

theorem windowDue_eq_true {l : TourLive} {z : Fin 12} {w : Nat} (hp : l.prevZone = some z) (hw : l.window = some w)
    (hle : w ≤ 1) : windowDue l = true := by
  unfold windowDue
  rw [hp, hw]
  simp [hle]

theorem exec_windowEnd (slot : Fin 16) (s : State) : exec (.windowEnd slot) s =
    .next (if windowDue (s.tour slot).live then tickWindow slot s else s) := rfl

theorem tickWindow_of_due {z : Fin 12} {w : Nat} (hp : (s.tour slot).live.prevZone = some z)
    (hw : (s.tour slot).live.window = some w) (hle : w ≤ 1) : tickWindow slot s = serveZones (zoneBit z)
      (dropPrevious slot (s.putLive slot { (s.tour slot).live with window := some 0 })) := by
  unfold tickWindow
  dsimp only
  rw [hp]
  dsimp only
  rw [hw, if_pos (by simp; omega)]

theorem tickWindow_of_open {z : Fin 12} {w : Nat} (hp : (s.tour slot).live.prevZone = some z)
    (hw : (s.tour slot).live.window = some w) (hlt : 1 < w) : tickWindow slot s =
      s.putLive slot { (s.tour slot).live with window := some (w - 1) } := by
  unfold tickWindow
  dsimp only
  rw [hp]
  dsimp only
  rw [hw]
  exact if_neg (by simp; omega)

/-- The previous zone dropped after the window was written. -/
theorem dropped_of_window {z : Fin 12} (w : Option Nat) (hp : (s.tour slot).live.prevZone = some z) :
    Dropped slot z s (dropPrevious slot (s.putLive slot { (s.tour slot).live with window := w })) := by
  have tour := putLive_tour_self slot { (s.tour slot).live with window := w } s
  have away := fun k (hk : k ≠ slot) => putLive_tour_ne hk { (s.tour slot).live with window := w } s
  obtain ⟨u, hu⟩ : ∃ u, u = s.putLive slot { (s.tour slot).live with window := w } := ⟨_, rfl⟩
  have put : KeepsAllBut [.tours] s u := hu ▸ putLive_keeps .refl (by decide)
  have counts : ZonesCounted s → ZonesCounted u :=
    zonesCounted_congr (fun z => by rw [put.zone_eq (by decide) z]) fun c => by rw [put.channel_eq (by decide) c]
  rw [← hu] at tour away ⊢
  obtain ⟨keeps, here, there, channel, queue, counted, events⟩ :=
    dropPrevious_spec (s := u) (slot := slot) (p := z) (by rw [tour]; exact hp)
  rw [tour] at here channel events
  rw [show u.mge.hubTime = s.mge.hubTime from put .hubTime (by decide)] at events
  refine ⟨(put.mono (by decide)).trans keeps, here, fun k hk => (there k hk).trans (away k hk), fun c => ?_, fun y => ?_,
    counted ∘ counts, events.of_evq (put.evq_eq (by decide)).symm⟩
  · rw [channel, put.channel_eq (by decide) c]
    rfl
  · rw [queue, put.zone_eq (by decide) y]

/-- What the end of a window leaves, whatever the service then does. -/
structure WindowEnded (slot : Fin 16) (z : Fin 12) (s v t : State) : Prop where
  dropped : Dropped slot z s v
  served : QueuesServed v t
  tour : t.tour slot = v.tour slot
  channel : ∀ c ∈ tourChannels (s.tour slot).live, t.channel c = v.channel c

/-- A tour that stands in no queue and shares no channel is not changed by the service. -/
theorem QueuesServed.apart {v : State} (h : QueuesServed v t) (hq : ¬ Queued v slot)
    (alone : ∀ c ∈ tourChannels (v.tour slot).live, ∀ k, c ∈ tourChannels (v.tour k).live → k = slot) :
    t.tour slot = v.tour slot ∧ ∀ c ∈ tourChannels (v.tour slot).live, t.channel c = v.channel c :=
  ⟨h.unqueued slot hq, fun c hc => h.away c fun k hk hck => hq (alone c hc k hck ▸ hk)⟩

theorem Dropped.tourChannels_eq {z : Fin 12} (h : Dropped slot z s t) (k : Fin 16) :
    tourChannels (t.tour k).live = tourChannels (s.tour k).live := by
  by_cases hk : k = slot
  · rw [hk, h.tour]
    rfl
  · rw [h.away k hk]

theorem Dropped.queued_iff {z : Fin 12} (h : Dropped slot z s t) (k : Fin 16) : Queued t k ↔ Queued s k := by
  unfold Queued
  simp only [h.queue]

theorem windowEnded {z : Fin 12} {v : State} (placed : ZonesPlaced s) (hp : (s.tour slot).live.prevZone = some z)
    (dropped : Dropped slot z s v) (served : QueuesServed v t) : WindowEnded slot z s v t := by
  have tours := placed.2.2.1
  have unqueued : ¬ Queued v slot := fun hq =>
    placed.not_queued_of_window (by rw [hp]; rfl) ((dropped.queued_iff slot).1 hq)
  obtain ⟨tour, channel⟩ := served.apart unqueued fun c hc k hk => by
    rw [dropped.tourChannels_eq] at hc hk
    exact (tours slot).alone hc hk
  rw [dropped.tourChannels_eq] at channel
  exact ⟨dropped, served, tour, channel⟩

/-- The channels of a tour whose previous zone is dropped. -/
theorem WindowEnded.own {z : Fin 12} {v : State} (h : WindowEnded slot z s v t) {e : Fin 4} {c : Fin 24}
    (hc : (s.tour slot).live.channels.get e = some c) :
    t.channel c = { s.channel c with zones := (s.channel c).zones &&& ~~~(1#12 <<< z.val) } := by
  have mem := mem_tourChannels_iff.2 ⟨e, hc⟩
  rw [h.channel c mem, h.dropped.channel, if_pos mem]
  rfl

/-! ### The head that follows -/

theorem freeSlots_lt_iff {z : Fin 12} {n : Nat} (h : (s.zone z).carried ≤ 8) :
    freeSlots s z < n ↔ 8 < (s.zone z).carried + n := by
  have capacity : Config.zoneCapacity = 8 := rfl
  rw [freeSlots, capacity]
  omega

/-- The tour at the head of the queue of a dropped zone, granted that zone. -/
structure HeadGrantedZone (x : Waiter) (z cur : Fin 12) (v g : State) : Prop where
  granted : ZoneGranted x.slot z cur (dequeue x.slot z v) g
  released : (grant x.slot z (dequeue x.slot z v)).2 = if grantWindow (v.tour x.slot) = 0 then zoneBit cur else 0#12
  gone : ∀ y w, w ∈ (g.zone y).queue → w ∈ (v.zone y).queue ∧ (y = z → w.slot ≠ x.slot)
  queue : (g.zone z).queue = (v.zone z).queue.filter fun w => decide (w.slot ≠ x.slot)
  others : ∀ y, y ≠ z → (g.zone y).queue = (v.zone y).queue

theorem headGranted_zone {x : Waiter} {z cur : Fin 12} {v : State} (hz : (v.tour x.slot).live.zone = some cur) :
    HeadGrantedZone x z cur v (headGranted x z v) := by
  obtain ⟨granted, released⟩ := grant_spec (s := dequeue x.slot z v) (z := z) hz
  have queue : ((headGranted x z v).zone z).queue = (v.zone z).queue.filter fun w => decide (w.slot ≠ x.slot) := by
    refine (granted.queue z).trans ?_
    rw [if_pos rfl, dequeue_queue, if_pos rfl, List.filter_filter]
    simp only [Bool.and_self]
  have others (y : Fin 12) (hy : y ≠ z) : ((headGranted x z v).zone y).queue = (v.zone y).queue := by
    refine (granted.queue y).trans ?_
    rw [if_neg hy, dequeue_queue, if_neg hy]
  refine ⟨granted, released, fun y w hw => ?_, queue, others⟩
  by_cases hy : y = z
  · rw [hy, queue, List.mem_filter] at hw
    exact ⟨hy ▸ hw.1, fun _ => of_decide_eq_true hw.2⟩
  · rw [others y hy] at hw
    exact ⟨hw, fun h => absurd h hy⟩

end Sys2Proof.Machine
end

section
/-! Placed tours stay placed: what a handover, a grant and the service of queues keep of the zones (R44, R49, R51 to R58). -/

namespace Sys2Proof.Machine

open Sys2Proof

variable {s t u : State} {slot : Fin 16}

/-! ### Tours that a step does not touch -/

/-- A tour whose record and channels a step keeps stays placed. -/
theorem TourPlaced.congr {k : Fin 16} (h : TourPlaced s k) (tour : t.tour k = s.tour k)
    (channels : ∀ j e, (t.tour j).live.channels.get e = (s.tour j).live.channels.get e)
    (same : ∀ c ∈ tourChannels (s.tour k).live, (t.channel c).phase = (s.channel c).phase ∧
      (t.channel c).zones = (s.channel c).zones) : TourPlaced t k := by
  obtain ⟨chs, waits, window, running, idle⟩ := h
  unfold TourPlaced
  rw [tour]
  refine ⟨fun e ch he => ?_, waits, window, running, idle⟩
  obtain ⟨phase, zone, carried, alone⟩ := chs e ch he
  obtain ⟨samePhase, sameZones⟩ := same ch (mem_tourChannels_iff.2 ⟨e, he⟩)
  rw [samePhase, sameZones]
  exact ⟨phase, zone, carried, fun j f hf => alone j f ((channels j f).symm.trans hf)⟩

/-- What the queues of placed tours say. -/
def QueuesPlaced (s : State) : Prop := ∀ z w, w ∈ (s.zone z).queue →
  (s.tour w.slot).live.target = some z ∧ (s.tour w.slot).live.zone.isSome = true ∧
    tourNeed (s.tour w.slot).live ≤ w.need

theorem zonesPlaced_iff : ZonesPlaced s ↔ ZonesCounted s ∧ (∀ z, (s.zone z).carried ≤ Config.zoneCapacity) ∧
    (∀ slot, TourPlaced s slot) ∧
    (∀ ch, (s.channel ch).phase = .free → (s.channel ch).program = none ∧ (s.channel ch).zones = 0#12) ∧
    QueuesPlaced s := Iff.rfl

/-- A step that keeps tours, channels and carried counts, and whose queues only lose entries. -/
theorem ZonesPlaced.congr (h : ZonesPlaced s) (tour : t.tour = s.tour) (channel : t.channel = s.channel)
    (carried : ∀ z, (t.zone z).carried = (s.zone z).carried)
    (queue : ∀ z w, w ∈ (t.zone z).queue → w ∈ (s.zone z).queue) : ZonesPlaced t := by
  obtain ⟨counted, capacity, tours, free, queues⟩ := h
  refine ⟨zonesCounted_congr carried (fun _ => by rw [channel]) counted, fun z => by rw [carried]; exact capacity z,
    fun k => (tours k).congr (by rw [tour]) (fun _ _ => by rw [tour]) fun _ _ => by rw [channel]; exact ⟨rfl, rfl⟩,
    fun c => by rw [channel]; exact free c, fun z w hw => ?_⟩
  rw [tour]
  exact queues z w (queue z w hw)

theorem ZonesPlaced.dequeue (h : ZonesPlaced s) (k : Fin 16) (z : Fin 12) : ZonesPlaced (dequeue k z s) := by
  refine h.congr rfl rfl (fun y => dequeue_carried k z y s) fun y w hw => ?_
  rw [dequeue_queue] at hw
  split at hw
  next e => rw [e]; exact List.mem_of_mem_filter hw
  next => exact hw

/-! ### The previous zone dropped -/

theorem Dropped.placed {p : Fin 12} (h : Dropped slot p s t) (placed : ZonesPlaced s)
    (hp : (s.tour slot).live.prevZone = some p) : ZonesPlaced t := by
  obtain ⟨counted, capacity, tours, free, queues⟩ := placed
  have channels (j : Fin 16) (e : Fin 4) : (t.tour j).live.channels.get e = (s.tour j).live.channels.get e := by
    by_cases hj : j = slot
    · rw [hj, h.tour]
    · rw [h.away j hj]
  have phases (c : Fin 24) : (t.channel c).phase = (s.channel c).phase := by
    rw [h.channel]
    split <;> rfl
  refine ⟨h.counted counted, fun z => ?_, fun k => ?_, fun c hc => ?_, fun z w hw => ?_⟩
  · have := h.carried (tours slot) counted hp z
    have := capacity z
    omega
  · by_cases hk : k = slot
    · subst hk
      obtain ⟨chs, waits, window, running, idle⟩ := tours k
      unfold TourPlaced
      rw [h.tour]
      have same : isRunning { s.tour k with live := { (s.tour k).live with prevZone := none, window := none } } =
        isRunning (s.tour k) := rfl
      rw [same]
      refine ⟨fun e ch he => ?_, fun ht => ⟨rfl, (waits ht).2⟩, nofun, running, fun hn => ?_⟩
      · obtain ⟨phase, zone, carried, alone⟩ := chs e ch he
        refine ⟨(phases ch).trans phase, zone, fun z => ?_, fun j f hf => alone j f ((channels j f).symm.trans hf)⟩
        have mem : ch ∈ tourChannels (s.tour k).live := mem_tourChannels_iff.2 ⟨e, he⟩
        rw [h.channel, if_pos mem]
        refine (and_not_zoneBit_getLsbD _ _ _).trans ?_
        rw [carried, hp]
        have apart := window (by rw [hp]; rfl)
        rw [hp] at apart
        by_cases hz : p = z
        · subst hz
          simp [Ne.symm apart]
        · simp [hz]
      · obtain ⟨none_, target, -⟩ := idle hn
        exact ⟨none_, target, rfl⟩
    · refine (tours k).congr (h.away k hk) channels fun c hc => ?_
      have out : c ∉ tourChannels (s.tour slot).live := fun hc' => hk ((tours slot).alone hc' hc)
      rw [h.channel, if_neg out]
      exact ⟨rfl, rfl⟩
  · have out : c ∉ tourChannels (s.tour slot).live := fun hc' => by
      obtain ⟨e, he⟩ := mem_tourChannels_iff.1 hc'
      rw [phases, ((tours slot).1 e c he).1] at hc
      cases hc
    rw [h.channel, if_neg out]
    exact free c ((phases c).symm.trans hc)
  · rw [h.queue] at hw
    obtain ⟨target, zone, need⟩ := queues z w hw
    by_cases hw' : w.slot = slot
    · rw [hw'] at target zone need ⊢
      rw [h.tour]
      exact ⟨target, zone, need⟩
    · rw [h.away _ hw']
      exact ⟨target, zone, need⟩

/-! ### A zone granted -/

/-- A tour that may be granted a zone: it runs in another zone, has no window open and waits for no third zone. -/
structure Grantable (s : State) (slot : Fin 16) (z cur : Fin 12) : Prop where
  running : isRunning (s.tour slot) = true
  zone : (s.tour slot).live.zone = some cur
  apart : cur ≠ z
  closed : (s.tour slot).live.prevZone = none
  target : ∀ y, (s.tour slot).live.target = some y → y = z
  fits : (s.zone z).carried + tourNeed (s.tour slot).live ≤ 8

theorem ZoneGranted.channels_get {z cur : Fin 12} (h : ZoneGranted slot z cur s t) (j : Fin 16) (e : Fin 4) :
    (t.tour j).live.channels.get e = (s.tour j).live.channels.get e := by
  by_cases hj : j = slot
  · rw [hj, h.tour]
  · rw [h.away j hj]

/-- A granted tour is placed in its new zone (R51, R52). -/
theorem ZoneGranted.tourPlaced {z cur : Fin 12} (h : ZoneGranted slot z cur s t) (placed : TourPlaced s slot)
    (can : Grantable s slot z cur) : TourPlaced t slot := by
  obtain ⟨chs, waits, window, running, idle⟩ := placed
  have runs : isRunning (t.tour slot) = true := by
    rw [h.tour]
    exact can.running
  unfold TourPlaced
  rw [runs]
  refine ⟨fun e ch he => ?_, ?_, ?_, ?_, nofun⟩
  · rw [h.channels_get] at he
    obtain ⟨phase, zone, carried, alone⟩ := chs e ch he
    have mem := mem_tourChannels_iff.2 ⟨e, he⟩
    refine ⟨?_, by rw [h.tour]; rfl, fun y => ?_, fun j f hf => alone j f ((h.channels_get j f).symm.trans hf)⟩
    · rw [h.channel, if_pos mem]
      exact phase
    · rw [h.zones can.apart, if_pos mem, h.tour]
      by_cases h0 : grantWindow (s.tour slot) = 0
      · rw [if_pos h0, BitVec.or_zero, zoneBit_getLsbD]
        simp [h0]
      · rw [if_neg h0, or_zoneBit_getLsbD]
        simp [h0]
  · rw [h.tour]
    exact nofun
  · rw [h.tour]
    dsimp only
    split
    · exact nofun
    · exact fun _ e => can.apart (Option.some.inj e)
  · rw [h.tour]
    exact fun _ => rfl

theorem ZoneGranted.placed {z cur : Fin 12} (h : ZoneGranted slot z cur s t) (placed : ZonesPlaced s)
    (can : Grantable s slot z cur) : ZonesPlaced t := by
  obtain ⟨counted, capacity, tours, free, queues⟩ := placed
  have phases (c : Fin 24) : (t.channel c).phase = (s.channel c).phase := by
    rw [h.channel]
    split <;> rfl
  refine ⟨h.counted counted, fun y => ?_, fun k => ?_, fun c hc => ?_, fun y w hw => ?_⟩
  · have sum := h.carried (tours slot) counted can.zone can.closed can.apart y
    have capacity_ : Config.zoneCapacity = 8 := rfl
    have before := capacity y
    by_cases hy : y = z
    · rw [hy, if_pos rfl] at sum
      rw [hy]
      have := can.fits
      omega
    · rw [if_neg hy] at sum
      omega
  · by_cases hk : k = slot
    · exact hk ▸ h.tourPlaced (tours slot) can
    · refine (tours k).congr (h.away k hk) h.channels_get fun c hc => ?_
      rw [h.channel, if_neg fun hc' => hk ((tours slot).alone hc' hc)]
      exact ⟨rfl, rfl⟩
  · have out : c ∉ tourChannels (s.tour slot).live := fun hc' => by
      obtain ⟨e, he⟩ := mem_tourChannels_iff.1 hc'
      rw [phases, ((tours slot).1 e c he).1] at hc
      cases hc
    rw [h.channel, if_neg out]
    exact free c ((phases c).symm.trans hc)
  · rw [h.queue] at hw
    have old : w ∈ (s.zone y).queue := by
      split at hw
      next e => rw [e]; exact List.mem_of_mem_filter hw
      next => exact hw
    obtain ⟨target, zone, need⟩ := queues y w old
    have other : w.slot ≠ slot := by
      intro e
      rw [e] at target
      rw [if_pos (can.target y target)] at hw
      exact of_decide_eq_true (List.mem_filter.1 hw).2 e
    rw [h.away _ other]
    exact ⟨target, zone, need⟩

/-! ### The service of queues -/

/-- The tour at the head of a queue of placed tours can be granted its zone when it fits (R57). -/
theorem ZonesPlaced.grantable_head (h : ZonesPlaced s) {z : Fin 12} {w : Waiter} (hw : w ∈ (s.zone z).queue)
    (fits : w.need ≤ freeSlots s z) : ∃ cur, Grantable s w.slot z cur := by
  obtain ⟨-, capacity, tours, -, queues⟩ := h
  obtain ⟨target, zone, need⟩ := queues z w hw
  obtain ⟨cur, hcur⟩ := Option.isSome_iff_exists.1 zone
  obtain ⟨-, waits, -, -, idle⟩ := tours w.slot
  obtain ⟨closed, apart⟩ := waits (by rw [target]; rfl)
  refine ⟨cur, ?_, hcur, fun e => apart ?_, closed, fun y hy => ?_, ?_⟩
  · by_contra hr
    have := (idle (Bool.eq_false_iff.2 hr)).2.1
    rw [target] at this
    cases this
  · rw [target, hcur, e]
  · rw [target] at hy
    exact (Option.some.inj hy).symm
  · have capacity_ : Config.zoneCapacity = 8 := rfl
    rw [freeSlots, capacity_] at fits
    have := capacity z
    omega

theorem Grantable.dequeue {z cur y : Fin 12} {k : Fin 16} (h : Grantable s slot z cur) :
    Grantable (dequeue k y s) slot z cur :=
  ⟨h.running, h.zone, h.apart, h.closed, h.target, by rw [dequeue_carried]; exact h.fits⟩

theorem placed_headClosed : HeadClosed fun s t => ZonesPlaced s → ZonesPlaced t where
  refl _ := id
  trans h k := k ∘ h
  head s z w rest hq fits placed := by
    obtain ⟨cur, can⟩ := placed.grantable_head (by rw [hq]; exact List.mem_cons_self) fits
    obtain ⟨granted, -⟩ := grant_spec (s := dequeue w.slot z s) (z := z) can.zone
    exact granted.placed (placed.dequeue w.slot z) can.dequeue

theorem ZonesPlaced.serveZones (h : ZonesPlaced s) (zs : ZoneSet) : ZonesPlaced (serveZones zs s) :=
  placed_headClosed.serveZones zs s h

end Sys2Proof.Machine
end

section
/-! WINDOW_END as O55 states it, and the windows of MIX_POINT (R52, R54, R57). -/

namespace Sys2Proof.Machine

open Sys2Proof

variable {s t u v : State} {slot : Fin 16} {z : Fin 12}

/-! ### The zone dropped, without a service -/

theorem zone_ext {a b : Zone} (h : a.carried = b.carried) (k : a.queue = b.queue) : a = b := by
  cases a
  cases b
  simp_all

/-- A dropped zone changes the carried count of that zone alone (R54). -/
theorem Dropped.zone_ne (h : Dropped slot z s t) (placed : ZonesPlaced s) (hp : (s.tour slot).live.prevZone = some z)
    {y : Fin 12} (hy : y ≠ z) : t.zone y = s.zone y := by
  have carried := h.carried (placed.2.2.1 slot) placed.1 hp y
  rw [if_neg hy, Nat.add_zero] at carried
  exact zone_ext carried.symm (h.queue y)

theorem Dropped.carried_here (h : Dropped slot z s t) (placed : ZonesPlaced s) (hp : (s.tour slot).live.prevZone = some z) :
    (t.zone z).carried + tourNeed (s.tour slot).live = (s.zone z).carried := by
  have carried := h.carried (placed.2.2.1 slot) placed.1 hp z
  rw [if_pos rfl] at carried
  exact carried.symm

/-- Whether the head of the dropped zone's queue fits, told by the counts before. -/
theorem Dropped.stuck_iff (h : Dropped slot z s t) (placed : ZonesPlaced s) (hp : (s.tour slot).live.prevZone = some z) :
    HeadStuck t z ↔ ∀ x, (s.zone z).queue.head? = some x →
      8 < (s.zone z).carried - tourNeed (s.tour slot).live + x.need := by
  have carried := h.carried_here placed hp
  have capacity : (t.zone z).carried ≤ 8 := by
    have : (s.zone z).carried ≤ 8 := placed.2.1 z
    omega
  unfold HeadStuck
  rw [h.queue]
  refine forall_congr' fun x => imp_congr_right fun _ => ?_
  rw [freeSlots_lt_iff capacity]
  omega

/-! ### The head of the queue granted -/

/-- The head of the dropped zone's queue, granted the zone, and the state that the rest of the service leaves. -/
structure NextGranted (slot : Fin 16) (x : Waiter) (rest : List Waiter) (z cur : Fin 12) (s v g t : State) : Prop where
  other : x.slot ≠ slot
  can : Grantable v x.slot z cur
  grantedZone : HeadGrantedZone x z cur v g
  unqueued : ¬ Queued g x.slot
  placed : ZonesPlaced g
  served : HeadServed x z v t
  head : g = headGranted x z v
  queue : (v.zone z).queue = x :: rest

theorem nextGranted {x : Waiter} {rest : List Waiter} {cur : Fin 12} (placed : ZonesPlaced s)
    (hp : (s.tour slot).live.prevZone = some z) (dropped : Dropped slot z s v) (hq : (s.zone z).queue = x :: rest)
    (fits : x.need ≤ freeSlots v z) (hz : (s.tour x.slot).live.zone = some cur) :
    NextGranted slot x rest z cur s v (headGranted x z v) (serveZones (zoneBit z) v) := by
  have queue : (v.zone z).queue = x :: rest := (dropped.queue z).trans hq
  have queued : Queued s x.slot := ⟨z, x, by rw [hq]; exact List.mem_cons_self, rfl⟩
  have other : x.slot ≠ slot := fun e => placed.not_queued_of_window (by rw [hp]; rfl) (e ▸ queued)
  have placed' := dropped.placed placed hp
  obtain ⟨cur', can⟩ := placed'.grantable_head (by rw [queue]; exact List.mem_cons_self) fits
  have zone : (v.tour x.slot).live.zone = some cur := by
    rw [dropped.away _ other]
    exact hz
  obtain rfl := Option.some.inj (zone.symm.trans can.zone)
  have granted := headGranted_zone (x := x) (z := z) zone
  refine ⟨other, can, granted, ?_, granted.granted.placed (placed'.dequeue x.slot z) can.dequeue,
    serveZones_of_head queue fits, rfl, queue⟩
  rintro ⟨y, w, hw, hs⟩
  obtain ⟨mem, gone⟩ := granted.gone y w hw
  obtain ⟨-, -, -, -, queues⟩ := placed'
  exact gone (can.target y (hs ▸ (queues y w mem).1)) hs

namespace NextGranted
variable {x : Waiter} {rest : List Waiter} {cur : Fin 12} {g : State}

theorem tour_eq (h : NextGranted slot x rest z cur s v g t) (dropped : Dropped slot z s v) :
    v.tour x.slot = s.tour x.slot := dropped.away _ h.other

/-- The record and the channels of the tour granted, which the rest of the service does not touch. -/
theorem kept (h : NextGranted slot x rest z cur s v g t) : t.tour x.slot = g.tour x.slot ∧
    ∀ c ∈ tourChannels (g.tour x.slot).live, t.channel c = g.channel c :=
  have later := h.served.later
  (h.head ▸ later : QueuesServed g t).apart h.unqueued fun _ hc _ hk => (h.placed.2.2.1 x.slot).alone hc hk

theorem tour (h : NextGranted slot x rest z cur s v g t) (dropped : Dropped slot z s v) :
    t.tour x.slot = { s.tour x.slot with live := { (s.tour x.slot).live with
      zone := some z, target := none
      prevZone := if grantWindow (s.tour x.slot) = 0 then none else some cur
      window := if grantWindow (s.tour x.slot) = 0 then none else some (grantWindow (s.tour x.slot)) } } := by
  rw [← h.tour_eq dropped, h.kept.1]
  exact h.grantedZone.granted.tour

theorem channels_eq (h : NextGranted slot x rest z cur s v g t) :
    tourChannels (g.tour x.slot).live = tourChannels (v.tour x.slot).live := by
  rw [h.grantedZone.granted.tour]
  rfl

theorem channel (h : NextGranted slot x rest z cur s v g t) (placed : ZonesPlaced s) (dropped : Dropped slot z s v)
    {e : Fin 4} {c : Fin 24} (hc : (s.tour x.slot).live.channels.get e = some c) : t.channel c = { s.channel c with
      zones := (1#12 <<< z.val) ||| (if grantWindow (s.tour x.slot) = 0 then 0#12 else 1#12 <<< cur.val) } := by
  have mem : c ∈ tourChannels (s.tour x.slot).live := mem_tourChannels_iff.2 ⟨e, hc⟩
  have mem' : c ∈ tourChannels (v.tour x.slot).live := by rw [h.tour_eq dropped]; exact mem
  have out : c ∉ tourChannels (s.tour slot).live := fun hc' => h.other ((placed.2.2.1 slot).alone hc' mem)
  have before : v.channel c = s.channel c := by rw [dropped.channel, if_neg out]
  rw [h.kept.2 c (by rw [h.channels_eq]; exact mem'), ← before, ← h.tour_eq dropped]
  have mem'' : c ∈ tourChannels ((dequeue x.slot z v).tour x.slot).live := mem'
  have zones := h.grantedZone.granted.zones h.can.apart c
  rw [if_pos mem''] at zones
  have shape : g.channel c = { v.channel c with zones := (g.channel c).zones } := by
    rw [h.grantedZone.granted.channel c, if_pos mem'']
    rfl
  rw [shape, zones]
  rfl

theorem queue_gone (h : NextGranted slot x rest z cur s v g t) : ∀ y ∈ (t.zone z).queue, y.slot ≠ x.slot := by
  intro y hy
  have later : QueuesServed g t := h.head ▸ h.served.later
  exact fun e => h.unqueued ⟨z, y, later.queue z y hy, e⟩

/-- The events of the service: HANDOVER_DONE first where the granted window is 0. -/
theorem events (h : NextGranted slot x rest z cur s v g t) (dropped : Dropped slot z s v) : ∃ more,
    EventsTaken ((if grantWindow (s.tour x.slot) = 0 then
      [⟨.handoverDone, s.mge.hubTime, x.slot.val, some (s.tour x.slot).live.run, cur.val⟩] else []) ++ more) v t ∧
    (t = g → more = []) := by
  have granted := h.grantedZone.granted
  have time : v.mge.hubTime = s.mge.hubTime := dropped.keeps .hubTime (by decide)
  have first : EventsTaken (if grantWindow (s.tour x.slot) = 0 then
      [⟨.handoverDone, s.mge.hubTime, x.slot.val, some (s.tour x.slot).live.run, cur.val⟩] else []) v g := by
    rw [← h.tour_eq dropped, ← time]
    exact granted.events.of_evq rfl
  have enables : g.evq.enables = v.evq.enables := granted.keeps .enables (by decide)
  by_cases same : t = g
  · exact ⟨[], by rw [List.append_nil, same]; exact first, fun _ => rfl⟩
  · have later : Reports g t := h.head ▸ h.served.reports
    obtain ⟨-, more, taken⟩ := later
    exact ⟨more, first.append taken enables, fun e => absurd e same⟩

/-- Where the window granted is not 0 and the next tour does not fit, the service ends with the grant. -/
theorem last (h : NextGranted slot x rest z cur s v g t) (placed : ZonesPlaced s)
    (hp : (s.tour slot).live.prevZone = some z) (dropped : Dropped slot z s v) (hw : grantWindow (s.tour x.slot) ≠ 0)
    (stuck : ∀ y, (rest.filter fun y => decide (y.slot ≠ x.slot)).head? = some y →
      8 < (s.zone z).carried - tourNeed (s.tour slot).live + tourNeed (s.tour x.slot).live + y.need) :
    t = g ∧ g.zone z = { carried := (s.zone z).carried - tourNeed (s.tour slot).live + tourNeed (s.tour x.slot).live
                         queue := rest.filter fun y => decide (y.slot ≠ x.slot) } ∧
    (∀ y, y ≠ z → g.zone y = s.zone y) ∧ (∀ k, k ≠ slot → k ≠ x.slot → g.tour k = s.tour k) ∧
    ∀ c, c ∉ tourChannels (s.tour slot).live → c ∉ tourChannels (s.tour x.slot).live → g.channel c = s.channel c := by
  have granted := h.grantedZone.granted
  have vPlaced := dropped.placed placed hp
  have window : grantWindow (v.tour x.slot) ≠ 0 := by rw [h.tour_eq dropped]; exact hw
  have carried (y : Fin 12) : (g.zone y).carried =
      (v.zone y).carried + if y = z then tourNeed (s.tour x.slot).live else 0 := by
    have sum := granted.carried ((vPlaced.dequeue x.slot z).2.2.1 x.slot) (vPlaced.dequeue x.slot z).1 h.can.zone
      h.can.closed h.can.apart y
    have open_ : ¬ (y = cur ∧ grantWindow ((dequeue x.slot z v).tour x.slot) = 0) := fun hc => window hc.2
    rw [if_neg open_, Nat.add_zero, dequeue_carried] at sum
    rw [sum, ← h.tour_eq dropped]
    rfl
  have queue : (g.zone z).queue = rest.filter fun y => decide (y.slot ≠ x.slot) := by
    rw [h.grantedZone.queue, h.queue, List.filter_cons_of_neg (by simp)]
  have here := dropped.carried_here placed hp
  have count : (g.zone z).carried =
      (s.zone z).carried - tourNeed (s.tour slot).live + tourNeed (s.tour x.slot).live := by
    rw [carried, if_pos rfl]
    omega
  have stuck' : HeadStuck g z := by
    intro y hy
    rw [freeSlots_lt_iff (h.placed.2.1 z), count]
    rw [queue] at hy
    exact stuck y hy
  have released := h.grantedZone.released
  rw [if_neg window] at released
  refine ⟨?_, zone_ext count queue, fun y hy => ?_, fun k hk hx => ?_, fun c hc hx => ?_⟩
  · rw [h.head]
    exact h.served.stuck released (h.head ▸ stuck')
  · rw [← dropped.zone_ne placed hp hy]
    refine zone_ext ?_ (h.grantedZone.others y hy)
    rw [carried, if_neg hy]
    rfl
  · rw [granted.away k hx]
    exact dropped.away k hk
  · have out : c ∉ tourChannels ((dequeue x.slot z v).tour x.slot).live := by
      show c ∉ tourChannels (v.tour x.slot).live
      rw [h.tour_eq dropped]
      exact hx
    rw [granted.channel, if_neg out]
    show v.channel c = s.channel c
    rw [dropped.channel, if_neg hc]

end NextGranted

end Sys2Proof.Machine
end

section
/-! The window of one tour over a mix point, and O55 (R52, R54, R57). -/

namespace Sys2Proof.Machine

open Sys2Proof

variable {s t u v : State} {slot : Fin 16} {z : Fin 12} {w : Nat} {zone : Option (Fin 12)} {chs : List (Fin 24)}

/-! ### A tour alone on its channels -/

/-- A tour stands in no queue, and no other tour holds these channels. -/
def Solo (slot : Fin 16) (chs : List (Fin 24)) (s : State) : Prop :=
  ¬ Queued s slot ∧ ∀ c ∈ chs, ∀ k, k ≠ slot → c ∉ tourChannels (s.tour k).live

/-- Queues lose entries and tours lose channels only, whatever piece of work is done. -/
theorem Solo.doWork (h : Solo slot chs s) (x : TourWork) : Solo slot chs (doWork x s) := by
  obtain ⟨other, hne⟩ : ∃ k : Fin 16, x.slot ≠ k := exists_ne x.slot |>.imp fun _ h => h.symm
  have b := Beside.doWork hne s
  exact ⟨fun ⟨z, y, hy, hs⟩ => h.1 ⟨z, y, b.queue z y hy, hs⟩, fun c hc k hk hm => h.2 c hc k hk (b.channels k hm)⟩

theorem Solo.beside (h : Solo slot chs s) (b : Beside slot s t) :
    Solo slot chs t ∧ t.tour slot = s.tour slot ∧ ∀ c ∈ chs, t.channel c = s.channel c :=
  ⟨⟨mt b.queued h.1, fun c hc k hk hm => h.2 c hc k hk (b.channels k hm)⟩, b.unqueued h.1,
    fun c hc => b.apart h.1 c (h.2 c hc)⟩

/-- A tour whose window is open. -/
structure WindowOpen (slot : Fin 16) (z : Fin 12) (w : Nat) (zone : Option (Fin 12)) (chs : List (Fin 24)) (s : State) :
    Prop where
  solo : Solo slot chs s
  prev : (s.tour slot).live.prevZone = some z
  window : (s.tour slot).live.window = some w
  zone_eq : (s.tour slot).live.zone = zone
  chs_eq : tourChannels (s.tour slot).live = chs

/-- A tour whose window is over, its channels out of the zone dropped. -/
structure WindowGone (slot : Fin 16) (z : Fin 12) (chs : List (Fin 24)) (s : State) : Prop where
  solo : Solo slot chs s
  prev : (s.tour slot).live.prevZone = none
  window : (s.tour slot).live.window = none
  out : ∀ c ∈ chs, (s.channel c).zones.getLsbD z.val = false
  chs_eq : tourChannels (s.tour slot).live = chs ∨ isRunning (s.tour slot) = false

theorem WindowOpen.beside (h : WindowOpen slot z w zone chs s) (b : Beside slot s t) :
    WindowOpen slot z w zone chs t := by
  obtain ⟨solo, tour, -⟩ := h.solo.beside b
  exact ⟨solo, by rw [tour]; exact h.prev, by rw [tour]; exact h.window, by rw [tour]; exact h.zone_eq,
    by rw [tour]; exact h.chs_eq⟩

theorem WindowGone.beside (h : WindowGone slot z chs s) (b : Beside slot s t) : WindowGone slot z chs t := by
  obtain ⟨solo, tour, channel⟩ := h.solo.beside b
  exact ⟨solo, by rw [tour]; exact h.prev, by rw [tour]; exact h.window, fun c hc => by rw [channel c hc]; exact h.out c hc,
    by rw [tour]; exact h.chs_eq⟩

theorem WindowGone.countWindow (h : WindowGone slot z chs s) : WindowGone slot z chs (doWork (.window slot) s) := by
  have same : doWork (.window slot) s = s := tickWindow_of_none h.prev
  rw [same]
  exact h

theorem WindowOpen.countWindow (h : WindowOpen slot z w zone chs s) (hw : 1 < w) :
    WindowOpen slot z (w - 1) zone chs (doWork (.window slot) s) := by
  have solo := h.solo.doWork (.window slot)
  have run : doWork (.window slot) s = s.putLive slot { (s.tour slot).live with window := some (w - 1) } :=
    tickWindow_of_open h.prev h.window hw
  rw [run] at solo ⊢
  exact ⟨solo, by rw [putLive_tour_self]; exact h.prev, by rw [putLive_tour_self], by rw [putLive_tour_self]; exact h.zone_eq,
    by rw [putLive_tour_self]; exact h.chs_eq⟩

theorem WindowOpen.endWindow (h : WindowOpen slot z w zone chs s) (hw : w ≤ 1) :
    WindowGone slot z chs (doWork (.window slot) s) := by
  have solo := h.solo.doWork (.window slot)
  have run : doWork (.window slot) s = serveZones (zoneBit z)
      (dropPrevious slot (s.putLive slot { (s.tour slot).live with window := some 0 })) :=
    tickWindow_of_due h.prev h.window hw
  have dropped := dropped_of_window (some 0) h.prev
  obtain ⟨d, hd⟩ : ∃ d, d = dropPrevious slot (s.putLive slot { (s.tour slot).live with window := some 0 }) := ⟨_, rfl⟩
  rw [← hd] at run dropped
  rw [run] at solo ⊢
  have served := serveZones_queues (zoneBit z) d
  have free : ¬ Queued d slot := mt (dropped.queued_iff slot).1 h.solo.1
  have tour := served.unqueued slot free
  refine ⟨solo, by rw [tour, dropped.tour], by rw [tour, dropped.tour], fun c hc => ?_,
    .inl (by rw [tour, dropped.tourChannels_eq, h.chs_eq])⟩
  have here : (serveZones (zoneBit z) d).channel c = d.channel c := served.away c fun k hk hm => by
    rw [dropped.tourChannels_eq] at hm
    by_cases hks : k = slot
    · exact free (hks ▸ hk)
    · exact h.solo.2 c hc k hks hm
  rw [here, dropped.channel, if_pos (by rw [h.chs_eq]; exact hc)]
  refine (and_not_zoneBit_getLsbD _ _ _).trans ?_
  simp

/-- The timers of a tour whose window is open: it stays open, or the close ends it. -/
theorem WindowOpen.countTimers (h : WindowOpen slot z w zone chs s) (running : isRunning (s.tour slot) = true) :
    ((tickTour slot s).tour slot).live.phase = (s.tour slot).live.phase ∧
      WindowOpen slot z w zone chs (doWork (.timers slot) s) ∨
    (s.tour slot).live.phase = .closing ∧ ((tickTour slot s).tour slot).live.phase = .planned ∧
      WindowGone slot z chs (doWork (.timers slot) s) := by
  have solo := h.solo.doWork (.timers slot)
  obtain ⟨_, _, _, silenced⟩ := tickSilence_silenced slot s
  rcases tickTour_cases running with counted | ⟨closing, ended⟩
  · obtain ⟨⟨hold, wait, tour⟩, -, -⟩ := counted
    rw [silenced.tour] at tour
    refine .inl ⟨by rw [tour], solo, ?_, ?_, ?_, ?_⟩
    all_goals
      show _ = _
      rw [doWork, tour]
    exacts [h.prev, h.window, h.zone_eq, h.chs_eq]
  · obtain ⟨live, -, -, -, -, -, channels⟩ := ended.closed
    rw [silenced.tour] at channels
    refine .inr ⟨closing, live.1, solo, live.2.2.2.2.2.1, live.2.2.2.2.2.2.1, fun c hc => ?_,
      .inr (Bool.eq_false_iff.2 fun hr => by rw [isRunning_iff, doWork, live.1] at hr; simp at hr)⟩
    obtain ⟨e, he⟩ := mem_tourChannels_iff.1 (h.chs_eq ▸ hc)
    obtain ⟨-, -, -, zones⟩ := channels e c he
    have zero := zones fun k hk f hf => h.solo.2 c hc k hk (mem_tourChannels_iff.2 ⟨f, by rw [silenced.away hk] at hf; exact hf⟩)
    show ((tickTour slot s).channel c).zones.getLsbD z.val = false
    rw [zero]
    exact BitVec.getLsbD_zero

/-- The timers of a tour whose window is over. -/
theorem WindowGone.countTimers (h : WindowGone slot z chs s) : WindowGone slot z chs (doWork (.timers slot) s) := by
  have solo := h.solo.doWork (.timers slot)
  by_cases running : isRunning (s.tour slot) = true
  · have hs := h.chs_eq.resolve_right (by rw [running]; decide)
    obtain ⟨_, _, _, silenced⟩ := tickSilence_silenced slot s
    rcases tickTour_cases running with counted | ⟨closing, ended⟩
    · obtain ⟨⟨hold, wait, tour⟩, -, channel⟩ := counted
      rw [silenced.tour] at tour
      refine ⟨solo, ?_, ?_, fun c hc => ?_, .inl ?_⟩
      · show ((tickTour slot s).tour slot).live.prevZone = none
        rw [tour]
        exact h.prev
      · show ((tickTour slot s).tour slot).live.window = none
        rw [tour]
        exact h.window
      · show ((tickTour slot s).channel c).zones.getLsbD z.val = false
        rw [channel, silenced.keeps.channel_eq (by decide) c]
        exact h.out c hc
      · show tourChannels ((tickTour slot s).tour slot).live = chs
        rw [tour]
        exact hs
    · obtain ⟨live, -, -, -, -, -, channels⟩ := ended.closed
      rw [silenced.tour] at channels
      refine ⟨solo, live.2.2.2.2.2.1, live.2.2.2.2.2.2.1, fun c hc => ?_,
      .inr (Bool.eq_false_iff.2 fun hr => by rw [isRunning_iff, doWork, live.1] at hr; simp at hr)⟩
      obtain ⟨e, he⟩ := mem_tourChannels_iff.1 (hs ▸ hc)
      obtain ⟨-, -, -, zones⟩ := channels e c he
      have zero := zones fun k hk f hf =>
        h.solo.2 c hc k hk (mem_tourChannels_iff.2 ⟨f, by rw [silenced.away hk] at hf; exact hf⟩)
      show ((tickTour slot s).channel c).zones.getLsbD z.val = false
      rw [zero]
      exact BitVec.getLsbD_zero
  · have same : doWork (.timers slot) s = s := if_neg running
    rw [same]
    exact h

/-! ### A mix point -/

/-- A placed tour with an open window is alone on its channels and runs. -/
theorem ZonesPlaced.windowOpen (h : ZonesPlaced s) (hp : (s.tour slot).live.prevZone = some z)
    (hw : (s.tour slot).live.window = some w) :
    WindowOpen slot z w (s.tour slot).live.zone (tourChannels (s.tour slot).live) (mixReady s) ∧
    isRunning (s.tour slot) = true := by
  have start := mixReady_start s
  have tours (k : Fin 16) : (mixReady s).tour k = s.tour k := start.keeps.tour_eq (by decide) k
  refine ⟨⟨⟨?_, fun c hc k hk hm => hk ?_⟩, by rw [tours]; exact hp, by rw [tours]; exact hw, by rw [tours],
    by rw [tours]⟩, ?_⟩
  · unfold Queued
    rw [start.zone]
    exact h.not_queued_of_window (by rw [hp]; rfl)
  · rw [tours] at hm
    exact (h.2.2.1 slot).alone hc hm
  · by_contra hr
    have := ((h.2.2.1 slot).2.2.2.2 (Bool.eq_false_iff.2 hr)).2.2
    rw [hp] at this
    cases this

/-- The window of a tour over a mix point: counted while the tour is not closed, and over when it runs out (R54). -/
theorem mixPoint_window (h : ZonesPlaced s) (hp : (s.tour slot).live.prevZone = some z)
    (hw : (s.tour slot).live.window = some w) :
    (1 < w → (s.tour slot).live.phase = .live ∨ ((mixPoint s).tour slot).live.phase = (s.tour slot).live.phase →
      ((mixPoint s).tour slot).live.prevZone = some z ∧ ((mixPoint s).tour slot).live.window = some (w - 1) ∧
      ((mixPoint s).tour slot).live.zone = (s.tour slot).live.zone) ∧
    (w ≤ 1 → ((mixPoint s).tour slot).live.prevZone = none ∧ ((mixPoint s).tour slot).live.window = none ∧
      ∀ c ∈ tourChannels (s.tour slot).live, ((mixPoint s).channel c).zones.getLsbD z.val = false) := by
  obtain ⟨opened, running⟩ := h.windowOpen hp hw
  obtain ⟨a, b, u, v, x, pair, before, between, after, done⟩ := mixPoint_seen slot s
  have sent := rackSender_keepsParts x
  rw [← done] at sent
  have tour : (mixPoint s).tour slot = x.tour slot := sent.tour_eq (by decide) slot
  have channel (c : Fin 24) : (mixPoint s).channel c = x.channel c := sent.channel_eq (by decide) c
  rw [tour]
  simp only [channel]
  have start : (mixReady s).tour slot = s.tour slot := (mixReady_start s).keeps.tour_eq (by decide) slot
  have phaseU : (u.tour slot).live.phase = (s.tour slot).live.phase := by
    rw [(opened.solo.beside before).2.1, start]
  have opened := opened.beside before
  have runs {y : State} (hy : (y.tour slot).live.phase = (s.tour slot).live.phase) : isRunning (y.tour slot) = true := by
    rw [isRunning_iff] at running ⊢
    rw [hy]
    exact running
  have gone (hx : WindowGone slot z (tourChannels (s.tour slot).live) x) : (x.tour slot).live.prevZone = none ∧
      (x.tour slot).live.window = none ∧
      ∀ c ∈ tourChannels (s.tour slot).live, (x.channel c).zones.getLsbD z.val = false := ⟨hx.prev, hx.window, hx.out⟩
  have stays {y : State} {w' : Nat} (b : Beside slot y x) (hy : (y.tour slot).live.phase = .planned)
      (hs : Solo slot (tourChannels (s.tour slot).live) y) (hc : (s.tour slot).live.phase = .closing)
      (hm : (s.tour slot).live.phase = .live ∨ (x.tour slot).live.phase = (s.tour slot).live.phase) :
      WindowOpen slot z w' (s.tour slot).live.zone (tourChannels (s.tour slot).live) x := by
    rcases hm with hm | hm
    · rw [hc] at hm
      cases hm
    · rw [(hs.beside b).2.1, hy, hc] at hm
      cases hm
  rcases pair with ⟨rfl, rfl⟩ | ⟨rfl, rfl⟩
  · have phaseV : (v.tour slot).live.phase = (s.tour slot).live.phase := by
      have own : ((doWork (.window slot) u).tour slot).live.phase = (u.tour slot).live.phase := by
        obtain ⟨_, _, _, _, _, _, _, same⟩ := (RunKept.tickWindow slot u).live
        show ((tickWindow slot u).tour slot).live.phase = _
        rw [same]
      obtain ⟨_, _, _, _, same⟩ := between.live
      rw [same]
      exact own.trans phaseU
    refine ⟨fun hlt hm => ?_, fun hle => gone ?_⟩
    · have counted := (opened.countWindow hlt).beside between
      have last : WindowOpen slot z (w - 1) (s.tour slot).live.zone (tourChannels (s.tour slot).live) x := by
        rcases counted.countTimers (runs phaseV) with ⟨-, ok⟩ | ⟨closing, planned, shut⟩
        · exact ok.beside after
        · exact stays after planned shut.solo (phaseV ▸ closing) hm
      exact ⟨last.prev, last.window, last.zone_eq⟩
    · exact (((opened.endWindow hle).beside between).countTimers).beside after
  · have timers := opened.countTimers (runs phaseU)
    refine ⟨fun hlt hm => ?_, fun hle => gone ?_⟩
    · have last : WindowOpen slot z (w - 1) (s.tour slot).live.zone (tourChannels (s.tour slot).live) x := by
        rcases timers with ⟨-, ok⟩ | ⟨closing, planned, shut⟩
        · exact ((ok.beside between).countWindow hlt).beside after
        · have mid := shut.beside between
          have same : doWork (.window slot) v = v := tickWindow_of_none mid.prev
          rw [same] at after
          refine stays after ?_ mid.solo (phaseU ▸ closing) hm
          rw [(shut.solo.beside between).2.1]
          exact planned
      exact ⟨last.prev, last.window, last.zone_eq⟩
    · rcases timers with ⟨-, ok⟩ | ⟨-, -, shut⟩
      · exact ((ok.beside between).endWindow hle).beside after
      · exact ((shut.beside between).countWindow).beside after

/-! ### WINDOW_END -/

/-- Settles O55: the window of the command by whether the head of the queue fits, and the window of a mix point. -/
theorem windowEndDropsZone : Obligations.WindowEndDropsZone := by
  unfold Obligations.WindowEndDropsZone
  intro s slot placed l count
  refine ⟨fun h => by rw [exec_windowEnd, if_neg (by rw [windowDue_eq_false h]; decide)], fun z w hp hw hle => ?_,
    mixPoint s, rfl, fun z w hp hw => ?_⟩
  · have run : exec (.windowEnd slot) s = .next (serveZones (zoneBit z)
        (dropPrevious slot (s.putLive slot { l with window := some 0 }))) := by
      rw [exec_windowEnd, if_pos (windowDue_eq_true hp hw hle), tickWindow_of_due hp hw hle]
    have dropped := dropped_of_window (some 0) hp
    obtain ⟨v, hv⟩ : ∃ v, v = dropPrevious slot (s.putLive slot { (s.tour slot).live with window := some 0 }) := ⟨_, rfl⟩
    rw [← hv] at dropped
    have run' : exec (.windowEnd slot) s = .next (serveZones (zoneBit z) v) := hv ▸ run
    have ended := windowEnded placed hp dropped (serveZones_queues (zoneBit z) v)
    have keeps : KeepsAllBut [.zones, .tours, .events, .egress] s (serveZones (zoneBit z) v) :=
      (dropped.keeps.mono (by decide)).trans ((serveZones_served (zoneBit z) v).keeps.mono (by decide))
    have tour := ended.tour.trans dropped.tour
    have enables : v.evq.enables = s.evq.enables := dropped.keeps .enables (by decide)
    have need (k : Fin 16) : count (s.tour k).live = tourNeed (s.tour k).live := (tourNeed_eq _).symm
    have stuck_iff := dropped.stuck_iff placed hp
    by_cases stuck : HeadStuck v z
    · have same := serveZones_of_stuck stuck
      rw [same] at run' keeps tour ended
      refine ⟨v, [], run', tour, dropped.events, fun e c hc => ended.own hc, ⟨fun _ => ⟨rfl, ?_, dropped.queue z,
        fun y hy => dropped.zone_ne placed hp hy, dropped.away, fun c hc => ?_⟩, fun x rest cur hq hfit => ?_⟩, keeps⟩
      · rw [need slot]
        exact dropped.carried_here placed hp
      · rw [dropped.channel, if_neg fun hm => by obtain ⟨e, he⟩ := mem_tourChannels_iff.1 hm; exact hc e he]
      · have := stuck_iff.1 stuck x (by rw [hq]; rfl)
        rw [need slot] at hfit
        omega
    · obtain ⟨x, hx, fits⟩ : ∃ x, (v.zone z).queue.head? = some x ∧ x.need ≤ freeSlots v z := by
        by_contra hn
        exact stuck fun x hx => Nat.lt_of_not_le fun hle => hn ⟨x, hx, hle⟩
      rw [dropped.queue] at hx
      obtain ⟨rest, hq⟩ : ∃ rest, (s.zone z).queue = x :: rest := by
        cases hq : (s.zone z).queue with
        | nil => rw [hq] at hx; cases hx
        | cons y rest => rw [hq] at hx; exact ⟨rest, congrArg (· :: rest) (Option.some.inj hx)⟩
      have queued := (placed.2.2.2.2 z x (by rw [hq]; exact List.mem_cons_self)).2.1
      obtain ⟨cur, hcur⟩ := Option.isSome_iff_exists.1 queued
      have next := nextGranted placed hp dropped hq fits hcur
      obtain ⟨more, events, none_⟩ := next.events dropped
      refine ⟨serveZones (zoneBit z) v, _, run', tour, dropped.events.append events enables, fun e c hc => ended.own hc,
        ⟨fun h => absurd (stuck_iff.2 (by rw [← need slot]; exact h)) stuck, fun x' rest' cur' hq' _ hcur' => ?_⟩, keeps⟩
      obtain ⟨rfl, rfl⟩ := List.cons.inj (hq'.symm.trans hq)
      obtain rfl := Option.some.inj (hcur'.symm.trans hcur)
      intro m w' behind
      refine ⟨next.tour dropped, fun e c hc => next.channel placed dropped hc, next.queue_gone, fun h0 => ⟨more, ?_⟩,
        fun h0 behindStuck => ?_⟩
      · have zero : grantWindow (s.tour x'.slot) = 0 := h0
        rw [if_pos zero]
        rfl
      · have open_ : ¬ grantWindow (s.tour x'.slot) = 0 := h0
        obtain ⟨same, zone, zones, tours, channels⟩ := next.last placed hp dropped h0 fun y hy => by
          have := behindStuck y hy
          rw [need slot, need x'.slot] at this
          exact this
        rw [if_neg open_, none_ same, same, need slot, need x'.slot]
        refine ⟨rfl, zone, zones, tours, fun c h1 h2 => channels c (fun hm => ?_) fun hm => ?_⟩
        · obtain ⟨e, he⟩ := mem_tourChannels_iff.1 hm
          exact h1 e he
        · obtain ⟨e, he⟩ := mem_tourChannels_iff.1 hm
          exact h2 e he
  · obtain ⟨counts, ends⟩ := mixPoint_window placed hp hw
    refine ⟨counts, fun hle => ?_⟩
    obtain ⟨prev, window, out⟩ := ends hle
    exact ⟨prev, window, fun e c hc => out c (mem_tourChannels_iff.2 ⟨e, hc⟩)⟩

end Sys2Proof.Machine
end

section
/-! LOAD CHANNEL: what binding and freeing a channel leave, and O32 (R43 to R46). -/

namespace Sys2Proof.Machine

open Sys2Proof

variable {s t u : State}

/-! ### One channel changed -/

/-- One channel of the table changes, and with it the carried counts and the bindings of programs (R43, R44, R46). -/
structure ChannelChanged (ch : Fin 24) (c : Channel) (programs : Fin 32 → Program) (s t : State) : Prop where
  keeps : KeepsAllBut [.zones, .programs] s t
  here : t.channel ch = c
  away : ∀ j, j ≠ ch → t.channel j = s.channel j
  program : ∀ p, t.program p = programs p
  queue : ∀ z, (t.zone z).queue = (s.zone z).queue
  counted : ZonesCounted s → ZonesCounted t

/-- The carried counts follow the zone set of the one channel that changes (R44). -/
theorem ChannelChanged.carried {ch : Fin 24} {c : Channel} {programs : Fin 32 → Program}
    (h : ChannelChanged ch c programs s t) (counted : ZonesCounted s) (z : Fin 12) :
    (t.zone z).carried + inSet z (s.channel ch).zones = (s.zone z).carried + inSet z c.zones := by
  have loads := length_filter_update (List.nodup_finRange 24) (List.mem_finRange ch)
    (fun j => (t.channel j).zones.getLsbD z.val) (fun j => (s.channel j).zones.getLsbD z.val)
    fun j hj => by rw [h.away j hj]
  rw [h.here] at loads
  rw [counted z, h.counted counted z]
  exact loads

/-- The programs once the binding of one is removed. -/
def unboundFrom (given : Option (Fin 32)) (s : State) (p : Fin 32) : Program :=
  if given = some p then { s.program p with binding := none } else s.program p

/-- The fields of a channel other than its zone set are no part of the counts. -/
theorem zonesCounted_putChannel {ch : Fin 24} {x : Channel} (hx : x.zones = (s.channel ch).zones) (h : ZonesCounted s) :
    ZonesCounted (s.putChannel ch x) := by
  refine zonesCounted_congr (s := s) (t := s.putChannel ch x) (fun _ => rfl) (fun j => ?_) h
  rw [State.putChannel_channel]
  split
  next h => rw [h, hx]
  next => rfl

theorem freeChannel_changed (ch : Fin 24) (s : State) :
    ChannelChanged ch (freedChannel (s.channel ch)) (unboundFrom (s.channel ch).program s) s (freeChannel ch s) := by
  refine ⟨freeChannel_keeps .refl (by decide) (by decide), by rw [freeChannel_channel, if_pos rfl],
    fun j hj => by rw [freeChannel_channel, if_neg hj], fun p => ?_, freeChannel_queue ch s, fun hc => ?_⟩
  · unfold freeChannel unboundFrom
    cases (s.channel ch).program with
    | none => rfl
    | some q =>
      show (unbindProgram q s).program p = _
      rw [unbindProgram, State.putProgram_program]
      by_cases hp : p = q
      · rw [if_pos hp, if_pos (by rw [hp]), hp]
      · rw [if_neg hp, if_neg fun e => hp (Option.some.inj e).symm]
  · have frees (v : State) (hv : ZonesCounted v) : ZonesCounted ((setZones ch 0#12 v).putChannel ch
        { (setZones ch 0#12 v).channel ch with phase := .free, program := none }) :=
      zonesCounted_putChannel rfl (zonesCounted_setZones ch 0#12 hv)
    unfold freeChannel
    dsimp only
    split
    · exact frees _ (zonesCounted_congr (fun _ => rfl) (fun _ => rfl) hc)
    · exact frees s hc

/-- The program bound, with the duck factor of a program that becomes on air (R29). -/
def boundProgram (s : State) (p : Fin 32) (ch : Fin 24) : Program :=
  { s.program p with
    binding := some ch, duck := if s.mge.mode = .opened then 32768 else (s.program p).duck }

theorem bindChannel_changed (ch : Fin 24) (phase : ChannelState) (p : Fin 32) (zs : ZoneSet) (s : State) :
    ChannelChanged ch { s.channel ch with phase := phase, program := some p, zones := zs }
      (fun q => if q = p then boundProgram s p ch else s.program q) s (bindChannel ch phase p zs s) := by
  unfold bindChannel
  dsimp only
  have put : KeepsAllBut [.zones] s (s.putChannel ch { s.channel ch with phase := phase, program := some p }) :=
    putChannel_keeps .refl (by decide)
  have zoned : KeepsAllBut [.zones] s
      (setZones ch zs (s.putChannel ch { s.channel ch with phase := phase, program := some p })) :=
    setZones_keeps put (by decide)
  have channel (j : Fin 24) : (setZones ch zs (s.putChannel ch { s.channel ch with phase := phase, program := some p })).channel j =
      if j = ch then { s.channel ch with phase := phase, program := some p, zones := zs } else s.channel j := by
    rw [setZones_channel]
    split
    · rw [State.putChannel_channel_self]
    next h => rw [State.putChannel_channel, if_neg h]
  have counts (hc : ZonesCounted s) : ZonesCounted
      (setZones ch zs (s.putChannel ch { s.channel ch with phase := phase, program := some p })) :=
    zonesCounted_setZones ch zs (zonesCounted_putChannel rfl hc)
  refine ⟨putProgram_keeps (zoned.mono (by decide)) (by decide), (channel ch).trans (if_pos rfl),
    fun j hj => (channel j).trans (if_neg hj), fun q => ?_, fun z => ?_, counts⟩
  · rw [bindProgram, State.putProgram_program]
    split <;> rfl
  · show ((setZones ch zs _).zone z).queue = _
    rw [setZones_zone]
    rfl

theorem setZones_changed (ch : Fin 24) (zs : ZoneSet) (s : State) :
    ChannelChanged ch { s.channel ch with zones := zs } s.program s (setZones ch zs s) :=
  ⟨setZones_keeps .refl (by decide), by rw [setZones_channel, if_pos rfl], fun j hj => by rw [setZones_channel, if_neg hj],
    fun _ => rfl, fun z => by rw [setZones_zone], zonesCounted_setZones ch zs⟩

/-! ### The change of a LOAD CHANNEL -/

/-- The channel given a program: STANDING, unless it has that program already (R46). -/
def givenChannel (ch : Fin 24) (p : Fin 32) (zs : ZoneSet) (s : State) : Channel :=
  { s.channel ch with
    phase := if (s.channel ch).program = some p then (s.channel ch).phase else .standing
    program := some p, zones := zs }

/-- The bindings that follow a channel given a program (R43, R46). -/
def givenPrograms (ch : Fin 24) (p : Fin 32) (s : State) (q : Fin 32) : Program :=
  if (s.channel ch).program = some p then s.program q
  else if q = p then boundProgram s p ch
  else if (s.channel ch).program = some q then { s.program q with binding := none } else s.program q

theorem changeChannel_given (ch : Fin 24) (p : Fin 32) (zs : ZoneSet) (s : State) :
    ChannelChanged ch (givenChannel ch p zs s) (givenPrograms ch p s) s (changeChannel ch (some p) zs s) := by
  unfold changeChannel
  cases hq : (s.channel ch).program with
  | none =>
    obtain ⟨keeps, here, away, program, queue, counted⟩ := bindChannel_changed ch .standing p zs s
    exact ⟨keeps, by rw [here, givenChannel, hq, if_neg (by simp)], away,
      fun q => by rw [program, givenPrograms, hq]; simp, queue, counted⟩
  | some q =>
    by_cases h : p = q
    · subst h
      obtain ⟨keeps, here, away, program, queue, counted⟩ := setZones_changed ch zs s
      dsimp only
      rw [if_pos rfl]
      exact ⟨keeps, by rw [here, givenChannel, hq, if_pos rfl, ← hq], away,
        fun q => by rw [program, givenPrograms, hq, if_pos rfl], queue, counted⟩
    · dsimp only
      rw [if_neg h]
      obtain ⟨keeps, here, away, program, queue, counted⟩ := bindChannel_changed ch .standing p zs (unbindProgram q s)
      have unbound : KeepsAllBut [.programs] s (unbindProgram q s) := putProgram_keeps .refl (by decide)
      have programs (r : Fin 32) : (unbindProgram q s).program r =
          if r = q then { s.program q with binding := none } else s.program r := by
        rw [unbindProgram, State.putProgram_program]
      refine ⟨(unbound.mono (by decide)).trans keeps, ?_, away, fun r => ?_, queue, fun hc =>
        counted (zonesCounted_congr (fun _ => rfl) (fun _ => rfl) hc)⟩
      · rw [here, givenChannel, hq, if_neg fun e => h (Option.some.inj e).symm]
        rfl
      · rw [program, givenPrograms, hq, if_neg fun e => h (Option.some.inj e).symm]
        split
        next hr =>
          have mode : (unbindProgram q s).mge = s.mge := rfl
          rw [boundProgram, boundProgram, programs, if_neg h, mode]
        next hr =>
          rw [programs]
          by_cases hrq : r = q
          · rw [if_pos hrq, if_pos (by rw [hrq]), hrq]
          · rw [if_neg hrq, if_neg fun e => hrq (Option.some.inj e).symm]

/-! ### Placed tours -/

/-- A channel of no tour changes: its old state is not TOUR, and a FREE channel has neither program nor zone (R43). -/
theorem ChannelChanged.placed {ch : Fin 24} {c : Channel} {programs : Fin 32 → Program}
    (h : ChannelChanged ch c programs s t) (placed : ZonesPlaced s) (old : (s.channel ch).phase ≠ .tour)
    (free : c.phase = .free → c.program = none ∧ c.zones = 0#12)
    (room : ∀ z : Fin 12, c.zones.getLsbD z.val = true → (s.zone z).carried + (1 - inSet z (s.channel ch).zones) ≤ 8) :
    ZonesPlaced t := by
  have carried := h.carried placed.1
  have tours (k : Fin 16) : t.tour k = s.tour k := h.keeps.tour_eq (by decide) k
  obtain ⟨counted, capacity, placedTours, frees, queues⟩ := placed
  refine ⟨h.counted counted, fun z => ?_, fun k => (placedTours k).congr (tours k) (fun j e => by rw [tours]) fun j hj => ?_,
    fun j hj => ?_, fun z w hw => ?_⟩
  · have sum := carried z
    have capacity_ : Config.zoneCapacity = 8 := rfl
    have before := capacity z
    by_cases hz : c.zones.getLsbD z.val = true
    · have fits := room z hz
      simp only [inSet, hz, if_true] at sum fits
      split at sum <;> simp_all
    · simp only [inSet, hz] at sum
      simp at sum
      omega
  · have out : j ≠ ch := by
      rintro rfl
      obtain ⟨e, he⟩ := mem_tourChannels_iff.1 hj
      exact old ((placedTours k).1 e j he).1
    rw [h.away j out]
    exact ⟨rfl, rfl⟩
  · by_cases hjc : j = ch
    · rw [hjc, h.here] at hj ⊢
      exact free hj
    · rw [h.away j hjc] at hj ⊢
      exact frees j hj
  · rw [tours]
    exact queues z w (by rwa [h.queue] at hw)

/-- The service of the queues does not touch a channel that no tour holds. -/
theorem serveZones_channel_of_not_tour (h : ZonesPlaced s) {ch : Fin 24} (hc : (s.channel ch).phase ≠ .tour) (zs : ZoneSet) :
    (serveZones zs s).channel ch = s.channel ch :=
  (serveZones_queues zs s).away ch fun k _ hm => by
    obtain ⟨e, he⟩ := mem_tourChannels_iff.1 hm
    exact hc ((h.2.2.1 k).1 e ch he).1

end Sys2Proof.Machine
end

section
/-! LOAD CHANNEL as O32 states it (R45, R46). -/

namespace Sys2Proof.Machine

open Sys2Proof

variable {s t u : State} {ch : Fin 24} {p : Fin 32}

/-! ### The checks -/

theorem zoneFull_eq_true_iff {zs : ZoneSet} : zoneFull s ch zs = true ↔
    ∃ z : Fin 12, zs.getLsbD z.val = true ∧ 8 < (s.zone z).carried + (1 - inSet z (s.channel ch).zones) := by
  have capacity : Config.zoneCapacity = 8 := rfl
  simp only [zoneFull, List.any_eq_true, List.mem_finRange, true_and, Bool.and_eq_true, decide_eq_true_eq, capacity]

theorem boundElsewhere_iff : boundElsewhere s ch p = true ↔
    (s.program p).owner.isSome = true ∨ ∃ b, (s.program p).binding = some b ∧ b ≠ ch := by
  unfold boundElsewhere
  rw [Bool.or_eq_true]
  refine or_congr_right ?_
  cases (s.program p).binding with
  | none => simp
  | some b => simp

theorem programLoaded_eq_false_iff {q : Program} : programLoaded q = false ↔ q.installed = none ∧ q.pendingRec = none := by
  simp [programLoaded]

/-- LOAD CHANNEL of arguments that pass check 1 (R45). -/
def loadParsed (ch : Fin 24) (given : Option (Fin 32)) (zs : ZoneSet) (s : State) : Answer :=
  let kept := match given with
    | some _ => zs
    | none => 0#12
  let applied := answer .done (serveZones ((s.channel ch).zones &&& ~~~kept) (changeChannel ch given zs s))
  if (s.channel ch).phase = .tour then refuse .wrongState s
  else match given with
    | none => applied
    | some p =>
      if !programLoaded (s.program p) then refuse .notFound s
      else if boundElsewhere s ch p then refuse .wrongState s
      else if zoneFull s ch zs then refuse .zoneFull s
      else applied

theorem loadChannel_of_parsed {args : List Byte} {given : Option (Fin 32)} {zs : ZoneSet}
    (h : parseChannel args = some (ch, given, zs)) : loadChannel args s = loadParsed ch given zs s := by
  unfold loadChannel
  rw [h]
  rfl

/-- The zones released by a change: those the channel had and does not keep (R46). -/
def releasedZones (ch : Fin 24) (kept : ZoneSet) (s : State) : ZoneSet := (s.channel ch).zones &&& ~~~kept

theorem loadParsed_of_tour {given : Option (Fin 32)} {zs : ZoneSet} (h : (s.channel ch).phase = .tour) :
    loadParsed ch given zs s = refuse .wrongState s := if_pos h

theorem loadParsed_none {zs : ZoneSet} (h : (s.channel ch).phase ≠ .tour) : loadParsed ch none zs s =
    answer .done (serveZones (releasedZones ch 0#12 s) (changeChannel ch none zs s)) := if_neg h

theorem loadParsed_some {zs : ZoneSet} (h : (s.channel ch).phase ≠ .tour) : loadParsed ch (some p) zs s =
    if !programLoaded (s.program p) then refuse .notFound s
    else if boundElsewhere s ch p then refuse .wrongState s
    else if zoneFull s ch zs then refuse .zoneFull s
    else answer .done (serveZones (releasedZones ch zs s) (changeChannel ch (some p) zs s)) := if_neg h

/-! ### What it leaves -/

/-- A change of one channel and the service that follows, as a request answers it. -/
structure ChannelLoaded (ch : Fin 24) (c : Channel) (programs : Fin 32 → Program) (s u : State) : Prop where
  here : u.channel ch = c
  program : ∀ q, u.program q = programs q
  settled : (∀ z, (s.zone z).queue = []) →
    (∀ z, (u.zone z).carried + inSet z (s.channel ch).zones = (s.zone z).carried + inSet z c.zones ∧
      (u.zone z).queue = []) ∧ (∀ j, j ≠ ch → u.channel j = s.channel j) ∧ u.tcl = s.tcl
  keeps : KeepsAllBut [.zones, .programs, .tours, .events, .egress] s u
  placed : ZonesPlaced u

theorem ChannelChanged.loaded {c : Channel} {programs : Fin 32 → Program} (h : ChannelChanged ch c programs s t)
    (placed : ZonesPlaced s) (old : (s.channel ch).phase ≠ .tour) (new : c.phase ≠ .tour)
    (free : c.phase = .free → c.program = none ∧ c.zones = 0#12)
    (room : ∀ z : Fin 12, c.zones.getLsbD z.val = true → (s.zone z).carried + (1 - inSet z (s.channel ch).zones) ≤ 8)
    (zs : ZoneSet) : ChannelLoaded ch c programs s (serveZones zs t) := by
  have after := h.placed placed old free room
  have served := serveZones_served zs t
  refine ⟨?_, fun q => ?_, fun empty => ?_, (h.keeps.mono (by decide)).trans (served.keeps.mono (by decide)),
    after.serveZones zs⟩
  · rw [serveZones_channel_of_not_tour after (by rw [h.here]; exact new), h.here]
  · rw [served.keeps.program_eq (by decide) q, h.program]
  · have none_ (z : Fin 12) : (t.zone z).queue = [] := (h.queue z).trans (empty z)
    rw [serveZones_of_empty none_]
    exact ⟨fun z => ⟨h.carried placed.1 z, none_ z⟩, h.away, h.keeps .tours (by decide)⟩

theorem changeChannel_none_of_not_free {zs : ZoneSet} (h : (s.channel ch).phase ≠ .free) :
    changeChannel ch none zs s = freeChannel ch s := if_neg h

theorem changeChannel_none_of_free {zs : ZoneSet} (h : (s.channel ch).phase = .free) : changeChannel ch none zs s = s :=
  if_pos h

theorem freedChannel_loaded (placed : ZonesPlaced s) (old : (s.channel ch).phase ≠ .tour) (zs : ZoneSet) :
    ChannelLoaded ch (freedChannel (s.channel ch)) (unboundFrom (s.channel ch).program s) s
      (serveZones zs (freeChannel ch s)) :=
  (freeChannel_changed ch s).loaded placed old (by simp [freedChannel]) (fun _ => ⟨rfl, rfl⟩)
    (fun z hz => by simp [freedChannel] at hz) zs

theorem givenChannel_loaded {zs : ZoneSet} (placed : ZonesPlaced s) (old : (s.channel ch).phase ≠ .tour)
    (room : zoneFull s ch zs = false) (released : ZoneSet) :
    ChannelLoaded ch (givenChannel ch p zs s) (givenPrograms ch p s) s
      (serveZones released (changeChannel ch (some p) zs s)) := by
  refine (changeChannel_given ch p zs s).loaded placed old ?_ (fun hf => ?_) (fun z hz => ?_) released
  · unfold givenChannel
    dsimp only
    split
    · exact old
    · decide
  · unfold givenChannel at hf
    dsimp only at hf
    split at hf
    next hp =>
      have := (placed.2.2.2.1 ch hf).1
      rw [hp] at this
      cases this
    next => cases hf
  · by_contra hn
    have tooMany : 8 < (s.zone z).carried + (1 - inSet z (s.channel ch).zones) := Nat.lt_of_not_le hn
    have full : zoneFull s ch zs = true := zoneFull_eq_true_iff.2 ⟨z, hz, tooMany⟩
    exact Bool.noConfusion (room.symm.trans full)

/-- LOAD CHANNEL keeps tours placed (R44 to R46). -/
theorem ZonesPlaced.loadChannel (h : ZonesPlaced s) (args : List Byte) : ZonesPlaced (loadChannel args s).state := by
  cases hp : parseChannel args with
  | none =>
    unfold Machine.loadChannel
    rw [hp]
    exact h
  | some x =>
    obtain ⟨ch, given, zs⟩ := x
    rw [loadChannel_of_parsed hp]
    by_cases tour : (s.channel ch).phase = .tour
    · rw [loadParsed_of_tour tour]
      exact h
    cases given with
    | none =>
      rw [loadParsed_none tour, answer_state]
      by_cases free : (s.channel ch).phase = .free
      · rw [changeChannel_none_of_free free]
        exact h.serveZones _
      · rw [changeChannel_none_of_not_free free]
        exact (freedChannel_loaded h tour _).placed
    | some p =>
      rw [loadParsed_some tour]
      split
      · exact h
      split
      · exact h
      split
      · exact h
      next full =>
        rw [answer_state]
        exact (givenChannel_loaded h tour (Bool.eq_false_iff.2 full) _).placed

/-! ### The request -/

theorem parseChannel_of_bad {a : List Byte}
    (h : 24 ≤ byteAt a 0 ∨ (32 ≤ byteAt a 1 ∧ byteAt a 1 ≠ 255) ∨ 4096 ≤ wordAt a 2) : parseChannel a = none := by
  unfold parseChannel
  by_cases h0 : 24 ≤ byteAt a 0
  · rw [toId_eq_none.2 h0]
  obtain ⟨ch, hch⟩ : ∃ ch : Fin 24, byteAt a 0 = ch.val := ⟨⟨byteAt a 0, by omega⟩, rfl⟩
  rw [toId_val ch hch]
  dsimp only
  by_cases h2 : 4096 ≤ wordAt a 2
  · rw [if_pos h2]
  rw [if_neg h2]
  obtain ⟨h32, h255⟩ := (h.resolve_left h0).resolve_right h2
  rw [if_neg h255, toId_eq_none.2 h32]
  rfl

theorem parseChannel_none {a : List Byte} (h0 : byteAt a 0 = ch.val) (h1 : byteAt a 1 = 255) (h2 : ¬ 4096 ≤ wordAt a 2) :
    parseChannel a = some (ch, none, BitVec.ofNat 12 (wordAt a 2)) := by
  unfold parseChannel
  rw [toId_val ch h0]
  dsimp only
  rw [if_neg h2, if_pos h1]

theorem parseChannel_some {a : List Byte} (h0 : byteAt a 0 = ch.val) (h1 : byteAt a 1 = p.val) (h2 : ¬ 4096 ≤ wordAt a 2) :
    parseChannel a = some (ch, some p, BitVec.ofNat 12 (wordAt a 2)) := by
  have small : byteAt a 1 ≠ 255 := by
    have := p.isLt
    omega
  unfold parseChannel
  rw [toId_val ch h0]
  dsimp only
  rw [if_neg h2, if_neg small, toId_val p h1]
  rfl

theorem exec_loadChannel {req : Request} {x : Answer} (h : Serving s 0x10 req) (hx : loadChannel (requestArgs req) s = x) :
    exec .loadChannel s = .next (offerReply (replyTo req x.status x.data) x.state) :=
  exec_serving (c := .loadChannel) (owner := loadChannel) rfl h hx

/-- Settles O32: the checks in order, then the change of one channel with the service of the zones it releases. -/
theorem loadChannelBinds : Obligations.LoadChannelBinds := by
  unfold Obligations.LoadChannelBinds
  intro s req serving placed a refused n zs bad
  refine ⟨fun hb => ?_, fun hb ch hch => ?_⟩
  · have out : loadChannel a s = refuse .badArgument s := by
      unfold loadChannel
      rw [parseChannel_of_bad hb]
    exact exec_loadChannel serving out
  intro c bit settled
  have small : ¬ 4096 ≤ wordAt a 2 := fun h => hb (.inr (.inr h))
  have known : byteAt a 1 = 255 ∨ ∃ p : Fin 32, byteAt a 1 = p.val := by
    by_cases h : byteAt a 1 = 255
    · exact .inl h
    · refine .inr ⟨⟨byteAt a 1, ?_⟩, rfl⟩
      by_contra hn
      exact hb (.inr (.inl ⟨Nat.le_of_not_lt hn, h⟩))
  refine ⟨fun tour => ?_, fun free hn => ?_, fun standing hn => ?_, fun tour p hp => ?_⟩
  · rcases known with hn | ⟨p, hp⟩
    · exact exec_loadChannel serving ((loadChannel_of_parsed (parseChannel_none hch hn small)).trans (loadParsed_of_tour tour))
    · exact exec_loadChannel serving ((loadChannel_of_parsed (parseChannel_some hch hp small)).trans (loadParsed_of_tour tour))
  · have idle : releasedZones ch 0#12 s = 0#12 := by
      rw [releasedZones, (placed.2.2.2.1 ch free).2]
      rfl
    have out : loadChannel a s = answer .done s := by
      rw [loadChannel_of_parsed (parseChannel_none hch hn small), loadParsed_none (by rw [free]; decide),
        changeChannel_none_of_free free, idle]
      exact congrArg (answer .done) (serveSet_zero _ s)
    have run := exec_loadChannel serving out
    rw [answer_status, answer_data, answer_state] at run
    exact run
  · have tour : (s.channel ch).phase ≠ .tour := by
      rw [standing]
      decide
    have out : loadChannel a s = answer .done (serveZones (releasedZones ch 0#12 s) (freeChannel ch s)) := by
      rw [loadChannel_of_parsed (parseChannel_none hch hn small), loadParsed_none tour,
        changeChannel_none_of_not_free (by rw [standing]; decide)]
    have loaded := freedChannel_loaded placed tour (releasedZones ch 0#12 s)
    have run := exec_loadChannel serving out
    rw [answer_status, answer_data, answer_state] at run
    exact ⟨_, run, loaded.here, loaded.program, loaded.settled, loaded.keeps⟩
  · intro unloaded elsewhere full
    have parsed : loadChannel a s = _ :=
      (loadChannel_of_parsed (parseChannel_some hch hp small)).trans (loadParsed_some tour)
    refine ⟨fun hu => ?_, fun hu he => ?_, fun hu he hf => ?_, fun hu he hf => ?_⟩
    · exact exec_loadChannel serving (parsed.trans (if_pos (by rw [programLoaded_eq_false_iff.2 hu]; rfl)))
    all_goals
      have loaded : ¬ (!programLoaded (s.program p)) = true := fun h =>
        hu (programLoaded_eq_false_iff.1 (by simpa using h))
      rw [if_neg loaded] at parsed
    · rw [if_pos (boundElsewhere_iff.2 he)] at parsed
      exact exec_loadChannel serving parsed
    · rw [if_neg (mt boundElsewhere_iff.1 he), if_pos (zoneFull_eq_true_iff.2 hf)] at parsed
      exact exec_loadChannel serving parsed
    · rw [if_neg (mt boundElsewhere_iff.1 he), if_neg (mt zoneFull_eq_true_iff.1 hf)] at parsed
      have out := givenChannel_loaded (p := p) placed tour (Bool.eq_false_iff.2 (mt zoneFull_eq_true_iff.1 hf))
        (releasedZones ch zs s)
      have run := exec_loadChannel serving parsed
      rw [answer_status, answer_data, answer_state] at run
      exact ⟨_, run, out.here, out.program, out.settled, out.keeps⟩

end Sys2Proof.Machine
end

section
/-! The channels and programs bound at a tour's start (R49, R69). -/

namespace Sys2Proof.Machine

open Sys2Proof

variable {s t u : State} {slot : Fin 16} {zs : ZoneSet}

/-- An entry of a plan with the channel it takes. -/
abbrev BoundEntry := (Fin 4 × Entry) × Fin 24

/-- The program of an entry once it is owned and bound (R29, R49, R69). -/
def ownedProgram (slot : Fin 16) (x : BoundEntry) (s : State) : Program :=
  { boundProgram s x.1.2.program x.2 with owner := some (slot, x.1.1) }

/-- What binding a list of entries to channels leaves, each channel and each entry once (R49, R69 steps 1 and 2). -/
structure EntriesBound (slot : Fin 16) (zs : ZoneSet) (xs : List BoundEntry) (s t : State) : Prop where
  keeps : KeepsAllBut [.zones, .tours, .programs] s t
  channel : ∀ x ∈ xs, t.channel x.2 = ⟨.tour, some x.1.2.program, zs, (s.channel x.2).seq⟩
  channelAway : ∀ c, c ∉ xs.map Prod.snd → t.channel c = s.channel c
  program : (xs.map fun x => x.1.2.program).Nodup → ∀ x ∈ xs, t.program x.1.2.program = ownedProgram slot x s
  programAway : ∀ q, (∀ x ∈ xs, x.1.2.program ≠ q) → t.program q = s.program q
  entry : ∀ x ∈ xs, (t.tour slot).live.channels.get x.1.1 = some x.2
  entryAway : ∀ e, (∀ x ∈ xs, x.1.1 ≠ e) →
    (t.tour slot).live.channels.get e = (s.tour slot).live.channels.get e
  tour : t.tour slot =
    { s.tour slot with live := { (s.tour slot).live with channels := (t.tour slot).live.channels } }
  away : ∀ j, j ≠ slot → t.tour j = s.tour j
  queue : ∀ z, (t.zone z).queue = (s.zone z).queue
  counted : ZonesCounted s → ZonesCounted t
  carried : ZonesCounted s → (∀ x ∈ xs, (s.channel x.2).zones = 0#12) →
    ∀ z, (t.zone z).carried = (s.zone z).carried + xs.length * inSet z zs

theorem bindEntry_bound (slot : Fin 16) (zs : ZoneSet) (x : BoundEntry) (s : State) :
    EntriesBound slot zs [x] s (bindEntry slot zs x s) := by
  obtain ⟨⟨e, y⟩, c⟩ := x
  have bound := bindChannel_changed c .tour y.program zs s
  obtain ⟨t, ht⟩ : ∃ t, t = bindChannel c .tour y.program zs s := ⟨_, rfl⟩
  rw [← ht] at bound
  have eq : bindEntry slot zs ((e, y), c) s =
      (t.putProgram y.program { t.program y.program with owner := some (slot, e) }).putLive slot
        { (t.tour slot).live with channels := (t.tour slot).live.channels.set e (some c) } := by
    rw [ht]
    rfl
  have tours (j : Fin 16) : t.tour j = s.tour j := bound.keeps.tour_eq (by decide) j
  have tour : (bindEntry slot zs ((e, y), c) s).tour slot = { s.tour slot with live :=
      { (s.tour slot).live with channels := (s.tour slot).live.channels.set e (some c) } } := by
    rw [eq, putLive_tour_self, ← tours]
    rfl
  have channels (j : Fin 24) : (bindEntry slot zs ((e, y), c) s).channel j = t.channel j := by rw [eq]; rfl
  have zones (z : Fin 12) : (bindEntry slot zs ((e, y), c) s).zone z = t.zone z := by rw [eq]; rfl
  have programs (q : Fin 32) : (bindEntry slot zs ((e, y), c) s).program q =
      if q = y.program then ownedProgram slot ((e, y), c) s else s.program q := by
    have step : (bindEntry slot zs ((e, y), c) s).program q =
        if q = y.program then { t.program y.program with owner := some (slot, e) } else t.program q := by
      rw [eq]
      exact State.putProgram_program t y.program q _
    rw [step]
    split
    · rw [bound.program, if_pos rfl]
      rfl
    next h => rw [bound.program, if_neg h]
  have counts (h : ZonesCounted s) : ZonesCounted (bindEntry slot zs ((e, y), c) s) :=
    zonesCounted_congr (fun z => by rw [zones]) (fun j => by rw [channels]) (bound.counted h)
  refine ⟨?_, fun x hx => ?_, fun j hj => ?_, fun _ x hx => ?_, fun q hq => ?_, fun x hx => ?_, fun f hf => ?_, ?_,
    fun j hj => ?_, fun z => by rw [zones, bound.queue], counts, fun h free z => ?_⟩
  · rw [eq]
    exact putLive_keeps (putProgram_keeps (bound.keeps.mono (by decide)) (by decide)) (by decide)
  · rw [List.mem_singleton.1 hx, channels, bound.here]
  · rw [channels, bound.away j fun h => hj (by simp [h])]
  · rw [List.mem_singleton.1 hx, programs, if_pos rfl]
  · rw [programs, if_neg fun h => hq _ (List.mem_singleton.2 rfl) h.symm]
  · rw [List.mem_singleton.1 hx, tour]
    exact Tab.get_set_self _ _ _
  · rw [tour]
    exact Tab.get_set_ne _ _ fun h => hf _ (List.mem_singleton.2 rfl) h.symm
  · rw [tour]
  · rw [eq, putLive_tour_ne hj]
    exact tours j
  · have sum := bound.carried h z
    have none : inSet z (s.channel c).zones = 0 := by rw [free _ (List.mem_singleton.2 rfl)]; simp [inSet]
    rw [none] at sum
    rw [zones, List.length_singleton, Nat.one_mul]
    exact sum

/-- Binding one list of entries after another. -/
theorem EntriesBound.cons {x : BoundEntry} {xs : List BoundEntry} (h : EntriesBound slot zs [x] s t)
    (k : EntriesBound slot zs xs t u) (channels : ((x :: xs).map Prod.snd).Nodup)
    (entries : ((x :: xs).map fun y => y.1.1).Nodup) : EntriesBound slot zs (x :: xs) s u := by
  obtain ⟨freshChannel, -⟩ := List.nodup_cons.1 channels
  obtain ⟨freshEntry, -⟩ := List.nodup_cons.1 entries
  have here : x ∈ [x] := List.mem_singleton.2 rfl
  have otherChannel (y : BoundEntry) (hy : y ∈ xs) : y.2 ∉ [x].map Prod.snd := fun hm =>
    freshChannel (by rw [← List.mem_singleton.1 hm]; exact List.mem_map_of_mem hy)
  refine ⟨h.keeps.trans k.keeps, fun y hy => ?_, fun c hc => ?_, fun nodup y hy => ?_, fun q hq => ?_, fun y hy => ?_,
    fun e he => ?_, ?_, fun j hj => (k.away j hj).trans (h.away j hj), fun z => (k.queue z).trans (h.queue z),
    fun hc => k.counted (h.counted hc), fun hc free z => ?_⟩
  · rcases List.mem_cons.1 hy with rfl | hy
    · rw [k.channelAway _ freshChannel, h.channel _ here]
    · rw [k.channel y hy, h.channelAway _ (otherChannel y hy)]
  · rw [k.channelAway c fun hm => hc (List.mem_cons_of_mem _ hm),
      h.channelAway c fun hm => hc (by rw [List.mem_singleton.1 hm]; exact List.mem_cons_self)]
  · obtain ⟨fresh, rest⟩ := List.nodup_cons.1 nodup
    rcases List.mem_cons.1 hy with rfl | hy
    · rw [k.programAway _ fun z hz e => fresh (List.mem_map.2 ⟨z, hz, e⟩), h.program (by simp) _ here]
    · have same : t.program y.1.2.program = s.program y.1.2.program :=
        h.programAway _ fun z hz e => fresh (by
          rw [List.mem_singleton.1 hz] at e
          exact List.mem_map.2 ⟨y, hy, e.symm⟩)
      have mode : t.mge = s.mge := h.keeps.mge_eq (by decide) (by decide) (by decide) (by decide)
      rw [k.program rest y hy, ownedProgram, ownedProgram, boundProgram, boundProgram, same, mode]
  · rw [k.programAway q fun y hy => hq y (List.mem_cons_of_mem _ hy),
      h.programAway q fun y hy => by rw [List.mem_singleton.1 hy]; exact hq x List.mem_cons_self]
  · rcases List.mem_cons.1 hy with rfl | hy
    · rw [k.entryAway _ fun z hz e => freshEntry (List.mem_map.2 ⟨z, hz, e⟩), h.entry _ here]
    · exact k.entry y hy
  · rw [k.entryAway e fun y hy => he y (List.mem_cons_of_mem _ hy),
      h.entryAway e fun y hy => by rw [List.mem_singleton.1 hy]; exact he x List.mem_cons_self]
  · rw [k.tour, h.tour]
  · rw [k.carried (h.counted hc) (fun y hy => ?_) z, h.carried hc (fun y hy => ?_) z, List.length_singleton,
      List.length_cons, Nat.add_mul, Nat.one_mul]
    · omega
    · rw [List.mem_singleton.1 hy]
      exact free x List.mem_cons_self
    · rw [h.channelAway _ (otherChannel y hy)]
      exact free y (List.mem_cons_of_mem _ hy)

theorem forEach_bindEntry {xs : List BoundEntry} (channels : (xs.map Prod.snd).Nodup)
    (entries : (xs.map fun y => y.1.1).Nodup) (s : State) :
    EntriesBound slot zs xs s (forEach xs (bindEntry slot zs) s) := by
  induction xs generalizing s with
  | nil =>
    exact ⟨.refl, fun x hx => by simp at hx, fun _ _ => rfl, fun _ x hx => by simp at hx, fun _ _ => rfl,
      fun x hx => by simp at hx, fun _ _ => rfl, rfl, fun _ _ => rfl, fun _ => rfl, id, fun _ _ z => by
        rw [List.length_nil, Nat.zero_mul]; rfl⟩
  | cons x rest ih =>
    exact (bindEntry_bound slot zs x s).cons (ih (List.nodup_cons.1 channels).2 (List.nodup_cons.1 entries).2 _)
      channels entries

end Sys2Proof.Machine
end

section
/-! The state of a tour's start before its reservations (R49, R69 steps 1 to 4). -/

namespace Sys2Proof.Machine

open Sys2Proof

variable {s t u : State} {slot : Fin 16} {p : Plan} {z : Fin 12} {e : Fin 4} {x : Entry}

/-! ### The entries of a plan in their order -/

/-- The number of present entries before an entry. -/
def presentBefore (p : Plan) (e : Fin 4) : Nat :=
  ((indices 4).filter fun f => decide (f < e) && (p.entries.get f).isSome).length

theorem entries_split (e : Fin 4) : indices 4 = (indices 4).take e.val ++ e :: (indices 4).drop (e.val + 1) ∧
    (∀ f ∈ (indices 4).take e.val, f < e) ∧ ∀ f ∈ e :: (indices 4).drop (e.val + 1), ¬ f < e := by
  revert e
  decide

theorem length_filterMap_eq {α β : Type} (f : α → Option β) (l : List α) :
    (l.filterMap f).length = (l.filter fun a => (f a).isSome).length := by
  induction l with
  | nil => rfl
  | cons a l ih => cases h : f a <;> simp [h, ih]

theorem planEntries_length (p : Plan) :
    (planEntries p).length = ((indices 4).filter fun f => (p.entries.get f).isSome).length := by
  rw [planEntries, length_filterMap_eq]
  simp only [Option.isSome_map]

theorem planEntries_before (h : p.entries.get e = some x) : (planEntries p)[presentBefore p e]? = some (e, x) := by
  obtain ⟨split, before, after⟩ := entries_split e
  have count : presentBefore p e =
      (((indices 4).take e.val).filterMap fun f => (p.entries.get f).map fun y => (f, y)).length := by
    have none : (e :: (indices 4).drop (e.val + 1)).filter
        (fun f => decide (f < e) && (p.entries.get f).isSome) = [] :=
      List.filter_eq_nil_iff.2 fun f hf => by simp [after f hf]
    have all : ((indices 4).take e.val).filter (fun f => decide (f < e) && (p.entries.get f).isSome) =
        ((indices 4).take e.val).filter fun f => (p.entries.get f).isSome :=
      List.filter_congr fun f hf => by simp [before f hf]
    unfold presentBefore
    conv_lhs => rw [split]
    rw [List.filter_append, none, all, List.append_nil, length_filterMap_eq]
    simp only [Option.isSome_map]
  unfold planEntries
  conv_lhs => rw [split]
  rw [List.filterMap_append, count, List.getElem?_append_right (Nat.le_refl _), Nat.sub_self, List.filterMap_cons, h]
  rfl

theorem planEntries_fst_nodup (p : Plan) : ((planEntries p).map Prod.fst).Nodup := by
  unfold planEntries
  rw [List.map_filterMap, nodup_filterMap_indices]
  simp only [Option.map_map, Option.map_eq_some_iff, Function.comp_apply]
  rintro e f _ ⟨x, -, rfl⟩ ⟨y, -, h⟩
  exact h.symm

/-! ### The channels taken -/

/-- Each present entry with the channel it takes, the FREE channels in ascending order (R49). -/
def startBindings (p : Plan) (s : State) : List BoundEntry := (planEntries p).zip (freeChannels s)

theorem freeChannels_nodup (s : State) : (freeChannels s).Nodup := (List.nodup_finRange 24).filter _

theorem mem_freeChannels {c : Fin 24} : c ∈ freeChannels s ↔ (s.channel c).phase = .free := by
  rw [freeChannels, List.mem_filter, decide_eq_true_iff]
  exact and_iff_right (List.mem_finRange c)

theorem startBindings_channels (room : (planEntries p).length ≤ (freeChannels s).length) :
    (startBindings p s).map Prod.snd = (freeChannels s).take (planEntries p).length := by
  rw [startBindings, List.zip_eq_zip_take_min, List.map_snd_zip, Nat.min_eq_left room]
  rw [List.length_take, List.length_take]
  omega

theorem startBindings_entries (room : (planEntries p).length ≤ (freeChannels s).length) :
    (startBindings p s).map Prod.fst = planEntries p := List.map_fst_zip room

theorem mem_startBindings (room : (planEntries p).length ≤ (freeChannels s).length) (h : p.entries.get e = some x) :
    ∃ c, (freeChannels s)[presentBefore p e]? = some c ∧ ((e, x), c) ∈ startBindings p s := by
  have entry := planEntries_before h
  have lt : presentBefore p e < (freeChannels s).length :=
    Nat.lt_of_lt_of_le (List.getElem?_eq_some_iff.1 entry).1 room
  exact ⟨(freeChannels s)[presentBefore p e], List.getElem?_eq_getElem lt,
    List.mem_of_getElem? (i := presentBefore p e)
      (List.getElem?_zip_eq_some.2 ⟨entry, List.getElem?_eq_getElem lt⟩)⟩

theorem of_mem_startBindings {y : BoundEntry} (h : y ∈ startBindings p s) :
    p.entries.get y.1.1 = some y.1.2 ∧ (s.channel y.2).phase = .free :=
  ⟨mem_planEntries_iff.1 (List.of_mem_zip h).1, mem_freeChannels.1 (List.of_mem_zip h).2⟩

/-! ### The tour bound and its live record set -/

/-- The state in which the tour is LIVE with its channels, and nothing is reserved yet (R69 steps 1 to 4). -/
def tourBound (slot : Fin 16) (p : Plan) (z : Fin 12) (s : State) : State :=
  let t := forEach (startBindings p s) (bindEntry slot (zoneBit z)) s
  t.putLive slot (startedLive p (timingOf (s.tour slot)) z (t.tour slot).live)

/-- The live record of a tour just started on the channels given (R69 steps 3 and 4). -/
def boundLive (s : State) (slot : Fin 16) (p : Plan) (z : Fin 12) (channels : Tab (Option (Fin 24)) 4) : TourLive :=
  startedLive p (timingOf (s.tour slot)) z { (s.tour slot).live with channels := channels }

/-- What the first steps of a start leave (R49, R69). -/
structure TourBound (slot : Fin 16) (p : Plan) (z : Fin 12) (s t : State) : Prop where
  keeps : KeepsAllBut [.zones, .tours, .programs] s t
  entry : ∀ e x, p.entries.get e = some x → ∃ c, (freeChannels s)[presentBefore p e]? = some c ∧
    (t.tour slot).live.channels.get e = some c ∧
    t.channel c = ⟨.tour, some x.program, zoneBit z, (s.channel c).seq⟩ ∧
    (ProgramsApart p → t.program x.program = ownedProgram slot ((e, x), c) s)
  absent : ∀ e, p.entries.get e = none → (t.tour slot).live.channels.get e = (s.tour slot).live.channels.get e
  channelAway : ∀ c, c ∉ (freeChannels s).take (planEntries p).length → t.channel c = s.channel c
  programAway : ∀ q, (∀ e x, p.entries.get e = some x → x.program ≠ q) → t.program q = s.program q
  taken : ∀ c ∈ (freeChannels s).take (planEntries p).length, (t.channel c).phase = .tour
  tour : t.tour slot = { s.tour slot with live := boundLive s slot p z (t.tour slot).live.channels }
  away : ∀ j, j ≠ slot → t.tour j = s.tour j
  queue : ∀ y, (t.zone y).queue = (s.zone y).queue
  counted : ZonesCounted s → ZonesCounted t
  carried : ZonesCounted s → (∀ c, (s.channel c).phase = .free → (s.channel c).zones = 0#12) →
    ∀ y, (t.zone y).carried = (s.zone y).carried + (planEntries p).length * inSet y (zoneBit z)

theorem tourBound_spec (slot : Fin 16) (z : Fin 12) (room : (planEntries p).length ≤ (freeChannels s).length) :
    TourBound slot p z s (tourBound slot p z s) := by
  have channels := startBindings_channels room
  have entries := startBindings_entries room
  have bound : EntriesBound slot (zoneBit z) (startBindings p s) s
      (forEach (startBindings p s) (bindEntry slot (zoneBit z)) s) := by
    refine forEach_bindEntry ?_ ?_ s
    · rw [channels]
      exact (freeChannels_nodup s).sublist (List.take_sublist _ _)
    · have : (startBindings p s).map (fun y => y.1.1) = ((startBindings p s).map Prod.fst).map Prod.fst := by
        rw [List.map_map]
        rfl
      rw [this, entries]
      exact planEntries_fst_nodup p
  unfold tourBound
  obtain ⟨t, ht⟩ : ∃ t, t = forEach (startBindings p s) (bindEntry slot (zoneBit z)) s := ⟨_, rfl⟩
  rw [← ht] at bound ⊢
  dsimp only
  obtain ⟨u, hu⟩ : ∃ u, u = t.putLive slot (startedLive p (timingOf (s.tour slot)) z (t.tour slot).live) := ⟨_, rfl⟩
  have tour : u.tour slot = { t.tour slot with
      live := startedLive p (timingOf (s.tour slot)) z (t.tour slot).live } := by rw [hu, putLive_tour_self]
  have gets (e : Fin 4) : (u.tour slot).live.channels.get e = (t.tour slot).live.channels.get e := by
    rw [tour]
    rfl
  have keeps : KeepsAllBut [.tours] t u := hu ▸ putLive_keeps .refl (by decide)
  rw [← hu]
  have channel (c : Fin 24) : u.channel c = t.channel c := keeps.channel_eq (by decide) c
  have program (q : Fin 32) : u.program q = t.program q := keeps.program_eq (by decide) q
  have zone (y : Fin 12) : u.zone y = t.zone y := keeps.zone_eq (by decide) y
  refine ⟨bound.keeps.trans (keeps.mono (by decide)), fun e x hx => ?_, fun e he => ?_, fun c hc => ?_, fun q hq => ?_,
    fun c hc => ?_, ?_, fun j hj => ?_, fun y => by rw [zone, bound.queue], fun hc => ?_, fun hc free y => ?_⟩
  · obtain ⟨c, hc, mem⟩ := mem_startBindings room hx
    refine ⟨c, hc, (gets e).trans (bound.entry _ mem), (channel c).trans (bound.channel _ mem), fun apart => ?_⟩
    refine (program _).trans (bound.program ?_ _ mem)
    have : (startBindings p s).map (fun y => y.1.2.program) =
        ((startBindings p s).map Prod.fst).map fun y => y.2.program := by
      rw [List.map_map]
      rfl
    rw [this, entries]
    exact nodup_planEntries_iff.2 apart
  · rw [gets]
    exact bound.entryAway e fun y hy h => by
      have present := (of_mem_startBindings hy).1
      rw [h, he] at present
      cases present
  · rw [channel]
    exact bound.channelAway c (by rwa [channels])
  · rw [program]
    exact bound.programAway q fun y hy => hq _ _ (of_mem_startBindings hy).1
  · rw [← channels] at hc
    obtain ⟨y, hy, rfl⟩ := List.mem_map.1 hc
    rw [channel, bound.channel y hy]
  · rw [tour, bound.tour]
    rfl
  · rw [hu, putLive_tour_ne hj]
    exact bound.away j hj
  · exact zonesCounted_congr (fun y => by rw [zone]) (fun c => by rw [channel]) (bound.counted hc)
  · have length : (startBindings p s).length = (planEntries p).length := by rw [← entries, List.length_map]
    rw [zone, bound.carried hc (fun y hy => free _ (of_mem_startBindings hy).2), length]

/-- A tour started in a PLANNED slot with free channels and room in its zone is placed (R49). -/
theorem TourBound.placed (h : TourBound slot p z s t) (placed : ZonesPlaced s)
    (planned : isRunning (s.tour slot) = false)
    (room : (s.zone z).carried + (planEntries p).length ≤ 8) : ZonesPlaced t := by
  have carried := h.carried placed.1 fun c hc => (placed.2.2.2.1 c hc).2
  obtain ⟨counted, capacity, tours, frees, queues⟩ := placed
  obtain ⟨none, noTarget, noPrevious⟩ := (tours slot).2.2.2.2 planned
  have taken (c : Fin 24) : t.channel c ≠ s.channel c → (s.channel c).phase = .free := fun hne => by
    by_contra hf
    exact hne (h.channelAway c fun hm => hf (mem_freeChannels.1 (List.mem_of_mem_take hm)))
  have live : (t.tour slot).live = boundLive s slot p z (t.tour slot).live.channels := congrArg Tour.live h.tour
  have zone : (t.tour slot).live.zone = some z := by rw [live]; rfl
  have prev : (t.tour slot).live.prevZone = Option.none := by rw [live]; rfl
  have target : (t.tour slot).live.target = Option.none := by rw [live]; rfl
  have running : isRunning (t.tour slot) = true := by
    unfold isRunning
    rw [live]
    rfl
  have mine (e : Fin 4) (c : Fin 24) (hc : (t.tour slot).live.channels.get e = some c) : ∃ x,
      p.entries.get e = some x ∧ (freeChannels s)[presentBefore p e]? = some c ∧
      t.channel c = ⟨.tour, some x.program, zoneBit z, (s.channel c).seq⟩ := by
    cases hx : p.entries.get e with
    | none =>
      rw [h.absent e hx, none e] at hc
      cases hc
    | some x =>
      obtain ⟨c', before, channel, value, -⟩ := h.entry e x hx
      obtain rfl := Option.some.inj (hc.symm.trans channel)
      exact ⟨x, rfl, before, value⟩
  have wasFree {e : Fin 4} {c : Fin 24} (hc : (t.tour slot).live.channels.get e = some c) : (s.channel c).phase = .free := by
    obtain ⟨x, -, before, -⟩ := mine e c hc
    exact mem_freeChannels.1 (List.mem_of_getElem? before)
  have theirs (k : Fin 16) (hk : k ≠ slot) (e : Fin 4) (c : Fin 24) (hc : (t.tour k).live.channels.get e = some c) :
      (s.channel c).phase = .tour := by
    rw [h.away k hk] at hc
    exact ((tours k).1 e c hc).1
  refine ⟨h.counted counted, fun y => ?_, fun k => ?_, fun c hc => ?_, fun y w hw => ?_⟩
  · have capacity_ : Config.zoneCapacity = 8 := rfl
    have before := capacity y
    rw [carried y, inSet, zoneBit_getLsbD]
    by_cases hy : z = y
    · subst hy
      simpa [capacity_] using room
    · simpa [hy] using before
  · by_cases hk : k = slot
    · subst hk
      refine ⟨fun e c hc => ?_, by rw [target]; simp, by rw [prev]; simp, fun _ => by rw [zone]; rfl,
        fun hf => by rw [running] at hf; cases hf⟩
      obtain ⟨x, -, before, value⟩ := mine e c hc
      refine ⟨by rw [value], by rw [zone]; rfl, fun y => ?_, fun j f hj => ?_⟩
      · rw [value, zone, prev]
        show (zoneBit z).getLsbD y.val = _
        rw [zoneBit_getLsbD]
        simp
      · have same : j = k := by
          by_contra hne
          have := theirs j hne f c hj
          rw [wasFree hc] at this
          cases this
        subst same
        obtain ⟨y, hy, beforeF, -⟩ := mine f c hj
        refine ⟨rfl, ?_⟩
        obtain ⟨x', hx, before', -⟩ := mine e c hc
        have index : presentBefore p e = presentBefore p f := by
          obtain ⟨i, hi⟩ := List.getElem?_eq_some_iff.1 before'
          obtain ⟨j', hj'⟩ := List.getElem?_eq_some_iff.1 beforeF
          exact (freeChannels_nodup s).getElem_inj_iff.1 (hi.trans hj'.symm)
        have eq := (planEntries_before hx).symm.trans (index ▸ planEntries_before hy)
        exact (congrArg Prod.fst (Option.some.inj eq)).symm
    · obtain ⟨chs, rest⟩ := tours k
      unfold TourPlaced
      rw [h.away k hk]
      refine ⟨fun e c hc => ?_, rest⟩
      obtain ⟨phase, zoned, zones, alone⟩ := chs e c hc
      have notFree : (s.channel c).phase ≠ .free := by rw [phase]; decide
      have same : t.channel c = s.channel c := by_contra fun hne => notFree (taken c hne)
      rw [same]
      refine ⟨phase, zoned, zones, fun j f hj => alone j f ?_⟩
      have hjs : j ≠ slot := fun e => notFree (wasFree (e ▸ hj))
      rwa [h.away j hjs] at hj
  · have same : t.channel c = s.channel c := by
      refine h.channelAway c fun hm => ?_
      rw [h.taken c hm] at hc
      cases hc
    rw [same] at hc ⊢
    exact frees c hc
  · rw [h.queue] at hw
    obtain ⟨waits, zoned, need⟩ := queues y w hw
    have other : w.slot ≠ slot := fun e => by
      rw [e, noTarget] at waits
      cases waits
    rw [h.away _ other]
    exact ⟨waits, zoned, need⟩

end Sys2Proof.Machine
end

section
/-! TOUR START: its checks, its reservations, and O35 (R68 to R70). -/

namespace Sys2Proof.Machine

open Sys2Proof

variable {s t u : State} {slot : Fin 16} {p : Plan} {z : Fin 12} {e : Fin 4} {x : Entry}

/-! ### The checks of R68 -/

/-- The kind of a loaded source. -/
def kindOf (s : State) (i : Fin 48) : Option SourceKind := (s.source i).map fun r => r.config.kind

theorem hasKind_iff {i : Fin 48} {k : SourceKind} : hasKind s i k = true ↔ kindOf s i = some k := by
  unfold hasKind kindOf
  cases s.source i <;> simp

/-- A source is a present VOICE member of a program's effective record. -/
def VoiceIn (s : State) (q : Fin 32) (i : Fin 48) : Prop :=
  ∃ r k m, (s.program q).pendingRec.or (s.program q).installed = some r ∧ r.members.get k = some m ∧
    m.cls = .voice ∧ m.source = i

theorem holdsVoice_iff {q : Fin 32} {i : Fin 48} : holdsVoice s q i = true ↔ VoiceIn s q i := by
  unfold holdsVoice VoiceIn effectiveRecord
  cases (s.program q).pendingRec.or (s.program q).installed with
  | none => simp
  | some r =>
    simp only [Tab.items_eq, List.any_map, List.any_eq_true, List.mem_finRange, true_and, Function.comp_apply,
      Option.some.injEq, exists_eq_left', exists_and_left]
    refine exists_congr fun k => ?_
    cases r.members.get k with
    | none => simp
    | some m => simp [and_comm]

theorem programFree_of_voice {q : Fin 32} {i : Fin 48} (h : VoiceIn s q i) : programFree s q = true ↔
    (s.program q).owner = none ∧ (s.program q).binding = none := by
  obtain ⟨r, -, -, hr, -⟩ := h
  have loaded : programLoaded (s.program q) = true := by
    unfold programLoaded
    cases hp : (s.program q).pendingRec with
    | some _ => simp
    | none =>
      rw [hp, Option.none_or] at hr
      simp [hr]
  simp [programFree, loaded]

/-- Check 4 of R68 for one entry, as the chapter gives it. -/
def EntryReady (s : State) (p : Plan) (e : Fin 4) (x : Entry) : Prop :=
  (s.program x.program).owner = none ∧ (s.program x.program).binding = none ∧
  ∃ r k m, (s.program x.program).pendingRec.or (s.program x.program).installed = some r ∧
    r.members.get k = some m ∧ m.cls = .voice ∧ (e = 0 → m.source = p.guide) ∧
    (e ≠ 0 → x.interpreter = some m.source ∧ kindOf s m.source = some .interpreter)

theorem entryReady_guide_iff (guide : kindOf s p.guide = some .guide) :
    entryReady s p 0 x = true ↔ EntryReady s p 0 x := by
  have voice : entryReady s p 0 x = true ↔ programFree s x.program = true ∧ VoiceIn s x.program p.guide := by
    simp [entryReady, entryVoice, holdsVoice_iff, hasKind_iff, guide]
  rw [voice]
  constructor
  · rintro ⟨free, hv⟩
    obtain ⟨owner, binding⟩ := (programFree_of_voice hv).1 free
    obtain ⟨r, k, m, hr, hm, hc, hs⟩ := hv
    exact ⟨owner, binding, r, k, m, hr, hm, hc, fun _ => hs, fun h => absurd rfl h⟩
  · rintro ⟨owner, binding, r, k, m, hr, hm, hc, hs, -⟩
    have hv : VoiceIn s x.program p.guide := ⟨r, k, m, hr, hm, hc, hs rfl⟩
    exact ⟨(programFree_of_voice hv).2 ⟨owner, binding⟩, hv⟩

theorem entryReady_interpreter_iff (he : e ≠ 0) : entryReady s p e x = true ↔ EntryReady s p e x := by
  have voice : entryReady s p e x = true ↔ programFree s x.program = true ∧
      ∃ i, x.interpreter = some i ∧ VoiceIn s x.program i ∧ kindOf s i = some .interpreter := by
    unfold entryReady entryVoice
    rw [if_neg he, if_neg he]
    cases x.interpreter <;> simp [holdsVoice_iff, hasKind_iff]
  rw [voice]
  constructor
  · rintro ⟨free, i, hi, hv, kind⟩
    obtain ⟨owner, binding⟩ := (programFree_of_voice hv).1 free
    obtain ⟨r, k, m, hr, hm, hc, rfl⟩ := hv
    exact ⟨owner, binding, r, k, m, hr, hm, hc, fun h => absurd h he, fun _ => ⟨hi, kind⟩⟩
  · rintro ⟨owner, binding, r, k, m, hr, hm, hc, -, hs⟩
    obtain ⟨hi, kind⟩ := hs he
    have hv : VoiceIn s x.program m.source := ⟨r, k, m, hr, hm, hc, rfl⟩
    exact ⟨(programFree_of_voice hv).2 ⟨owner, binding⟩, m.source, hi, hv, kind⟩

/-- Check 4 of R68, as the chapter gives it. -/
def PlanReady (s : State) (slot : Fin 16) (p : Plan) : Prop :=
  (∀ e x, p.entries.get e = some x → EntryReady s p e x) ∧ kindOf s p.guide = some .guide ∧
  (∀ t ∈ p.route, ∀ e i, t.fallback.get e = some i → kindOf s i = some .track) ∧
  ∀ k q, k ≠ slot → ((s.tour k).live.phase = .live ∨ (s.tour k).live.phase = .closing) →
    (s.tour k).plan = some q → q.guide ≠ p.guide

/-- A fallback source is a loaded TRACK (R68). -/
def isTrack (s : State) (f : Option (Fin 48)) : Bool := f.all fun i => hasKind s i .track

/-- A slot does not run a tour with this guide (R68). -/
def guideApart (s : State) (slot : Fin 16) (p : Plan) (k : Fin 16) : Bool :=
  decide (k = slot) || !isRunning (s.tour k) || (s.tour k).plan.all fun q => decide (q.guide ≠ p.guide)

theorem planReady_eq : planReady s slot p = ((planEntries p).all (fun x => entryReady s p x.1 x.2) &&
    hasKind s p.guide .guide && p.route.all (fun st => st.fallback.items.all (isTrack s)) &&
    (indices 16).all (guideApart s slot p)) := by
  unfold planReady
  congr 2
  · congr 1
    funext st
    congr 1
    funext f
    cases f <;> rfl
  · funext k
    unfold guideApart
    cases (s.tour k).plan <;> rfl

theorem isTrack_iff {f : Option (Fin 48)} : isTrack s f = true ↔ ∀ i, f = some i → kindOf s i = some .track := by
  cases f <;> simp [isTrack, hasKind_iff]

theorem guideApart_iff {k : Fin 16} : guideApart s slot p k = true ↔
    ∀ q, k ≠ slot → ((s.tour k).live.phase = .live ∨ (s.tour k).live.phase = .closing) →
      (s.tour k).plan = some q → q.guide ≠ p.guide := by
  have running : isRunning (s.tour k) = true ↔
      (s.tour k).live.phase = .live ∨ (s.tour k).live.phase = .closing := by simp [isRunning]
  rw [← running, guideApart]
  by_cases hk : k = slot
  · simp [hk]
  · cases isRunning (s.tour k) <;> cases (s.tour k).plan <;> simp [hk]

theorem planReady_iff : planReady s slot p = true ↔ PlanReady s slot p := by
  rw [planReady_eq, PlanReady]
  simp only [Bool.and_eq_true, and_assoc, List.all_eq_true, Tab.items_eq, List.mem_map, List.mem_finRange, true_and,
    forall_exists_index, forall_apply_eq_imp_iff, true_implies, Prod.forall, mem_planEntries_iff, hasKind_iff,
    isTrack_iff, guideApart_iff]
  refine ⟨fun ⟨entries, guide, rest⟩ => ⟨fun e x hx => ?_, guide, rest⟩,
    fun ⟨entries, guide, rest⟩ => ⟨fun e x hx => ?_, guide, rest⟩⟩
  · by_cases he : e = 0
    · subst he
      exact (entryReady_guide_iff guide).1 (entries _ x hx)
    · exact (entryReady_interpreter_iff he).1 (entries e x hx)
  · by_cases he : e = 0
    · subst he
      exact (entryReady_guide_iff guide).2 (entries _ x hx)
    · exact (entryReady_interpreter_iff he).2 (entries e x hx)

end Sys2Proof.Machine
end

section
/-! The reservations of a tour's start (R69 step 5, R70). -/

namespace Sys2Proof.Machine

open Sys2Proof

variable {s t u : State} {slot : Fin 16} {p : Plan} {e : Fin 4} {x : Entry}

/-! ### One reservation -/

/-- A DOCKED record taken for a run. -/
def TakenFor (slot : Fin 16) (run : BitVec 16) (x y : Option Receiver) : Prop :=
  ∃ r r', x = some r ∧ r.phase = .docked ∧ y = some r' ∧ r'.phase = .reserved ∧
    r'.tour.map (fun ref => (ref.slot, ref.run)) = some (slot, run)

/-- The live record with the numbers of answers added (R70). -/
def addedCounts (a : ReserveAnswer) (l : TourLive) : TourLive :=
  { l with reserved := l.reserved + a.reserved, short := l.short + a.short, unfilled := l.unfilled + a.unfilled }

/-- What reservations for a run change, with the sums of their answers (R70, R103, R104). -/
structure Asked (slot : Fin 16) (run : BitVec 16) (a : ReserveAnswer) (s t : State) : Prop where
  keeps : KeepsAllBut [.tours, .receivers, .bays] s t
  tour : t.tour slot = { s.tour slot with live := addedCounts a (s.tour slot).live }
  away : ∀ j, j ≠ slot → t.tour j = s.tour j
  receiver : ∀ h, t.receiver h = s.receiver h ∨ TakenFor slot run (s.receiver h) (t.receiver h)

theorem Asked.refl (slot : Fin 16) (run : BitVec 16) (s : State) : Asked slot run ⟨0, 0, 0⟩ s s :=
  ⟨.refl, rfl, fun _ _ => rfl, fun _ => .inl rfl⟩

/-- The sums of two answers. -/
def addAnswers (a b : ReserveAnswer) : ReserveAnswer :=
  ⟨a.reserved + b.reserved, a.short + b.short, a.unfilled + b.unfilled⟩

theorem Asked.trans {run : BitVec 16} {a b : ReserveAnswer} (h : Asked slot run a s t) (k : Asked slot run b t u) :
    Asked slot run (addAnswers a b) s u := by
  refine ⟨h.keeps.trans k.keeps, ?_, fun j hj => (k.away j hj).trans (h.away j hj), fun m => ?_⟩
  · rw [k.tour, h.tour]
    simp only [addedCounts, addAnswers, Nat.add_assoc]
  · rcases k.receiver m with same | ⟨r, r', hr, docked, rest⟩
    · rw [same]
      exact h.receiver m
    · rcases h.receiver m with same | ⟨q, q', -, -, hq', reserved, -⟩
      · exact .inr ⟨r, r', same ▸ hr, docked, rest⟩
      · have both : q' = r := Option.some.inj (hq'.symm.trans hr)
        rw [both, docked] at reserved
        cases reserved

theorem reserve_asked (q : Reservation) (s : State) : Asked q.slot q.run (reserve q s).1 s (reserve q s).2 := by
  have written := reservedAll_reserved q s
  have tours (m : Fin 16) : (reservedAll q s).tour m = s.tour m := written.keeps.tour_eq (by decide) m
  have counts : KeepsAllBut [.tours] (reservedAll q s) (reserve q s).2 := by
    rw [reserve_state]
    exact putLive_keeps .refl (by decide)
  refine ⟨(written.keeps.mono (by decide)).trans (counts.mono (by decide)), ?_, fun j hj => ?_, fun h => ?_⟩
  · rw [reserve_state, putLive_tour_self, tours]
    rfl
  · rw [reserve_state, putLive_tour_ne hj, tours]
  · rw [counts.receiver_eq (by decide)]
    by_cases hh : h ∈ takenBy q s
    · obtain ⟨r, l, a, hr, docked, -⟩ := pooled_of_mem hh
      right
      exact ⟨r, reservedReceiver q (ranksShort s q h) r, hr, docked, by rw [written.taken h hh, hr]; rfl, rfl, rfl⟩
    · exact .inl (written.others h hh)

/-- The numbers of a reservation (R103). -/
theorem reserve_numbers (q : Reservation) (s : State) :
    (reserve q s).1.reserved + (reserve q s).1.unfilled = q.count ∧
    (reserve q s).1.short ≤ (reserve q s).1.reserved := by
  rw [reserve_answer]
  have taken : (takenBy q s).length ≤ q.count := List.length_take_le _ _
  exact ⟨Nat.add_sub_cancel' taken, List.length_filter_le _ _⟩

/-! ### One reservation for each present entry -/

/-- The reservation of one entry at a start; nothing for an absent one (R69, log 14). -/
def askEntry (slot : Fin 16) (p : Plan) (e : Fin 4) (s : State) : ReserveAnswer × State :=
  match p.entries.get e with
  | none => (⟨0, 0, 0⟩, s)
  | some x => reserveFor slot e x.party s

/-- The state after the reservations of some entries. -/
def askEntries (slot : Fin 16) (p : Plan) (es : List (Fin 4)) (s : State) : State :=
  es.foldl (fun u e => (askEntry slot p e u).2) s

theorem askEntry_of_none (h : p.entries.get e = none) : askEntry slot p e s = (⟨0, 0, 0⟩, s) := by
  unfold askEntry
  rw [h]

theorem askEntry_of_some (h : p.entries.get e = some x) : askEntry slot p e s = reserveFor slot e x.party s := by
  unfold askEntry
  rw [h]

/-- The present entries among some, with their numbers. -/
def presentEntries (p : Plan) (es : List (Fin 4)) : List (Fin 4 × Entry) :=
  es.filterMap fun e => (p.entries.get e).map fun x => (e, x)

theorem presentEntries_cons_none {es : List (Fin 4)} (h : p.entries.get e = none) :
    presentEntries p (e :: es) = presentEntries p es := by
  rw [presentEntries, List.filterMap_cons, h]
  rfl

theorem presentEntries_cons_some {es : List (Fin 4)} (h : p.entries.get e = some x) :
    presentEntries p (e :: es) = (e, x) :: presentEntries p es := by
  rw [presentEntries, List.filterMap_cons, h]
  rfl

theorem reserveParties_state (es : List (Fin 4)) (s : State) :
    (reserveParties slot (presentEntries p es) s).2 = askEntries slot p es s := by
  induction es generalizing s with
  | nil => rfl
  | cons e es ih =>
    show _ = askEntries slot p es (askEntry slot p e s).2
    cases h : p.entries.get e with
    | none => rw [presentEntries_cons_none h, askEntry_of_none h, ih]
    | some x =>
      rw [presentEntries_cons_some h, askEntry_of_some h, ← ih]
      rfl

theorem answerOf_cons_self (a : ReserveAnswer) (rs : List (Fin 4 × ReserveAnswer)) : answerOf ((e, a) :: rs) e = a := by
  simp [answerOf]

theorem answerOf_cons_ne {f : Fin 4} (h : f ≠ e) (a : ReserveAnswer) (rs : List (Fin 4 × ReserveAnswer)) :
    answerOf ((f, a) :: rs) e = answerOf rs e := by
  simp [answerOf, h]

theorem answerOf_parties_absent {es : List (Fin 4)} (h : e ∉ es) (s : State) :
    answerOf (reserveParties slot (presentEntries p es) s).1 e = ⟨0, 0, 0⟩ := by
  induction es generalizing s with
  | nil => rfl
  | cons f es ih =>
    have hf : f ≠ e := fun eq => h (by simp [eq])
    have rest : e ∉ es := fun hm => h (List.mem_cons_of_mem _ hm)
    cases hx : p.entries.get f with
    | none =>
      rw [presentEntries_cons_none hx]
      exact ih rest s
    | some x =>
      rw [presentEntries_cons_some hx]
      exact (answerOf_cons_ne hf _ _).trans (ih rest _)

theorem answerOf_parties {pre post : List (Fin 4)} (before : e ∉ pre) (after : e ∉ post) (s : State) :
    answerOf (reserveParties slot (presentEntries p (pre ++ e :: post)) s).1 e =
      (askEntry slot p e (askEntries slot p pre s)).1 := by
  induction pre generalizing s with
  | nil =>
    show answerOf (reserveParties slot (presentEntries p (e :: post)) s).1 e = (askEntry slot p e s).1
    cases hx : p.entries.get e with
    | none =>
      rw [presentEntries_cons_none hx, askEntry_of_none hx]
      exact answerOf_parties_absent after s
    | some x =>
      rw [presentEntries_cons_some hx, askEntry_of_some hx]
      exact answerOf_cons_self _ _
  | cons f pre ih =>
    have hf : f ≠ e := fun eq => before (by simp [eq])
    have rest : e ∉ pre := fun hm => before (List.mem_cons_of_mem _ hm)
    show answerOf (reserveParties slot (presentEntries p (f :: (pre ++ e :: post))) s).1 e =
      (askEntry slot p e (askEntries slot p pre (askEntry slot p f s).2)).1
    cases hx : p.entries.get f with
    | none =>
      rw [presentEntries_cons_none hx, askEntry_of_none hx]
      exact ih rest s
    | some x =>
      rw [presentEntries_cons_some hx, askEntry_of_some hx]
      exact (answerOf_cons_ne hf _ _).trans (ih rest _)

/-! ### The four requests of a start -/

/-- The state before the request of entry `n`, counted from 0 (R69 step 5). -/
def askedBefore (slot : Fin 16) (p : Plan) (s : State) (n : Fin 5) : State :=
  askEntries slot p ((indices 4).take n.val) s

theorem askedBefore_zero (s : State) : askedBefore slot p s 0 = s := rfl

theorem askedBefore_succ (e : Fin 4) (s : State) :
    askedBefore slot p s e.succ = (askEntry slot p e (askedBefore slot p s e.castSucc)).2 := by
  have take : (indices 4).take (e.val + 1) = (indices 4).take e.val ++ [e] := by
    revert e
    decide
  show askEntries slot p ((indices 4).take (e.val + 1)) s = _
  rw [take, askEntries, List.foldl_append]
  rfl

/-- The answers of a start, by entry (log 14). -/
def startAnswer (slot : Fin 16) (p : Plan) (s : State) (e : Fin 4) : ReserveAnswer :=
  (askEntry slot p e (askedBefore slot p s e.castSucc)).1

theorem parties_answer (e : Fin 4) (s : State) :
    answerOf (reserveParties slot (planEntries p) s).1 e = startAnswer slot p s e := by
  obtain ⟨split, before, after⟩ := entries_split e
  have nodup : e ∉ (indices 4).drop (e.val + 1) := by
    revert e
    decide
  have eq := answerOf_parties (slot := slot) (p := p) (fun hm => absurd (before e hm) (lt_irrefl e)) nodup s
  rw [← split] at eq
  exact eq

theorem parties_state (s : State) : (reserveParties slot (planEntries p) s).2 = askedBefore slot p s 4 :=
  reserveParties_state (indices 4) s

/-- The answers of a start, one for each entry. -/
def startAnswers (slot : Fin 16) (p : Plan) (s : State) : Tab ReserveAnswer 4 := Tab.ofFn (startAnswer slot p s)

/-- A tour as its start leaves it: its plan, and a channel for each present entry. -/
structure Asking (slot : Fin 16) (p : Plan) (s : State) : Prop where
  plan : (s.tour slot).plan = some p
  bound : ∀ e x, p.entries.get e = some x → ∃ c, (s.tour slot).live.channels.get e = some c

theorem Asking.step {run : BitVec 16} {a : ReserveAnswer} (h : Asking slot p s) (k : Asked slot run a s t) :
    Asking slot p t := ⟨by rw [k.tour]; exact h.plan, fun e x hx => by rw [k.tour]; exact h.bound e x hx⟩

/-- The request of a present entry (R70). -/
theorem askEntry_eq {c : Fin 24} (h : Asking slot p s) (hx : p.entries.get e = some x)
    (hc : (s.tour slot).live.channels.get e = some c) : askEntry slot p e s =
      reserve { slot := slot, run := (s.tour slot).live.run, entry := e, channel := c, required := p.requiredLevel
                count := x.party } s := by
  rw [askEntry_of_some hx, reserveFor, hc, h.plan]
  rfl

theorem askEntry_asked (e : Fin 4) (h : Asking slot p s) :
    Asked slot (s.tour slot).live.run (askEntry slot p e s).1 s (askEntry slot p e s).2 := by
  cases hx : p.entries.get e with
  | none =>
    rw [askEntry_of_none hx]
    exact .refl slot _ s
  | some x =>
    obtain ⟨c, hc⟩ := h.bound e x hx
    rw [askEntry_eq h hx hc]
    exact reserve_asked { slot := slot, run := (s.tour slot).live.run, entry := e, channel := c
                          required := p.requiredLevel, count := x.party } s

/-- The sums of the answers of a start. -/
def totalAnswer (slot : Fin 16) (p : Plan) (s : State) : ReserveAnswer :=
  ⟨((startAnswers slot p s).items.map ReserveAnswer.reserved).sum,
    ((startAnswers slot p s).items.map ReserveAnswer.short).sum,
    ((startAnswers slot p s).items.map ReserveAnswer.unfilled).sum⟩

theorem startAnswers_map (f : ReserveAnswer → Nat) (s : State) : ((startAnswers slot p s).items.map f).sum =
    f (startAnswer slot p s 0) + f (startAnswer slot p s 1) + f (startAnswer slot p s 2) + f (startAnswer slot p s 3) := by
  simp [startAnswers, Tab.items_eq, List.finRange_succ, Tab.get_ofFn, Nat.add_assoc]

/-- The four requests together. -/
theorem askedBefore_asked (h : Asking slot p s) :
    Asked slot (s.tour slot).live.run (totalAnswer slot p s) s (askedBefore slot p s 4) ∧
    ∀ n, Asking slot p (askedBefore slot p s n) ∧
      (askedBefore slot p s n).tour slot = { s.tour slot with
        live := { (s.tour slot).live with
          reserved := ((askedBefore slot p s n).tour slot).live.reserved
          short := ((askedBefore slot p s n).tour slot).live.short
          unfilled := ((askedBefore slot p s n).tour slot).live.unfilled } } := by
  have next {a : ReserveAnswer} (e : Fin 4)
      (k : Asked slot (s.tour slot).live.run a s (askedBefore slot p s e.castSucc)) :
      Asked slot (s.tour slot).live.run (addAnswers a (startAnswer slot p s e)) s (askedBefore slot p s e.succ) := by
    have run : ((askedBefore slot p s e.castSucc).tour slot).live.run = (s.tour slot).live.run := by rw [k.tour]; rfl
    have step := askEntry_asked e (h.step k)
    rw [run, ← askedBefore_succ] at step
    exact k.trans step
  have one := next 0 (Asked.refl slot _ s)
  have two := next 1 one
  have three := next 2 two
  have four := next 3 three
  have whole {a : ReserveAnswer} {n : Fin 5} (k : Asked slot (s.tour slot).live.run a s (askedBefore slot p s n)) :
      Asking slot p (askedBefore slot p s n) ∧
      (askedBefore slot p s n).tour slot = { s.tour slot with
        live := { (s.tour slot).live with
          reserved := ((askedBefore slot p s n).tour slot).live.reserved
          short := ((askedBefore slot p s n).tour slot).live.short
          unfilled := ((askedBefore slot p s n).tour slot).live.unfilled } } :=
    ⟨h.step k, by rw [k.tour]; rfl⟩
  refine ⟨?_, fun n => ?_⟩
  · have total : totalAnswer slot p s = addAnswers (addAnswers (addAnswers (addAnswers ⟨0, 0, 0⟩
        (startAnswer slot p s 0)) (startAnswer slot p s 1)) (startAnswer slot p s 2)) (startAnswer slot p s 3) := by
      simp only [totalAnswer, startAnswers_map, addAnswers, Nat.zero_add]
    rw [total]
    exact four
  · match n with
    | 0 => exact whole (Asked.refl slot _ s)
    | 1 => exact whole one
    | 2 => exact whole two
    | 3 => exact whole three
    | 4 => exact whole four

end Sys2Proof.Machine
end

section
/-! What TOUR START answers and leaves: O35 (R49, R68 to R70). -/

namespace Sys2Proof.Machine

open Sys2Proof

variable {s t u : State} {slot : Fin 16} {p : Plan} {z : Fin 12} {e : Fin 4} {x : Entry}

/-! ### The reply (R69, log 14) -/

theorem layoutFrom_known (n pos : Nat) (bss : List (List Byte)) : layoutFrom n pos (bss.map .known) = bss.flatten := by
  induction bss generalizing pos with
  | nil => rfl
  | cons bs rest ih => rw [List.map_cons, layoutFrom, ih, List.flatten_cons]

/-- An optional channel number as a reply carries it. -/
def channelBytes (x : Option (Fin 24)) : List Byte :=
  match x with
  | some c => [1#8, BitVec.ofNat 8 c.val]
  | none => [0#8, 0xFF#8]

theorem startFields_layout (n : Nat) (l : TourLive) (rs : List (Fin 4 × ReserveAnswer)) (answers : Tab ReserveAnswer 4)
    (h : ∀ e, answerOf rs e = answers.get e) : layoutFrom n 0 (startFields l rs) =
    enc16 l.run.toNat ++ ((indices 4).map fun e => channelBytes (l.channels.get e)).flatten ++
      ((indices 4).map fun e => enc8 (answers.get e).reserved ++ enc8 (answers.get e).short ++
        enc8 (answers.get e).unfilled).flatten := by
  have ids (x : Option (Fin 24)) : optId x = [.known (channelBytes x)] := by cases x <;> rfl
  have known (xs : List (Option (Fin 24))) : (xs.map optId).flatten = (xs.map channelBytes).map .known := by
    induction xs with
    | nil => rfl
    | cons x xs ih => rw [List.map_cons, List.flatten_cons, ih, ids]; rfl
  have answered : ((indices 4).map fun e => answerBytes (answerOf rs e)) = (indices 4).map fun e =>
      enc8 (answers.get e).reserved ++ enc8 (answers.get e).short ++ enc8 (answers.get e).unfilled :=
    List.map_congr_left fun e _ => by rw [h]; rfl
  rw [startFields, known, answered, Tab.items_eq]
  have whole (a : List Byte) (bs : List (List Byte)) (c : List Byte) :
      [Field.known a] ++ bs.map .known ++ [.known c] = ([a] ++ bs ++ [c]).map .known := by simp
  rw [whole, layoutFrom_known]
  simp [Function.comp_def]

/-! ### The checks in order (R68, R49) -/

theorem tourStart_of_refused {a : List Byte} {status : Status} (hs : byteAt a 0 = slot.val)
    (h : startChecks s slot = .error status) : tourStart a s = refuse status s := by
  rw [tourStart, toId_val slot hs]
  dsimp only
  rw [h]

theorem tourStart_of_passed {a : List Byte} (hs : byteAt a 0 = slot.val) (h : startChecks s slot = .ok (p, z)) :
    tourStart a s = readAnswer
      (startFields ((startTour slot p z s).2.tour slot).live (startTour slot p z s).1) (startTour slot p z s).2 := by
  rw [tourStart, toId_val slot hs]
  dsimp only
  rw [h]

theorem startChecks_of_phase (h : (s.tour slot).live.phase ≠ .planned) : startChecks s slot = .error .wrongState := if_pos h

theorem startChecks_of_mode (h : (s.tour slot).live.phase = .planned) (hm : s.mge.mode ≠ .opened) :
    startChecks s slot = .error .hallClosed := by
  rw [startChecks, if_neg (not_not_intro h), if_pos hm]

theorem startChecks_of_plan {st : Stop} {rest : List Stop} (h : (s.tour slot).live.phase = .planned)
    (hm : s.mge.mode = .opened) (hp : (s.tour slot).plan = some p) (hr : p.route = st :: rest) :
    startChecks s slot =
      if !planReady s slot p then .error .badPlan
      else if (freeChannels s).length < (planEntries p).length then .error .noChannel
      else if freeSlots s st.zone < (planEntries p).length then .error .zoneFull
      else .ok (p, st.zone) := by
  rw [startChecks, if_neg (not_not_intro h), if_neg (not_not_intro hm), hp]
  dsimp only
  rw [hr]

/-! ### The state that a start leaves -/

/-- A start up to and with the rack sender's act: the tour bound, its reservations, its event. -/
structure StartSent (slot : Fin 16) (p : Plan) (z : Fin 12) (s u : State) : Prop where
  keeps : KeepsAllBut [.events, .egress, .choices, .bays, .sender] (askedBefore slot p (tourBound slot p z s) 4) u
  bay : ∀ b, ∃ q, u.bay b = { (askedBefore slot p (tourBound slot p z s) 4).bay b with pending := q }
  event : EventsTaken [⟨.tourStarted, s.mge.hubTime, slot.val, some (u.tour slot).live.run,
    (u.tour slot).live.reserved * 256 + (u.tour slot).live.unfilled⟩] s u

theorem startTour_eq : startTour slot p z s =
    let v := askedBefore slot p (tourBound slot p z s) 4
    ((reserveParties slot (planEntries p) (tourBound slot p z s)).1,
      raiseTour .tourStarted slot (detailPair (v.tour slot).live.reserved (v.tour slot).live.unfilled) v) := by
  dsimp only
  rw [← parties_state]
  rfl

/-- The tour bound asks for receivers by its plan. -/
theorem TourBound.asking (h : TourBound slot p z s t) (hp : (s.tour slot).plan = some p) : Asking slot p t :=
  ⟨by rw [h.tour]; exact hp, fun e x hx => by
    obtain ⟨c, -, hc, -⟩ := h.entry e x hx
    exact ⟨c, hc⟩⟩

theorem startTour_sent (hp : (s.tour slot).plan = some p) (room : (planEntries p).length ≤ (freeChannels s).length) :
    StartSent slot p z s (rackSender (startTour slot p z s).2.useChoice) := by
  have bound := tourBound_spec (s := s) slot z room
  have asked := (askedBefore_asked (bound.asking hp)).1
  rw [startTour_eq]
  dsimp only
  obtain ⟨v, hv⟩ : ∃ v, v = askedBefore slot p (tourBound slot p z s) 4 := ⟨_, rfl⟩
  rw [← hv] at asked ⊢
  have before : KeepsAllBut [.zones, .tours, .programs, .receivers, .bays] s v :=
    (bound.keeps.mono (by decide)).trans (asked.keeps.mono (by decide))
  obtain ⟨d, hd⟩ : ∃ d, d = detailPair (v.tour slot).live.reserved (v.tour slot).live.unfilled := ⟨_, rfl⟩
  rw [← hd]
  have raised : KeepsAllBut [.events, .egress, .choices] v (raiseTour .tourStarted slot d v).useChoice :=
    useChoice_keeps (raiseTour_keeps .refl (by decide) (by decide)) (by decide)
  have sent := rackSender_keepsParts (raiseTour .tourStarted slot d v).useChoice
  have keeps : KeepsAllBut [.events, .egress, .choices, .bays, .sender] v
      (rackSender (raiseTour .tourStarted slot d v).useChoice) := (raised.mono (by decide)).trans (sent.mono (by decide))
  refine ⟨hv ▸ keeps, fun b => ?_, ?_⟩
  · obtain ⟨q, hq⟩ := rackSender_bay (raiseTour .tourStarted slot d v).useChoice b
    exact ⟨q, by rw [hq, raised.bay_eq (by decide) b, ← hv]⟩
  · rw [keeps.tour_eq (by decide) slot]
    have time : v.mge.hubTime = s.mge.hubTime := before .hubTime (by decide)
    have evq : v.evq = s.evq := before.evq_eq (by decide)
    have event : EventsTaken [⟨.tourStarted, s.mge.hubTime, slot.val, some (v.tour slot).live.run, d⟩] s
        (raiseTour .tourStarted slot d v) := .raise_of_evq evq time
    have detail : (v.tour slot).live.reserved * 256 + (v.tour slot).live.unfilled = d := hd.symm
    rw [detail]
    exact event.to_evq (sent.evq_eq (by decide))

end Sys2Proof.Machine
end

section
/-! O35: TOUR START binds, sets the live record and reserves (R49, R68 to R70). -/

namespace Sys2Proof.Machine

open Sys2Proof

variable {s t u : State} {slot : Fin 16} {p : Plan} {z : Fin 12} {e : Fin 4} {x : Entry}

/-! ### The tour started -/

/-- The live record of the tour started: as bound, with the sums of the answers (R69, R70). -/
theorem StartSent.live (h : StartSent slot p z s u) (hp : (s.tour slot).plan = some p)
    (room : (planEntries p).length ≤ (freeChannels s).length) : ∃ channels,
      u.tour slot = { s.tour slot with
        live := addedCounts (totalAnswer slot p (tourBound slot p z s)) (boundLive s slot p z channels) } ∧
      channels = ((tourBound slot p z s).tour slot).live.channels := by
  have bound := tourBound_spec (s := s) slot z room
  have asked := (askedBefore_asked (bound.asking hp)).1
  refine ⟨_, ?_, rfl⟩
  rw [h.keeps.tour_eq (by decide), asked.tour]
  conv_lhs => rw [bound.tour]

/-- What a start leaves of everything but the tour's own live record and the answers of its requests. -/
structure TourStarted (slot : Fin 16) (p : Plan) (z : Fin 12) (s u : State) : Prop where
  away : ∀ j, j ≠ slot → u.tour j = s.tour j
  channelAway : ∀ c, c ∉ (freeChannels s).take (planEntries p).length → u.channel c = s.channel c
  zone : ∀ y, u.zone y =
    if y = z then { s.zone y with carried := (s.zone y).carried + (planEntries p).length } else s.zone y
  programAway : ∀ q, (∀ e x, p.entries.get e = some x → x.program ≠ q) → u.program q = s.program q
  receiver : ∀ h, u.receiver h = s.receiver h ∨
    TakenFor slot ((s.tour slot).live.run + 1) (s.receiver h) (u.receiver h)
  entry : ∀ e x, p.entries.get e = some x → ∃ c, (freeChannels s)[presentBefore p e]? = some c ∧
    (u.tour slot).live.channels.get e = some c ∧
    u.channel c = ⟨.tour, some x.program, zoneBit z, (s.channel c).seq⟩ ∧
    (ProgramsApart p → u.program x.program = ownedProgram slot ((e, x), c) s)
  absent : ∀ e, p.entries.get e = none → (u.tour slot).live.channels.get e = (s.tour slot).live.channels.get e
  keeps : KeepsAllBut [.zones, .tours, .programs, .receivers, .events, .choices, .bays, .sender, .egress] s u

theorem StartSent.started (h : StartSent slot p z s u) (placed : ZonesPlaced s) (hp : (s.tour slot).plan = some p)
    (room : (planEntries p).length ≤ (freeChannels s).length) : TourStarted slot p z s u := by
  have bound := tourBound_spec (s := s) slot z room
  have asked := (askedBefore_asked (bound.asking hp)).1
  obtain ⟨b, hb⟩ : ∃ b, b = tourBound slot p z s := ⟨_, rfl⟩
  have keeps := h.keeps
  rw [← hb] at bound asked keeps
  obtain ⟨v, hv⟩ : ∃ v, v = askedBefore slot p b 4 := ⟨_, rfl⟩
  rw [← hv] at asked keeps
  have after : KeepsAllBut [.tours, .receivers, .bays, .events, .egress, .choices, .sender] b u :=
    (asked.keeps.mono (by decide)).trans (keeps.mono (by decide))
  have channel (c : Fin 24) : u.channel c = b.channel c := after.channel_eq (by decide) c
  have program (q : Fin 32) : u.program q = b.program q := after.program_eq (by decide) q
  have tour (j : Fin 16) : u.tour j = v.tour j := keeps.tour_eq (by decide) j
  have channels : (u.tour slot).live.channels = (b.tour slot).live.channels := by
    rw [tour, asked.tour]
    rfl
  have run : (b.tour slot).live.run = (s.tour slot).live.run + 1 := by
    rw [bound.tour]
    rfl
  refine ⟨fun j hj => ?_, fun c hc => ?_, fun y => ?_, fun q hq => ?_, fun m => ?_, fun e x hx => ?_, fun e he => ?_,
    (bound.keeps.mono (by decide)).trans (after.mono (by decide))⟩
  · rw [tour, asked.away j hj, bound.away j hj]
  · rw [channel, bound.channelAway c hc]
  · have carried := bound.carried placed.1 (fun c hc => (placed.2.2.2.1 c hc).2) y
    rw [inSet, zoneBit_getLsbD] at carried
    rw [after.zone_eq (by decide) y]
    by_cases hy : y = z
    · rw [if_pos hy]
      exact zone_ext (by simpa [hy] using carried) (bound.queue y)
    · rw [if_neg hy]
      exact zone_ext (by simpa [Ne.symm hy] using carried) (bound.queue y)
  · rw [program, bound.programAway q hq]
  · have receiver := asked.receiver m
    rw [bound.keeps.receiver_eq (by decide) m, run] at receiver
    rw [keeps.receiver_eq (by decide) m]
    exact receiver
  · obtain ⟨c, before, get, value, owned⟩ := bound.entry e x hx
    exact ⟨c, before, by rw [channels, get], by rw [channel, value], fun apart => by rw [program, owned apart]⟩
  · rw [channels, bound.absent e he]

/-- The answers of a start: the reservation of each present entry, nothing of an absent one (R69, R70, R103). -/
theorem startAnswer_numbers (h : Asking slot p t) (e : Fin 4) :
    (p.entries.get e = none → startAnswer slot p t e = ⟨0, 0, 0⟩) ∧
    (∀ x, p.entries.get e = some x →
      (startAnswer slot p t e).reserved + (startAnswer slot p t e).unfilled = x.party ∧
      (startAnswer slot p t e).short ≤ (startAnswer slot p t e).reserved) := by
  have asking := ((askedBefore_asked h).2 e.castSucc).1
  refine ⟨fun he => by rw [startAnswer, askEntry_of_none he], fun x hx => ?_⟩
  obtain ⟨c, hc⟩ := asking.bound e x hx
  rw [startAnswer, askEntry_eq asking hx hc]
  exact reserve_numbers _ _

/-- The requests of a start, one after the other, for the receivers and bays that it leaves. -/
theorem StartSent.requests (h : StartSent slot p z s u) (hp : (s.tour slot).plan = some p)
    (room : (planEntries p).length ≤ (freeChannels s).length) : ∃ at_ : Fin 5 → State,
      KeepsAllBut [.zones, .tours, .programs] s (at_ 0) ∧
      (∀ e : Fin 4, (p.entries.get e = none → at_ e.succ = at_ e.castSucc) ∧
        ∀ x c, p.entries.get e = some x → (u.tour slot).live.channels.get e = some c →
          reserve { slot := slot, run := (s.tour slot).live.run + 1#16, entry := e, channel := c
                    required := p.requiredLevel, count := x.party } (at_ e.castSucc) =
            ((startAnswers slot p (tourBound slot p z s)).get e, at_ e.succ)) ∧
      (∀ m, u.receiver m = (at_ 4).receiver m) ∧
      (∀ b, u.bay b = { (at_ 4).bay b with pending := (u.bay b).pending }) ∧
      (u.tour slot).live = ((at_ 4).tour slot).live := by
  have bound := tourBound_spec (s := s) slot z room
  have asking := bound.asking hp
  obtain ⟨channels, live, hch⟩ := h.live hp room
  refine ⟨askedBefore slot p (tourBound slot p z s), bound.keeps, fun e => ⟨fun he => ?_, fun x c hx hc => ?_⟩,
    fun m => h.keeps.receiver_eq (by decide) m, fun b => ?_, by rw [h.keeps.tour_eq (by decide)]⟩
  · rw [askedBefore_succ, askEntry_of_none he]
  · obtain ⟨here, tour⟩ := (askedBefore_asked asking).2 e.castSucc
    have run : ((askedBefore slot p (tourBound slot p z s) e.castSucc).tour slot).live.run =
        (s.tour slot).live.run + 1#16 := by
      rw [tour]
      show ((tourBound slot p z s).tour slot).live.run = _
      rw [bound.tour]
      rfl
    have get : ((askedBefore slot p (tourBound slot p z s) e.castSucc).tour slot).live.channels.get e = some c := by
      rw [tour]
      rw [live] at hc
      show ((tourBound slot p z s).tour slot).live.channels.get e = some c
      rw [← hch]
      exact hc
    have asked := askEntry_eq here hx get
    rw [run] at asked
    rw [← asked, startAnswers, Tab.get_ofFn, startAnswer, askedBefore_succ]
  · obtain ⟨q, hq⟩ := h.bay b
    rw [hq]

/-! ### TOUR START -/

/-- The data of a TOUR START reply (R69, log 14). -/
def startData (l : TourLive) (answers : Tab ReserveAnswer 4) : List Byte :=
  enc16 l.run.toNat ++ ((indices 4).map fun e => channelBytes (l.channels.get e)).flatten ++
    ((indices 4).map fun e => enc8 (answers.get e).reserved ++ enc8 (answers.get e).short ++
      enc8 (answers.get e).unfilled).flatten

theorem exec_tourStart {req : Request} {y : Answer} (h : Serving s 0x1C req) (hy : tourStart (requestArgs req) s = y) :
    exec .tourStart s = .next (offerReply (replyTo req y.status y.data) (rackSender y.state)) :=
  exec_servingRacks (by rfl) h hy

/-- A start that passes its checks: the reply and the state (R69). -/
theorem exec_tourStart_passed {req : Request} (h : Serving s 0x1C req) (hs : byteAt (requestArgs req) 0 = slot.val)
    (checks : startChecks s slot = .ok (p, z)) (hp : (s.tour slot).plan = some p)
    (room : (planEntries p).length ≤ (freeChannels s).length) : ∃ u, StartSent slot p z s u ∧
      exec .tourStart s = .next (offerReply (replyTo req .done
        (startData (u.tour slot).live (startAnswers slot p (tourBound slot p z s)))) u) := by
  have sent := startTour_sent (s := s) (z := z) hp room
  refine ⟨_, sent, ?_⟩
  have run := exec_tourStart h (tourStart_of_passed hs checks)
  have live : ((rackSender (startTour slot p z s).2.useChoice).tour slot).live = ((startTour slot p z s).2.tour slot).live :=
    congrArg Tour.live ((rackSender_keepsParts _).tour_eq (by decide) slot)
  rw [live]
  refine run.trans ?_
  have data := startFields_layout (startTour slot p z s).2.choices ((startTour slot p z s).2.tour slot).live
    (startTour slot p z s).1 (startAnswers slot p (tourBound slot p z s))
    fun e => (parties_answer e _).trans (Tab.get_ofFn _ e).symm
  exact congrArg (fun d => Host.Outcome.next (offerReply (replyTo req .done d)
    (rackSender (startTour slot p z s).2.useChoice))) data

/-- Settles O35: the checks in order, then the channels bound, the live record set and one reservation for each present
entry. -/
theorem tourStartBindsAndReserves : Obligations.TourStartBindsAndReserves := by
  unfold Obligations.TourStartBindsAndReserves
  intro s req serving placed a refused
  refine ⟨fun hbad => exec_tourStart serving (by rw [tourStart, toId_eq_none.2 hbad]), fun slot hs => ?_⟩
  intro old
  refine ⟨fun hp => exec_tourStart serving (tourStart_of_refused hs (startChecks_of_phase hp)),
    fun hp hm => exec_tourStart serving (tourStart_of_refused hs (startChecks_of_mode hp (by rw [hm]; decide))), ?_⟩
  intro planned mode p st rest plan route apart kind ready free before k
  have checks := startChecks_of_plan planned mode plan route
  have readyIff : planReady s slot p = true ↔ ready := planReady_iff
  have length : (planEntries p).length = k := planEntries_length p
  have capacity := placed.2.1 st.zone
  have slots : freeSlots s st.zone < (planEntries p).length ↔ 8 < (s.zone st.zone).carried + k := by
    have eight : Config.zoneCapacity = 8 := rfl
    rw [eight] at capacity
    rw [freeSlots, eight, length]
    omega
  refine ⟨fun hr => ?_, fun hr hc => ?_, fun hr hc hz => ?_, fun hr hc hz => ?_⟩
  · have bad : planReady s slot p = false := Bool.eq_false_iff.2 (mt readyIff.1 hr)
    exact exec_tourStart serving (tourStart_of_refused hs (checks.trans (by rw [bad]; rfl)))
  · rw [readyIff.2 hr, if_neg (by decide), if_pos (by rw [length]; exact hc)] at checks
    exact exec_tourStart serving (tourStart_of_refused hs checks)
  · rw [readyIff.2 hr, if_neg (by decide), if_neg (by rw [length]; exact Nat.not_lt.2 hc), if_pos (slots.2 hz)] at checks
    exact exec_tourStart serving (tourStart_of_refused hs checks)
  · rw [readyIff.2 hr, if_neg (by decide), if_neg (by rw [length]; exact Nat.not_lt.2 hc),
      if_neg (mt slots.1 (Nat.not_lt.2 hz))] at checks
    have room : (planEntries p).length ≤ (freeChannels s).length := by rw [length]; exact hc
    have idle : isRunning (s.tour slot) = false := by
      have : (s.tour slot).live.phase = .planned := planned
      simp [isRunning, this]
    have bare := ((placed.2.2.1 slot).2.2.2.2 idle).1
    have asking := (tourBound_spec (s := s) slot st.zone room).asking plan
    obtain ⟨u, sent, run⟩ := exec_tourStart_passed serving hs checks plan room
    have started := sent.started placed plan room
    have requests := sent.requests plan room
    obtain ⟨channels, tour, -⟩ := sent.live plan room
    have event := sent.event
    obtain ⟨answers, ha⟩ : ∃ answers, answers = startAnswers slot p (tourBound slot p st.zone s) := ⟨_, rfl⟩
    have numbers (e : Fin 4) : answers.get e = startAnswer slot p (tourBound slot p st.zone s) e := by
      rw [ha]
      exact Tab.get_ofFn _ e
    have total : totalAnswer slot p (tourBound slot p st.zone s) = ⟨(answers.items.map ReserveAnswer.reserved).sum,
        (answers.items.map ReserveAnswer.short).sum, (answers.items.map ReserveAnswer.unfilled).sum⟩ := by
      rw [ha]
      rfl
    rw [← ha] at run requests
    rw [total] at tour
    have live : (u.tour slot).live = addedCounts ⟨(answers.items.map ReserveAnswer.reserved).sum,
        (answers.items.map ReserveAnswer.short).sum, (answers.items.map ReserveAnswer.unfilled).sum⟩
        (boundLive s slot p st.zone channels) := congrArg Tour.live tour
    have asked (e : Fin 4) : (u.tour slot).live.asked.get e = ((p.entries.get e).map Entry.party).getD 0 := by
      rw [live]
      exact Tab.get_ofFn _ e
    refine ⟨u, _, answers, run, ⟨rfl, fun e he => ⟨?_, ?_, ?_⟩, fun e x hx => ⟨?_, ?_, ?_, ?_⟩, ?_, event⟩,
      by rw [tour]; exact plan, by rw [tour], started.away, fun c hc => started.channelAway c (by rw [length]; exact hc),
      fun y => by rw [started.zone, length], started.programAway, fun h => ?_, requests, started.keeps⟩
    · rw [numbers, (startAnswer_numbers asking e).1 he]
    · rw [started.absent e he, bare e]
    · rw [asked, he]
      rfl
    · rw [asked, hx]
      rfl
    · rw [numbers]
      exact ((startAnswer_numbers asking e).2 x hx).1
    · rw [numbers]
      exact ((startAnswer_numbers asking e).2 x hx).2
    · obtain ⟨c, beforeE, get, value, owned⟩ := started.entry e x hx
      refine ⟨c, beforeE, get, value, ?_⟩
      rw [owned apart, ownedProgram, boundProgram, mode]
      rfl
    · rw [live]
      exact ⟨rfl, rfl, rfl, rfl, rfl, rfl, rfl, rfl, rfl, rfl, rfl, rfl, rfl, rfl, Nat.zero_add _, Nat.zero_add _,
        Nat.zero_add _⟩
    · exact started.receiver h

end Sys2Proof.Machine
end

section
/-! Steps that leave every tour where it is, and placed tours through waits, grants and marks (R51 to R58, R72 to R75). -/

namespace Sys2Proof.Machine

open Sys2Proof

variable {s t u : State} {slot : Fin 16} {z : Fin 12}

/-! ### Steps that leave every tour where it is -/

/-- What the placement of a tour reads of its live record. -/
structure SamePlace (l m : TourLive) : Prop where
  running : (m.phase = .live ∨ m.phase = .closing) ↔ (l.phase = .live ∨ l.phase = .closing)
  channels : m.channels = l.channels
  zone : m.zone = l.zone
  prevZone : m.prevZone = l.prevZone
  target : m.target = l.target

theorem SamePlace.refl (l : TourLive) : SamePlace l l := ⟨Iff.rfl, rfl, rfl, rfl, rfl⟩

theorem SamePlace.trans {l m n : TourLive} (h : SamePlace l m) (k : SamePlace m n) : SamePlace l n :=
  ⟨k.running.trans h.running, k.channels.trans h.channels, k.zone.trans h.zone, k.prevZone.trans h.prevZone,
    k.target.trans h.target⟩

/-- Every tour stands where it stood: its place, the channels and the zones are the same. -/
structure SamePlaces (s t : State) : Prop where
  tour : ∀ k, SamePlace (s.tour k).live (t.tour k).live
  channel : ∀ c, (t.channel c).phase = (s.channel c).phase ∧ (t.channel c).program = (s.channel c).program ∧
    (t.channel c).zones = (s.channel c).zones
  zone : ∀ z, t.zone z = s.zone z

theorem SamePlaces.refl (s : State) : SamePlaces s s := ⟨fun _ => .refl _, fun _ => ⟨rfl, rfl, rfl⟩, fun _ => rfl⟩

theorem SamePlaces.trans (h : SamePlaces s t) (k : SamePlaces t u) : SamePlaces s u := by
  refine ⟨fun j => (h.tour j).trans (k.tour j), fun c => ?_, fun z => (k.zone z).trans (h.zone z)⟩
  obtain ⟨p1, q1, r1⟩ := h.channel c
  obtain ⟨p2, q2, r2⟩ := k.channel c
  exact ⟨p2.trans p1, q2.trans q1, r2.trans r1⟩

theorem SamePlaces.of_keeps {ps : List Part} (h : KeepsAllBut ps s t) (ht : Part.tours ∉ ps) (hz : Part.zones ∉ ps) :
    SamePlaces s t :=
  ⟨fun j => by rw [h.tour_eq ht j]; exact .refl _, fun c => by rw [h.channel_eq hz c]; exact ⟨rfl, rfl, rfl⟩,
    fun z => h.zone_eq hz z⟩

theorem SamePlaces.putLive {x : TourLive} (h : SamePlace (s.tour slot).live x) : SamePlaces s (s.putLive slot x) := by
  refine ⟨fun j => ?_, fun _ => ⟨rfl, rfl, rfl⟩, fun _ => rfl⟩
  by_cases hj : j = slot
  · rw [hj, putLive_tour_self]
    exact h
  · rw [putLive_tour_ne hj]
    exact .refl _

theorem SamePlaces.event (k : EventKind) (n : Nat) (r : Option (BitVec 16)) (d : Nat) (s : State) :
    SamePlaces s (raiseEvent k n r d s) :=
  .of_keeps (raiseEvent_keeps (ps := eventParts) .refl (by decide) (by decide)) (by decide) (by decide)

theorem SamePlaces.isRunning (h : SamePlaces s t) (k : Fin 16) : isRunning (t.tour k) = isRunning (s.tour k) := by
  rw [Bool.eq_iff_iff, isRunning_iff, isRunning_iff]
  exact (h.tour k).running

/-- Tours stay placed where every tour stands where it stood. -/
theorem ZonesPlaced.of_same (h : ZonesPlaced s) (same : SamePlaces s t) : ZonesPlaced t := by
  obtain ⟨counted, capacity, tours, frees, queues⟩ := h
  refine ⟨zonesCounted_congr (fun z => by rw [same.zone]) (fun c => (same.channel c).2.2) counted,
    fun z => by rw [same.zone]; exact capacity z, fun k => ?_, fun c hc => ?_, fun z w hw => ?_⟩
  · obtain ⟨-, channels, zone, prevZone, target⟩ := same.tour k
    obtain ⟨chs, rest⟩ := tours k
    unfold TourPlaced
    dsimp only
    rw [same.isRunning, channels, zone, prevZone, target]
    refine ⟨fun e c he => ?_, rest⟩
    obtain ⟨phase, zoned, zones, alone⟩ := chs e c he
    obtain ⟨samePhase, -, sameZones⟩ := same.channel c
    rw [samePhase, sameZones]
    exact ⟨phase, zoned, zones, fun j f hf => alone j f (by rwa [(same.tour j).channels] at hf)⟩
  · obtain ⟨samePhase, sameProgram, sameZones⟩ := same.channel c
    rw [sameProgram, sameZones]
    exact frees c (samePhase.symm.trans hc)
  · rw [same.zone] at hw
    obtain ⟨waits, zoned, need⟩ := queues z w hw
    obtain ⟨-, channels, zone, -, target⟩ := same.tour w.slot
    rw [tourNeed, tourChannels, channels, target, zone]
    exact ⟨waits, zoned, need⟩

theorem ZonesPlaced.of_keeps {ps : List Part} (h : ZonesPlaced s) (k : KeepsAllBut ps s t) (ht : Part.tours ∉ ps)
    (hz : Part.zones ∉ ps) : ZonesPlaced t := h.of_same (.of_keeps k ht hz)

theorem ZonesPlaced.raiseTour (h : ZonesPlaced s) (k : EventKind) (j : Fin 16) (d : Nat) : ZonesPlaced (raiseTour k j d s) :=
  h.of_same (.event _ _ _ _ _)

/-- Docks, undocks and readings leave every tour where it is. -/
theorem samePlaces_bayWork : BayWorkClosed SamePlaces where
  refl := .refl
  trans := .trans
  flags s a _ _ _ := .of_keeps (putBay_keeps (ps := [.bays]) .refl (by decide)) (by decide) (by decide)
  turnSettle s a := .of_keeps (startTurnSettle_keeps (ps := [.bays]) .refl (by decide)) (by decide) (by decide)
  sched s r q _ := .of_keeps (putSched_keeps (ps := [.sched]) .refl (by decide)) (by decide) (by decide)
  countTurn s a := .of_keeps (countTurn_keeps (ps := [.receivers]) .refl (by decide)) (by decide) (by decide)
  bay s a x := .of_keeps (putBay_keeps (ps := [.bays]) .refl (by decide)) (by decide) (by decide)
  receiver s h x := .of_keeps (putReceiver_keeps (ps := [.receivers]) .refl (by decide)) (by decide) (by decide)
  issued s k := .putLive ⟨Iff.rfl, rfl, rfl, rfl, rfl⟩
  returned s k := .putLive ⟨Iff.rfl, rfl, rfl, rfl, rfl⟩
  fleet s x _ := ⟨fun _ => .refl _, fun _ => ⟨rfl, rfl, rfl⟩, fun _ => rfl⟩
  event s k n r d := .event k n r d s

/-! ### A tour that runs nowhere -/

/-- The record of a slot that does not run is replaced by one that does not run and holds nothing. -/
theorem ZonesPlaced.putIdle {x : Tour} (h : ZonesPlaced s) (old : isRunning (s.tour slot) = false)
    (new : isRunning x = false) (bare : (∀ e, x.live.channels.get e = none) ∧ x.live.target = none ∧ x.live.prevZone = none) :
    ZonesPlaced (s.putTour slot x) := by
  obtain ⟨counted, capacity, tours, frees, queues⟩ := h
  obtain ⟨channels, target, prevZone⟩ := bare
  have here : (s.putTour slot x).tour slot = x := State.putTour_tour_self s slot x
  have away (j : Fin 16) (hj : j ≠ slot) : (s.putTour slot x).tour j = s.tour j := by
    rw [State.putTour_tour, if_neg hj]
  refine ⟨counted, capacity, fun k => ?_, frees, fun z w hw => ?_⟩
  · by_cases hk : k = slot
    · subst hk
      unfold TourPlaced
      rw [here]
      exact ⟨fun e c he => by rw [channels] at he; (cases he), fun ht => by rw [target] at ht; (cases ht),
        fun hp => by rw [prevZone] at hp; (cases hp), fun hr => by rw [new] at hr; (cases hr),
        fun _ => ⟨channels, target, prevZone⟩⟩
    · obtain ⟨chs, rest⟩ := tours k
      unfold TourPlaced
      rw [away k hk]
      refine ⟨fun e c he => ?_, rest⟩
      obtain ⟨phase, zoned, zones, alone⟩ := chs e c he
      refine ⟨phase, zoned, zones, fun j f hf => alone j f ?_⟩
      by_cases hj : j = slot
      · rw [hj, here, channels] at hf
        cases hf
      · rwa [away j hj] at hf
  · obtain ⟨waits, zoned, need⟩ := queues z w hw
    have other : w.slot ≠ slot := fun e => by
      rw [e, ((tours slot).2.2.2.2 old).2.1] at waits
      cases waits
    rw [away _ other]
    exact ⟨waits, zoned, need⟩

/-! ### Waits -/

/-- A tour taken out of its queue is placed still (R56). -/
theorem ZonesPlaced.leaveQueue (h : ZonesPlaced s) (slot : Fin 16) : ZonesPlaced (leaveQueue slot s).1 := by
  have left := leaveQueue_spec slot s
  have counts := (Steady.leaveQueue (s := s) (t := s) (slot := slot) .refl).counted
  obtain ⟨t, ht⟩ : ∃ t, t = (Machine.leaveQueue slot s).1 := ⟨_, rfl⟩
  rw [← ht] at left counts ⊢
  obtain ⟨counted, capacity, tours, frees, queues⟩ := h
  have count := counts counted
  have load (z : Fin 12) : (t.zone z).carried = (s.zone z).carried := by
    rw [count z, counted z, zoneLoad, zoneLoad, left.channel]
  have channels (j : Fin 16) (e : Fin 4) : (t.tour j).live.channels.get e = (s.tour j).live.channels.get e := by
    by_cases hj : j = slot
    · rw [hj, left.tour]
    · rw [left.away j hj]
  refine ⟨count, fun z => by rw [load]; exact capacity z, fun k => ?_, fun c hc => ?_, fun z w hw => ?_⟩
  · by_cases hk : k = slot
    · subst hk
      obtain ⟨chs, waits, window, running, idle⟩ := tours k
      unfold TourPlaced
      rw [left.tour, left.channel]
      refine ⟨fun e c he => ?_, nofun, window, running, fun hr => ?_⟩
      · obtain ⟨phase, zoned, zones, alone⟩ := chs e c he
        exact ⟨phase, zoned, zones, fun j f hf => alone j f ((channels j f).symm.trans hf)⟩
      · obtain ⟨none, -, prev⟩ := idle hr
        exact ⟨none, rfl, prev⟩
    · exact (tours k).congr (left.away k hk) channels fun c _ => by rw [left.channel]; exact ⟨rfl, rfl⟩
  · rw [left.channel] at hc ⊢
    exact frees c hc
  · obtain ⟨old, gone⟩ := left.queue z w hw
    obtain ⟨waits, zoned, need⟩ := queues z w old
    have other : w.slot ≠ slot := fun e => by
      rw [e] at waits
      exact gone waits e
    rw [left.away _ other]
    exact ⟨waits, zoned, need⟩

/-- A tour that waits for a zone is placed (R53). -/
theorem ZonesPlaced.joinQueue (h : ZonesPlaced s) (zoned : (s.tour slot).live.zone.isSome = true)
    (apart : (s.tour slot).live.zone ≠ some z) (closed : (s.tour slot).live.prevZone = none)
    (running : isRunning (s.tour slot) = true) (idle : (s.tour slot).live.target = none) :
    ZonesPlaced (joinQueue slot z s) := by
  obtain ⟨t, ht⟩ : ∃ t, t = (s.putZone z { s.zone z with
      queue := (s.zone z).queue ++ [⟨slot, tourNeed (s.tour slot).live⟩] }).putLive slot
        { (s.tour slot).live with target := some z } := ⟨_, rfl⟩
  have eq : Machine.joinQueue slot z s = Machine.raiseTour .handoverWait slot z.val t := by
    rw [ht]
    rfl
  rw [eq]
  refine ZonesPlaced.raiseTour ?_ _ _ _
  have here : t.tour slot = { s.tour slot with live := { (s.tour slot).live with target := some z } } := by
    rw [ht, putLive_tour_self]
    rfl
  have away (j : Fin 16) (hj : j ≠ slot) : t.tour j = s.tour j := by
    rw [ht, putLive_tour_ne hj]
    rfl
  have channel : t.channel = s.channel := by rw [ht]; rfl
  have zone (y : Fin 12) : t.zone y = if y = z then { s.zone z with
      queue := (s.zone z).queue ++ [⟨slot, tourNeed (s.tour slot).live⟩] } else s.zone y := by
    rw [ht]
    exact State.putZone_zone s z y _
  have carried (y : Fin 12) : (t.zone y).carried = (s.zone y).carried := by
    rw [zone]
    split
    next e => rw [e]
    next => rfl
  have channels (j : Fin 16) (e : Fin 4) : (t.tour j).live.channels.get e = (s.tour j).live.channels.get e := by
    by_cases hj : j = slot
    · rw [hj, here]
    · rw [away j hj]
  obtain ⟨counted, capacity, tours, frees, queues⟩ := h
  refine ⟨zonesCounted_congr carried (fun c => by rw [channel]) counted, fun y => by rw [carried]; exact capacity y,
    fun k => ?_, fun c hc => by rw [channel] at hc ⊢; exact frees c hc, fun y w hw => ?_⟩
  · by_cases hk : k = slot
    · subst hk
      obtain ⟨chs, -, window, runs, -⟩ := tours k
      have stays : isRunning (t.tour k) = true := by
        rw [here]
        exact running
      unfold TourPlaced
      rw [stays]
      rw [here, channel]
      refine ⟨fun e c he => ?_, fun _ => ⟨closed, fun e => apart e.symm⟩, window, fun _ => runs running, nofun⟩
      obtain ⟨phase, zoned, zones, alone⟩ := chs e c he
      exact ⟨phase, zoned, zones, fun j f hf => alone j f ((channels j f).symm.trans hf)⟩
    · exact (tours k).congr (away k hk) channels fun c _ => by rw [channel]; exact ⟨rfl, rfl⟩
  · have known (hold : w ∈ (s.zone y).queue) : (t.tour w.slot).live.target = some y ∧
        (t.tour w.slot).live.zone.isSome = true ∧ tourNeed (t.tour w.slot).live ≤ w.need := by
      obtain ⟨waits, zonedW, need⟩ := queues y w hold
      have other : w.slot ≠ slot := fun e => by
        rw [e, idle] at waits
        cases waits
      rw [away _ other]
      exact ⟨waits, zonedW, need⟩
    rw [zone] at hw
    split at hw
    next hy =>
      rcases List.mem_append.1 hw with old | new
      · exact known (hy ▸ old)
      · obtain rfl := List.mem_singleton.1 new
        rw [here, hy]
        exact ⟨rfl, zoned, Nat.le_refl _⟩
    next => exact known hw

/-! ### A handover requested -/

/-- A tour that may ask for a zone other than its own: it runs, has no window open, and waits for that zone or none. -/
structure MayAsk (s : State) (slot : Fin 16) (z cur : Fin 12) : Prop where
  running : isRunning (s.tour slot) = true
  zone : (s.tour slot).live.zone = some cur
  apart : cur ≠ z
  closed : (s.tour slot).live.prevZone = none
  target : ∀ y, (s.tour slot).live.target = some y → y = z

theorem ZonesPlaced.requestHandover {cur : Fin 12} (h : ZonesPlaced s) (ask : MayAsk s slot z cur) :
    ZonesPlaced (requestHandover slot z s) := by
  unfold Machine.requestHandover
  dsimp only
  split
  next enter =>
    have fits : tourNeed (s.tour slot).live ≤ freeSlots s z := of_decide_eq_true (Bool.and_eq_true_iff.1 enter).2
    have capacity_ : Config.zoneCapacity = 8 := rfl
    have capacity := h.2.1 z
    rw [freeSlots, capacity_] at fits
    rw [capacity_] at capacity
    obtain ⟨granted, -⟩ := grant_spec (z := z) ask.zone
    exact (granted.placed h ⟨ask.running, ask.zone, ask.apart, ask.closed, ask.target, by omega⟩).serveZones _
  next =>
    split
    · exact h
    next other =>
      refine h.joinQueue (by rw [ask.zone]; rfl) (fun e => ask.apart ?_) ask.closed ask.running ?_
      · rw [ask.zone] at e
        exact Option.some.inj e
      · cases ht : (s.tour slot).live.target with
        | none => rfl
        | some y => exact absurd (by rw [ht, ask.target y ht]) other

end Sys2Proof.Machine
end

section
/-! Placed tours through the work of marks, of mix points and of closes (R50, R54, R72 to R78, R82 to R85). -/

namespace Sys2Proof.Machine

open Sys2Proof

variable {s t u : State} {slot : Fin 16} {z : Fin 12}

/-! ### The runs that a handover leaves as they are -/

/-- Every tour keeps its phase, its run and its channels. -/
def SameParties (s t : State) : Prop := ∀ k, (t.tour k).live.phase = (s.tour k).live.phase ∧
  (t.tour k).live.run = (s.tour k).live.run ∧ (t.tour k).live.channels = (s.tour k).live.channels

theorem SameParties.refl (s : State) : SameParties s s := fun _ => ⟨rfl, rfl, rfl⟩

theorem SameParties.trans (h : SameParties s t) (k : SameParties t u) : SameParties s u := fun j => by
  obtain ⟨p1, r1, c1⟩ := h j
  obtain ⟨p2, r2, c2⟩ := k j
  exact ⟨p2.trans p1, r2.trans r1, c2.trans c1⟩

theorem SameParties.of_tour (h : t.tour = s.tour) : SameParties s t := fun k => by rw [h]; exact ⟨rfl, rfl, rfl⟩

theorem SameParties.of_keeps {ps : List Part} (h : KeepsAllBut ps s t) (ht : Part.tours ∉ ps) : SameParties s t :=
  .of_tour (funext fun j => h.tour_eq ht j)

theorem SameParties.putLive {x : TourLive} (hp : x.phase = (s.tour slot).live.phase) (hr : x.run = (s.tour slot).live.run)
    (hc : x.channels = (s.tour slot).live.channels) : SameParties s (s.putLive slot x) := fun k => by
  by_cases hk : k = slot
  · rw [hk, putLive_tour_self]
    exact ⟨hp, hr, hc⟩
  · rw [putLive_tour_ne hk]
    exact ⟨rfl, rfl, rfl⟩

theorem SameParties.isRunning (h : SameParties s t) (k : Fin 16) : isRunning (t.tour k) = isRunning (s.tour k) := by
  rw [Machine.isRunning, Machine.isRunning, (h k).1]

theorem sameParties_handover (slot : Fin 16) : HandoverClosed SameParties slot where
  refl := .refl
  trans := .trans
  zones _ _ _ _ _ _ := .of_tour rfl
  queue _ _ _ := .of_tour rfl
  moved _ _ _ _ _ _ _ := .putLive rfl rfl rfl
  event s k n r d := .of_keeps (raiseEvent_keeps (ps := eventParts) .refl (by decide) (by decide)) (by decide)
  anyZones _ _ _ := .of_tour rfl
  waits _ _ _ _ := .putLive rfl rfl rfl

theorem SamePlaces.parties (h : SamePlaces s t) (hp : ∀ k, (t.tour k).live.phase = (s.tour k).live.phase)
    (hr : ∀ k, (t.tour k).live.run = (s.tour k).live.run) : SameParties s t :=
  fun k => ⟨hp k, hr k, (h.tour k).channels⟩

namespace HandoverClosed
variable {R : State → State → Prop}

theorem followSettled (h : HandoverClosed R slot) (s : State) : R s (followSettled slot s) := by
  unfold Machine.followSettled
  split
  · split
    exacts [h.refl s, h.requestHandover _ s]
  · exact h.refl s

theorem followWaiting (h : HandoverClosed R slot) (s : State) : R s (followWaiting slot s) := by
  unfold Machine.followWaiting
  split
  · split
    · exact h.requestHandover _ s
    split
    exacts [h.takeOut s, h.trans (h.takeOut s) (h.requestHandover _ _)]
  · exact h.refl s

theorem followStop (h : HandoverClosed R slot) (s : State) : R s (followStop slot s) := by
  unfold Machine.followStop
  split
  exacts [h.followSettled s, h.trans (h.cutWindow s) (h.followSettled _), h.followWaiting s]

end HandoverClosed

/-! ### Silence stages -/

theorem Silenced.places {stage timer : Nat} {fallback : FallbackState} (h : Silenced slot stage timer fallback s t) :
    SamePlaces s t := by
  refine ⟨fun k => ?_, fun c => by rw [h.keeps.channel_eq (by decide) c]; exact ⟨rfl, rfl, rfl⟩,
    fun z => h.keeps.zone_eq (by decide) z⟩
  by_cases hk : k = slot
  · rw [hk, h.tour]
    exact ⟨Iff.rfl, rfl, rfl, rfl, rfl⟩
  · rw [h.away hk]
    exact .refl _

theorem Silenced.parties {stage timer : Nat} {fallback : FallbackState} (h : Silenced slot stage timer fallback s t) :
    SameParties s t := fun k => by
  by_cases hk : k = slot
  · rw [hk, h.tour]
    exact ⟨rfl, rfl, rfl⟩
  · rw [h.away hk]
    exact ⟨rfl, rfl, rfl⟩

theorem writeFallback_same (slot : Fin 16) (s : State) :
    SamePlaces s (writeFallback slot s) ∧ SameParties s (writeFallback slot s) := by
  have unwritten (h : writeFallback slot s = s) :
      SamePlaces s (writeFallback slot s) ∧ SameParties s (writeFallback slot s) := by
    rw [h]
    exact ⟨.refl s, .refl s⟩
  cases hp : (s.tour slot).plan with
  | none => exact unwritten (by unfold writeFallback; rw [hp])
  | some p =>
    cases hs : p.route[(s.tour slot).live.stop]? with
    | none => exact unwritten (by unfold writeFallback; rw [hp]; dsimp only; rw [hs])
    | some stop =>
      have silenced := (writeFallback_spec hp hs).silenced
      exact ⟨silenced.places, silenced.parties⟩

theorem ZonesPlaced.tickSilence (h : ZonesPlaced s) (slot : Fin 16) : ZonesPlaced (tickSilence slot s) := by
  obtain ⟨stage, timer, fallback, silenced⟩ := tickSilence_silenced slot s
  exact h.of_same silenced.places

/-! ### Windows -/

theorem ZonesPlaced.dropPrevious (h : ZonesPlaced s) (slot : Fin 16) : ZonesPlaced (dropPrevious slot s) := by
  cases hp : (s.tour slot).live.prevZone with
  | none => rw [dropPrevious_of_none hp]; exact h
  | some p => exact (dropPrevious_spec hp).placed h hp

theorem ZonesPlaced.tickWindow (h : ZonesPlaced s) (slot : Fin 16) : ZonesPlaced (tickWindow slot s) := by
  have counted (w : Option Nat) : SamePlaces s (s.putLive slot { (s.tour slot).live with window := w }) :=
    .putLive ⟨Iff.rfl, rfl, rfl, rfl, rfl⟩
  unfold Machine.tickWindow
  dsimp only
  split
  · exact h
  split
  · exact ((h.of_same (counted _)).dropPrevious slot).serveZones _
  · exact h.of_same (counted _)

/-! ### Marks -/

/-- A SETTLED tour that runs asks for the zone of its stop. -/
theorem ZonesPlaced.followSettled (h : ZonesPlaced s) (running : isRunning (s.tour slot) = true)
    (closed : (s.tour slot).live.prevZone = none) (idle : (s.tour slot).live.target = none) :
    ZonesPlaced (followSettled slot s) := by
  unfold Machine.followSettled
  split
  next z cur _ hcur =>
    split
    · exact h
    next hne => exact h.requestHandover ⟨running, hcur, fun e => hne e.symm, closed, fun y hy => by rw [idle] at hy; cases hy⟩
  · exact h

/-- The tour taken out of its queue waits for nothing, and the service of that queue does not touch it. -/
theorem takeOut_settled (h : ZonesPlaced s) (slot : Fin 16) :
    (takeOut slot s).tour slot = { s.tour slot with live := { (s.tour slot).live with target := none } } := by
  have placed := h.leaveQueue slot
  have left := leaveQueue_spec slot s
  unfold takeOut
  dsimp only
  obtain ⟨t, ht⟩ : ∃ t, t = (leaveQueue slot s).1 := ⟨_, rfl⟩
  rw [← ht] at placed left ⊢
  have unqueued : ¬ Queued t slot := fun hq => by
    obtain ⟨z, w, hw, e⟩ := hq
    have waits := (placed.2.2.2.2 z w hw).1
    rw [e, left.tour] at waits
    cases waits
  exact ((serveZones_queues _ t).unqueued slot unqueued).trans left.tour

theorem ZonesPlaced.followWaiting (h : ZonesPlaced s) (running : isRunning (s.tour slot) = true)
    (waiting : (s.tour slot).live.target.isSome = true) : ZonesPlaced (followWaiting slot s) := by
  obtain ⟨-, waits, -, runs, -⟩ := h.2.2.1 slot
  obtain ⟨closed, apart⟩ := waits waiting
  obtain ⟨cur, hcur⟩ := Option.isSome_iff_exists.1 (runs running)
  have settled := takeOut_settled h slot
  have out : ZonesPlaced (takeOut slot s) := (h.leaveQueue slot).serveZones _
  unfold Machine.followWaiting
  split
  next z y _ hy =>
    split
    next e =>
      refine h.requestHandover ⟨running, hcur, fun hc => apart ?_, closed, fun x hx => ?_⟩
      · rw [hy, hcur, hc, e]
      · rw [hy] at hx
        exact (Option.some.inj hx).symm.trans e.symm
    next =>
      split
      · exact out
      next hne =>
        refine out.requestHandover (cur := cur) ⟨?_, ?_, fun hc => hne (by rw [hcur, hc]), ?_, fun x hx => ?_⟩
        · rw [settled]
          exact running
        · rw [settled]
          exact hcur
        · rw [settled]
          exact closed
        · rw [settled] at hx
          cases hx
  · exact h

/-- A tour whose window is cut is SETTLED (R55). -/
theorem cutWindow_settled (h : ZonesPlaced s) (window : (s.tour slot).live.prevZone.isSome = true) :
    (cutWindow slot s).tour slot =
      { s.tour slot with live := { (s.tour slot).live with prevZone := none, window := none } } := by
  obtain ⟨p, hp⟩ := Option.isSome_iff_exists.1 window
  have dropped := dropPrevious_spec hp
  unfold cutWindow
  rw [hp]
  have unqueued : ¬ Queued (dropPrevious slot s) slot := fun hq => by
    obtain ⟨z, w, hw, e⟩ := hq
    rw [dropped.queue] at hw
    exact h.not_queued_of_window window ⟨z, w, hw, e⟩
  exact ((serveZones_queues _ _).unqueued slot unqueued).trans dropped.tour

theorem ZonesPlaced.cutWindow (h : ZonesPlaced s) (slot : Fin 16) : ZonesPlaced (cutWindow slot s) := by
  unfold Machine.cutWindow
  split
  exacts [(h.dropPrevious slot).serveZones _, h]

theorem handoverOf_iff (l : TourLive) : (handoverOf l = .settled ↔ l.prevZone = none ∧ l.target = none) ∧
    (handoverOf l = .window ↔ l.prevZone.isSome = true) ∧
    (handoverOf l = .waiting ↔ l.prevZone = none ∧ l.target.isSome = true) := by
  unfold handoverOf
  cases l.prevZone <;> cases l.target <;> simp

theorem ZonesPlaced.followStop (h : ZonesPlaced s) (running : isRunning (s.tour slot) = true) :
    ZonesPlaced (followStop slot s) := by
  obtain ⟨settled, window, waiting⟩ := handoverOf_iff (s.tour slot).live
  unfold Machine.followStop
  split
  next e =>
    obtain ⟨closed, idle⟩ := settled.1 e
    exact h.followSettled running closed idle
  next e =>
    have some := window.1 e
    have idle : (s.tour slot).live.target = none := by
      by_contra ht
      have := ((h.2.2.1 slot).2.1 (Option.isSome_iff_ne_none.2 ht)).1
      rw [this] at some
      cases some
    have cut := cutWindow_settled h some
    exact (h.cutWindow slot).followSettled (by rw [cut]; exact running) (by rw [cut]) (by rw [cut]; exact idle)
  next e => exact h.followWaiting running (waiting.1 e).2

/-- An advance taken keeps tours placed and leaves runs and channels as they are (R72). -/
theorem takeAdvance_parties (d : Nat) (slot : Fin 16) (s : State) : SameParties s (takeAdvance d slot s) := by
  have handover := sameParties_handover slot
  unfold takeAdvance
  dsimp only
  split
  · exact .refl s
  split
  · exact handover.raiseTour _ _ _ _
  next p _ _ =>
    obtain ⟨n, hn⟩ : ∃ n, n = min ((s.tour slot).live.stop + d) (lastStop p) := ⟨_, rfl⟩
    rw [← hn]
    have moved : SameParties s (s.putLive slot { (s.tour slot).live with stop := n }) := .putLive rfl rfl rfl
    have marked (e : Nat) := moved.trans (handover.raiseTour .mark slot e _)
    have written (v : State) (hv : SameParties s v) :
        SameParties s (if (v.tour slot).live.stage = 2 then writeFallback slot v else v) := by
      split
      exacts [hv.trans (writeFallback_same slot v).2, hv]
    have followed (v : State) (hv : SameParties s v) : SameParties s (followStop slot v) := hv.trans (handover.followStop v)
    refine written _ (followed _ ?_)
    split
    · exact (marked _).trans (handover.raiseTour _ _ _ _)
    · exact marked _

theorem ZonesPlaced.takeAdvance (h : ZonesPlaced s) (running : isRunning (s.tour slot) = true) (d : Nat) :
    ZonesPlaced (takeAdvance d slot s) := by
  unfold Machine.takeAdvance
  dsimp only
  split
  · exact h
  split
  · exact h.raiseTour _ _ _
  next p _ _ =>
    obtain ⟨n, hn⟩ : ∃ n, n = min ((s.tour slot).live.stop + d) (lastStop p) := ⟨_, rfl⟩
    rw [← hn]
    have moved : SamePlaces s (s.putLive slot { (s.tour slot).live with stop := n }) := .putLive ⟨Iff.rfl, rfl, rfl, rfl, rfl⟩
    have marked (e : Nat) := moved.trans (.event .mark slot.val
      (some ((s.putLive slot { (s.tour slot).live with stop := n }).tour slot).live.run) e _)
    have followed (v : State) (hv : SamePlaces s v) : ZonesPlaced (Machine.followStop slot v) :=
      (h.of_same hv).followStop (by rw [hv.isRunning]; exact running)
    have written (w : State) (hw : ZonesPlaced w) :
        ZonesPlaced (if (w.tour slot).live.stage = 2 then writeFallback slot w else w) := by
      split
      exacts [hw.of_same (writeFallback_same slot w).1, hw]
    refine written _ (followed _ ?_)
    split
    · exact (marked _).trans (.event _ _ _ _ _)
    · exact marked _

/-- The advances of one frame, each for a tour that runs. -/
theorem ZonesPlaced.takeAdvances (d : Nat) (slots : List (Fin 16)) (h : ZonesPlaced s)
    (running : ∀ k ∈ slots, Machine.isRunning (s.tour k) = true) : ZonesPlaced (forEach slots (Machine.takeAdvance d) s) := by
  induction slots generalizing s with
  | nil => exact h
  | cons k rest ih =>
    refine ih (h.takeAdvance (running k List.mem_cons_self) d) fun j hj => ?_
    rw [(takeAdvance_parties d k s).isRunning]
    exact running j (List.mem_cons_of_mem _ hj)

theorem ZonesPlaced.passAdvance (h : ZonesPlaced s) (i : Fin 48) (d : Nat) : ZonesPlaced (passAdvance i d s) := by
  unfold Machine.passAdvance
  split
  · split
    · exact h
    · exact h.of_keeps (putSource_keeps (ps := [.sources]) .refl (by decide)) (by decide) (by decide)
  next slots _ =>
    refine ZonesPlaced.takeAdvances d _ h fun k hk => ?_
    have takes := (List.mem_filter.1 hk).2
    exact isRunning_iff.2 (.inl (of_decide_eq_true (Bool.and_eq_true_iff.1 takes).1))

end Sys2Proof.Machine
end

section
/-! Placed tours through closes, starts and mix points (R50, R69, R81 to R86). -/

namespace Sys2Proof.Machine

open Sys2Proof

variable {s t u : State} {slot : Fin 16} {z : Fin 12}

/-! ### Closes -/

theorem CloseTaken.channels_subset {silent : Bool} (h : CloseTaken silent slot s t) (k : Fin 16) {e : Fin 4} {c : Fin 24}
    (hc : (t.tour k).live.channels.get e = some c) : (s.tour k).live.channels.get e = some c ∧ k ≠ slot := by
  obtain ⟨-, -, -, none, -⟩ := h.live
  by_cases hk : k = slot
  · rw [hk, none e] at hc
    cases hc
  · rw [h.away k hk] at hc
    exact ⟨hc, hk⟩

/-- Channels whose zone sets only shrink load no zone more. -/
theorem zoneLoad_le (h : ∀ c, (t.channel c).zones.getLsbD z.val = true → (s.channel c).zones.getLsbD z.val = true) :
    zoneLoad t z ≤ zoneLoad s z := by
  refine List.Sublist.length_le ?_
  have : (indices 24).filter (fun c => (t.channel c).zones.getLsbD z.val) = ((indices 24).filter
      (fun c => (s.channel c).zones.getLsbD z.val)).filter fun c => (t.channel c).zones.getLsbD z.val := by
    rw [List.filter_filter]
    refine List.filter_congr fun c _ => ?_
    cases hc : (t.channel c).zones.getLsbD z.val with
    | false => rfl
    | true => rw [h c hc]; rfl
  rw [this]
  exact List.filter_sublist

/-- The tours that a close leaves running stay placed (R85). -/
theorem CloseTaken.placed {silent : Bool} (h : CloseTaken silent slot s t) (placed : ZonesPlaced s) (count : ZonesCounted t) :
    ZonesPlaced t := by
  obtain ⟨counted, capacity, tours, frees, queues⟩ := placed
  obtain ⟨phase, -, -, channels, -, prevZone, -, target, -⟩ := h.live
  have away (k : Fin 16) (hk : k ≠ slot) (c : Fin 24) (hc : c ∈ tourChannels (s.tour k).live) : t.channel c = s.channel c := by
    rw [h.channel, if_neg fun hm => hk ((tours slot).alone hm hc)]
  refine ⟨count, fun z => ?_, fun k => ?_, fun c hc => ?_, fun z w hw => ?_⟩
  · rw [count z]
    refine Nat.le_trans (zoneLoad_le (s := s) fun c hc => ?_) (counted z ▸ capacity z)
    rw [h.channel] at hc
    split at hc
    · simp [freedChannel] at hc
    · exact hc
  · by_cases hk : k = slot
    · subst hk
      have idle : isRunning (t.tour k) = false := by simp [isRunning, phase]
      unfold TourPlaced
      rw [idle]
      exact ⟨fun e c he => by rw [channels] at he; (cases he), fun ht => by rw [target] at ht; (cases ht),
        fun hp => by rw [prevZone] at hp; (cases hp), nofun, fun _ => ⟨channels, target, prevZone⟩⟩
    · obtain ⟨chs, rest⟩ := tours k
      unfold TourPlaced
      rw [h.away k hk]
      refine ⟨fun e c he => ?_, rest⟩
      obtain ⟨tour, zoned, zones, alone⟩ := chs e c he
      rw [away k hk c (mem_tourChannels_iff.2 ⟨e, he⟩)]
      exact ⟨tour, zoned, zones, fun j f hf => alone j f (h.channels_subset j hf).1⟩
  · rw [h.channel] at hc ⊢
    split
    · exact ⟨rfl, rfl⟩
    next hm =>
      rw [if_neg hm] at hc
      exact frees c hc
  · obtain ⟨old, gone⟩ := h.queue z w hw
    obtain ⟨waits, zoned, need⟩ := queues z w old
    have other : w.slot ≠ slot := fun e => by
      rw [e] at waits
      exact gone waits e
    rw [h.away _ other]
    exact ⟨waits, zoned, need⟩

theorem ZonesPlaced.closeActions (h : ZonesPlaced s) (silent : Bool) (slot : Fin 16) :
    ZonesPlaced (closeActions silent slot s).1 :=
  (closeActions_spec silent slot s).placed h ((Steady.closeActions (t := s) .refl).counted h.1)

theorem ZonesPlaced.judgeDeadlines (h : ZonesPlaced s) : ZonesPlaced (judgeDeadlines s) :=
  h.of_keeps (judgeDeadlines_keepsParts s) (by decide) (by decide)

theorem ZonesPlaced.closeTour (h : ZonesPlaced s) (slot : Fin 16) : ZonesPlaced (closeTour slot s) :=
  ((h.closeActions false slot).serveZones _).judgeDeadlines

theorem ZonesPlaced.closeAll (h : ZonesPlaced s) (silent : Bool) : ZonesPlaced (closeAll silent s) := by
  have all (ks : List (Fin 16)) (r : State × ZoneSet) (hr : ZonesPlaced r.1) :
      ZonesPlaced (ks.foldl (fun acc k => closeHeld silent k acc) r).1 := by
    induction ks generalizing r with
    | nil => exact hr
    | cons k ks ih =>
      refine ih _ ?_
      show ZonesPlaced (closeHeld silent k r).1
      unfold closeHeld
      split
      exacts [hr.closeActions silent k, hr]
  exact ((all _ (s, 0#12) h).serveZones _).judgeDeadlines

theorem Released.places {run : BitVec 16} {hs : List (Fin 384)} (h : Released slot run hs s t) : SamePlaces s t := by
  refine ⟨fun k => ?_, fun c => by rw [h.keeps.channel_eq (by decide) c]; exact ⟨rfl, rfl, rfl⟩,
    fun z => h.keeps.zone_eq (by decide) z⟩
  by_cases hk : k = slot
  · rw [hk, h.tour]
    exact ⟨Iff.rfl, rfl, rfl, rfl, rfl⟩
  · rw [h.away k hk]
    exact .refl _

theorem closingTour_places (live : (s.tour slot).live.phase = .live) (hold : Option Nat) :
    SamePlaces s (closingTour slot hold s) := by
  have keeps := closingTour_keeps slot hold s
  refine ⟨fun k => ?_, fun c => by rw [keeps.channel_eq (by decide) c]; exact ⟨rfl, rfl, rfl⟩,
    fun z => keeps.zone_eq (by decide) z⟩
  by_cases hk : k = slot
  · rw [hk, closingTour_tour]
    exact ⟨by simp [live], rfl, rfl, rfl, rfl⟩
  · rw [closingTour_away slot hold s hk]
    exact .refl _

theorem ZonesPlaced.endTour (h : ZonesPlaced s) (live : (s.tour slot).live.phase = .live) : ZonesPlaced (endTour slot s) := by
  have closing := h.of_same (closingTour_places live (loadedHold slot s))
  rw [endTour_eq]
  split
  exacts [closing.closeTour slot, closing]

/-! ### The work of a mix point -/

theorem ZonesPlaced.tickClose (h : ZonesPlaced s) (slot : Fin 16) : ZonesPlaced (tickClose slot s) := by
  have counted (hold wait : Option Nat) :
      ZonesPlaced (s.putLive slot { (s.tour slot).live with hold := hold, wait := wait }) :=
    h.of_same (.putLive ⟨Iff.rfl, rfl, rfl, rfl, rfl⟩)
  unfold Machine.tickClose
  dsimp only
  split
  · split
    exacts [(counted _ _).closeTour slot, counted _ _]
  · exact h

theorem ZonesPlaced.doWork (h : ZonesPlaced s) (x : TourWork) : ZonesPlaced (doWork x s) := by
  cases x with
  | window k => exact h.tickWindow k
  | timers k =>
    show ZonesPlaced (tickTour k s)
    unfold tickTour
    split
    exacts [(h.tickSilence k).tickClose k, h]

theorem MixStart.places (h : MixStart s t) : SamePlaces s t :=
  ⟨fun k => by rw [h.keeps.tour_eq (by decide) k]; exact .refl _,
    fun c => by rw [h.channel c]; exact ⟨rfl, rfl, rfl⟩, fun z => by rw [h.zone]⟩

theorem ZonesPlaced.rackSender (h : ZonesPlaced s) : ZonesPlaced (rackSender s) :=
  h.of_keeps (rackSender_keepsParts s) (by decide) (by decide)

theorem ZonesPlaced.mixPoint (h : ZonesPlaced s) : ZonesPlaced (mixPoint s) := by
  have works (xs : List TourWork) (v : State) (hv : ZonesPlaced v) : ZonesPlaced (forEach xs Machine.doWork v) := by
    induction xs generalizing v with
    | nil => exact hv
    | cons x xs ih => exact ih _ (hv.doWork x)
  rw [mixPoint_eq]
  exact (works _ _ (h.of_same (mixReady_start s).places)).rackSender

/-! ### Starts and reservations -/

theorem Asked.places {run : BitVec 16} {a : ReserveAnswer} (h : Asked slot run a s t) : SamePlaces s t := by
  refine ⟨fun k => ?_, fun c => by rw [h.keeps.channel_eq (by decide) c]; exact ⟨rfl, rfl, rfl⟩,
    fun z => h.keeps.zone_eq (by decide) z⟩
  by_cases hk : k = slot
  · rw [hk, h.tour]
    exact ⟨Iff.rfl, rfl, rfl, rfl, rfl⟩
  · rw [h.away k hk]
    exact .refl _

theorem ZonesPlaced.startTour {p : Plan} (h : ZonesPlaced s) (plan : (s.tour slot).plan = some p)
    (idle : isRunning (s.tour slot) = false) (room : (planEntries p).length ≤ (freeChannels s).length)
    (slots : (s.zone z).carried + (planEntries p).length ≤ 8) : ZonesPlaced (startTour slot p z s).2 := by
  have bound := tourBound_spec (s := s) slot z room
  rw [startTour_eq]
  exact ((bound.placed h idle slots).of_same (askedBefore_asked (bound.asking plan)).1.places).raiseTour _ _ _

/-- The checks that a start passes (R68, R49). -/
theorem startChecks_ok {p : Plan} (h : startChecks s slot = .ok (p, z)) : (s.tour slot).live.phase = .planned ∧
    (s.tour slot).plan = some p ∧ (planEntries p).length ≤ (freeChannels s).length ∧
    (planEntries p).length ≤ freeSlots s z := by
  by_cases phase : (s.tour slot).live.phase = .planned
  · by_cases mode : s.mge.mode = .opened
    · cases plan : (s.tour slot).plan with
      | none =>
        rw [startChecks, if_neg (not_not_intro phase), if_neg (not_not_intro mode), plan] at h
        cases h
      | some q =>
        cases route : q.route with
        | nil =>
          rw [startChecks, if_neg (not_not_intro phase), if_neg (not_not_intro mode), plan] at h
          dsimp only at h
          rw [route] at h
          cases h
        | cons st rest =>
          rw [startChecks_of_plan phase mode plan route] at h
          split at h
          · cases h
          split at h
          · cases h
          next channels =>
            split at h
            · cases h
            next slots =>
              obtain ⟨rfl, rfl⟩ := Prod.mk.inj (Except.ok.inj h)
              exact ⟨phase, rfl, Nat.not_lt.1 channels, Nat.not_lt.1 slots⟩
    · rw [startChecks_of_mode phase mode] at h
      cases h
  · rw [startChecks_of_phase phase] at h
    cases h

end Sys2Proof.Machine
end

section
/-! O6: every command keeps tours placed and zones within 8 channels (R44, R49, R51). -/

namespace Sys2Proof.Machine

open Sys2Proof

variable {s t u : State} {slot : Fin 16} {a : List Byte}

namespace ZonesPlaced

/-! ### Arriving frames -/

theorem putSource {i : Fin 48} {x : Option Source} (h : ZonesPlaced s) : ZonesPlaced (s.putSource i x) :=
  h.of_keeps (putSource_keeps (ps := [.sources]) .refl (by decide)) (by decide) (by decide)

theorem putLinkCounters {c : LinkCounters} (h : ZonesPlaced s) : ZonesPlaced (s.putLinkCounters c) :=
  h.of_keeps (putLinkCounters_keeps (ps := [.egress]) .refl (by decide)) (by decide) (by decide)

theorem takeAudio {x : Station} (h : ZonesPlaced s) : ZonesPlaced (takeAudio x a s) := by
  have taken (i : Fin 48) (r : Source) : ZonesPlaced (takeSourceFrame i r a s) := by
    simp only [takeSourceFrame]
    repeat' split
    exacts [h.putSource, h.putSource, h.putSource, h.putSource.passAdvance _ _, h.putSource]
  simp only [Machine.takeAudio]
  repeat' split
  exacts [h.putLinkCounters, h.putLinkCounters, h.putLinkCounters, taken _ _]

theorem putRackLive {r : Fin 12} {x : RackLive} (h : ZonesPlaced s) : ZonesPlaced (s.putRackLive r x) :=
  h.of_keeps (putRackLive_keeps (ps := [.rackLives]) .refl (by decide)) (by decide) (by decide)

theorem countUnroutedRack (h : ZonesPlaced s) : ZonesPlaced (countUnroutedRack s) :=
  h.of_keeps (countUnroutedRack_keeps (ps := [.unroutedRack]) .refl (by decide)) (by decide) (by decide)

theorem takeReading {r : Fin 12} {x : Reading} (h : ZonesPlaced s) : ZonesPlaced (takeReading r x s) := by
  have warmed (u : State) (hu : ZonesPlaced u) : ZonesPlaced (readTemperature r x.temperature u) :=
    hu.of_keeps (ps := [.rackLives, .sched, .bays, .events, .egress])
      (takeTemperature_keeps (putRackLive_keeps .refl (by decide)) (by decide) (by decide) (by decide) (by decide))
      (by decide) (by decide)
  unfold Machine.takeReading
  dsimp only
  exact (warmed s h).of_same (((samePlaces_bayWork.comparePresence _ _ _).trans (samePlaces_bayWork.readReported _ _ _ _)).trans
    (samePlaces_bayWork.readElectrical _ _ _ _))

theorem takeStatus {x : Station} (h : ZonesPlaced s) : ZonesPlaced (takeStatus x a s) := by
  have chosen : ZonesPlaced s.useChoice :=
    h.of_keeps (useChoice_keeps (ps := [.choices]) .refl (by decide)) (by decide) (by decide)
  have settled (r : Fin 12) (b : Fin 24) : ZonesPlaced (settlePoll r b s.useChoice) :=
    chosen.of_keeps (settlePoll_keeps (ps := [.rackLives, .bays, .sched, .events, .egress]) .refl (by decide) (by decide)
      (by decide) (by decide) (by decide)) (by decide) (by decide)
  unfold Machine.takeStatus
  repeat' split
  exacts [h.countUnroutedRack, h.putRackLive, (settled _ _).takeReading.rackSender]

theorem takeNotice {x : Station} (h : ZonesPlaced s) : ZonesPlaced (takeNotice x a s) := by
  simp only [Machine.takeNotice]
  split
  · exact h.countUnroutedRack
  split
  exacts [h.putRackLive, (h.of_same (samePlaces_bayWork.comparePresence _ _ s)).rackSender]

theorem arrive {frame : List Byte} (h : ZonesPlaced s) : ZonesPlaced (arrive frame s) := by
  unfold Machine.arrive dispatchFrame
  split
  · split
    · exact h.putLinkCounters
    · have counted : ZonesPlaced (countReceived s) := h.putLinkCounters
      split
      · exact counted.takeAudio
      · split
        exacts [counted.takeStatus, counted.putLinkCounters]
      · split
        exacts [counted.takeNotice, counted.putLinkCounters]
      · exact counted.of_keeps (takeRequest_keeps (ps := requestParts) .refl (by decide) (by decide) (by decide))
          (by decide) (by decide)
  · exact h

/-! ### Requests -/

theorem serve {code : Nat} {owner : List Byte → State → Answer} (ho : ∀ args, ZonesPlaced (owner args s).state)
    (h : ZonesPlaced s) : ZonesPlaced (serve code owner s) := by
  unfold Machine.serve
  split
  · split
    exacts [(ho _).of_keeps (offerReply_keeps (ps := replyParts) .refl (by decide) (by decide)) (by decide) (by decide), h]
  · exact h
  · exact h

theorem serveRacks {code : Nat} {owner : List Byte → State → Answer} (ho : ∀ args, ZonesPlaced (owner args s).state)
    (h : ZonesPlaced s) : ZonesPlaced (serveRacks code owner s) := serve (fun args => (ho args).rackSender) h

theorem loadTourPlan (h : ZonesPlaced s) (args : List Byte) : ZonesPlaced (loadTourPlan args s).state := by
  unfold Machine.loadTourPlan
  split
  · exact h
  next slot given _ =>
    dsimp only
    split
    · exact h
    next idle =>
      have old : isRunning (s.tour slot) = false := Bool.eq_false_iff.2 idle
      have bare := (h.2.2.1 slot).2.2.2.2 old
      split
      · exact h
      · rw [answer_state]
        refine h.putIdle old ?_ ?_
        · unfold isRunning plannedLive
          split
          · rfl
          · exact old
        · unfold plannedLive
          split
          · exact ⟨fun e => Tab.get_fill _ e, rfl, rfl⟩
          · exact bare

theorem loadTourTiming (h : ZonesPlaced s) (args : List Byte) : ZonesPlaced (loadTourTiming args s).state := by
  have timed (slot : Fin 16) (x : Option Timing) : SamePlaces s (s.putTour slot { s.tour slot with timing := x }) := by
    refine ⟨fun k => ?_, fun _ => ⟨rfl, rfl, rfl⟩, fun _ => rfl⟩
    rw [State.putTour_tour]
    split
    next e => rw [e]; exact .refl _
    next => exact .refl _
  unfold Machine.loadTourTiming
  split
  · exact h
  · dsimp only
    split
    exacts [h, h.of_same (timed _ _)]

theorem clearTour (h : ZonesPlaced s) (args : List Byte) : ZonesPlaced (clearTour args s).state := by
  unfold Machine.clearTour
  split
  · exact h
  · split
    next hp => exact h.putIdle (by simp [isRunning, hp]) rfl ⟨fun e => Tab.get_fill _ e, rfl, rfl⟩
    next => exact h

theorem tourStart (h : ZonesPlaced s) (args : List Byte) : ZonesPlaced (tourStart args s).state := by
  unfold Machine.tourStart
  split
  · exact h
  next slot _ =>
    split
    · exact h
    next p z hc =>
      obtain ⟨planned, plan, channels, slots⟩ := startChecks_ok hc
      have capacity_ : Config.zoneCapacity = 8 := rfl
      have capacity := h.2.1 z
      rw [freeSlots, capacity_] at slots
      rw [capacity_] at capacity
      have started := h.startTour (z := z) plan (by simp [isRunning, planned]) channels (by omega)
      exact started.of_keeps (useChoice_keeps (ps := [.choices]) .refl (by decide)) (by decide) (by decide)

theorem reserveMore (h : ZonesPlaced s) (args : List Byte) : ZonesPlaced (reserveMore args s).state := by
  have asked (slot : Fin 16) (x : Tab Nat 4) :
      SamePlaces s (s.putLive slot { (s.tour slot).live with asked := x }) := .putLive ⟨Iff.rfl, rfl, rfl, rfl, rfl⟩
  have reserved (slot : Fin 16) (e : Fin 4) (n : Nat) (u : State) : SamePlaces u (reserveFor slot e n u).2 := by
    unfold reserveFor
    dsimp only
    split
    exacts [.refl u, (reserve_asked _ u).places]
  unfold Machine.reserveMore
  split
  · dsimp only
    split
    · exact h
    split
    · exact h
    · exact h.of_same ((asked _ _).trans (reserved _ _ _ _))
  · exact h

theorem tourEnd (h : ZonesPlaced s) (args : List Byte) : ZonesPlaced (tourEnd args s).state := by
  unfold Machine.tourEnd
  split
  · exact h
  · split
    · exact h
    next hp =>
      dsimp only [endReply]
      exact h.endTour hp
    · exact h
    · exact h

theorem tourAbort (h : ZonesPlaced s) (args : List Byte) : ZonesPlaced (tourAbort args s).state := by
  unfold Machine.tourAbort
  split
  · exact h
  next slot _ =>
    split
    · dsimp only
      exact h.closeTour slot
    · exact h

theorem refreshAll (h : ZonesPlaced s) : ZonesPlaced (refreshAll s) :=
  h.of_keeps (refreshAll_keeps (ps := [.sched, .bays]) .refl (by decide) (by decide)) (by decide) (by decide)

theorem putMode (h : ZonesPlaced s) (m : HallMode) : ZonesPlaced (putMode m s) :=
  h.of_keeps (putMode_keeps (ps := [.mode]) .refl (by decide)) (by decide) (by decide)

theorem setHallMode (h : ZonesPlaced s) (args : List Byte) : ZonesPlaced (setHallMode args s).state := by
  have opened : ZonesPlaced (openHall s) :=
    refreshAll ((h.putMode .opened).of_keeps (withMxr_keeps (ps := [.programs]) .refl (by decide)) (by decide) (by decide))
  have closed : ZonesPlaced (closeHall s) := ((h.closeAll false).putMode .closed).refreshAll
  simp only [Machine.setHallMode, modeReply]
  repeat' split
  all_goals dsimp only [refuse_state]
  exacts [h, h, closed, opened]

theorem restartHub (h : ZonesPlaced s) : ZonesPlaced (restartHub s) := by
  have emptied : ZonesPlaced (emptyClass1 (Machine.putMode .closed (Machine.closeAll true s))) :=
    ((h.closeAll true).putMode .closed).of_keeps (emptyClass1_keeps (ps := [.egress]) .refl (by decide)) (by decide) (by decide)
  refine emptied.refreshAll.of_keeps
    (ps := [.bays, .sources, .programs, .events, .fleetCounters, .rackLives, .unroutedRack, .sched, .egress, .requests])
    ?_ (by decide) (by decide)
  exact zeroCounters_keeps (restartEvents_keeps (restartPrograms_keeps (restartSources_keeps (markAllPending_keeps .refl
    (by decide)) (by decide)) (by decide)) (by decide)) (by decide) (by decide) (by decide) (by decide) (by decide) (by decide)

/-! ### Every command -/

/-- A well-formed command outside the zones and the tours. -/
theorem of_nextState {c : Instr} (h : ZonesPlaced s) (hw : c.wellFormed = true)
    (hp : ∀ p ∈ [Part.tours, .zones], p ∉ mayChange c) : ZonesPlaced (nextState c s) :=
  h.of_keeps (nextState_keeps hw s) (hp _ (by decide)) (hp _ (by decide))

theorem countSilence (h : ZonesPlaced s) {n : Nat} (due : silenceDue s slot n = true) : ZonesPlaced (countSilence slot s) := by
  have quiet : guideVoice s slot = false := by
    unfold silenceDue at due
    simp only [Bool.and_eq_true] at due
    simpa using due.1.1.2
  rw [← tickSilence_quiet quiet]
  exact h.tickSilence slot

end ZonesPlaced

theorem zonesPlaced_nextState (c : Instr) (h : ZonesPlaced s) : ZonesPlaced (nextState c s) := by
  have ite {b : Bool} {v : State} (hv : b = true → ZonesPlaced v) : ZonesPlaced (if b then v else s) := by
    split
    next e => exact hv e
    next => exact h
  cases c with
  | powerOn x => exact zonesPlaced_atReset x
  | pinReset x => exact zonesPlaced_atReset x
  | frameRejected f => exact h.arrive
  | audioUp f => exact h.arrive
  | bayStatus f => exact h.arrive
  | dockNotice f => exact h.arrive
  | mgmtRequest f => exact h.arrive
  | loadChannel => exact .serve h.loadChannel h
  | loadTourPlan => exact .serve h.loadTourPlan h
  | loadTourTiming => exact .serve h.loadTourTiming h
  | clearTour => exact .serve h.clearTour h
  | tourStart => exact .serveRacks h.tourStart h
  | reserveMore => exact .serveRacks h.reserveMore h
  | tourEnd => exact .serveRacks h.tourEnd h
  | tourAbort => exact .serveRacks h.tourAbort h
  | setHallMode => exact .serveRacks h.setHallMode h
  | restart => exact .serveRacks (fun _ => h.restartHub) h
  | mixPoint => exact h.mixPoint
  | windowEnd k => exact ite fun _ => h.tickWindow k
  | guideQuiet k => exact ite h.countSilence
  | fallbackWrite k => exact ite h.countSilence
  | closeHoldExpiry k => exact ite fun _ => (h.closeTour k).rackSender
  | closeWaitExpiry k => exact ite fun _ => (h.closeTour k).rackSender
  | _ => exact h.of_nextState rfl (by simp [mayChange, replyParts, senderParts, eventParts])

/-- Settles O6: a zone is entered only with room for every channel of the tour, and each release is counted with the channels
that leave. -/
theorem zonesNeverOverfull : Obligations.ZonesNeverOverfull := fun _ _ hs h =>
  step_preserves h hs (fun _ k => k) fun c _ k => zonesPlaced_nextState c k

end Sys2Proof.Machine
end

section
/-! What a change of the hall mode leaves of the racks (R152, R155). -/

namespace Sys2Proof.Machine

open Sys2Proof

variable {s t u : State}

/-! ### The served flags of a resynchronised rack -/

/-- What no item of a list changes is the same after the list. -/
theorem forEach_get {α β : Type} (get : State → β) {f : α → State → State} (hf : ∀ x u, get (f x u) = get u) (xs : List α)
    (s : State) : get (forEach xs f s) = get s := by
  induction xs generalizing s with
  | nil => rfl
  | cons x xs ih => exact (ih (f x s)).trans (hf x s)

theorem judge_served (a a' : Fin 288) (s : State) : ((judge a s).bay a').served = (s.bay a').served := by
  obtain ⟨p, hp⟩ := setMode_bay a (judgedMode s a) s a'
  rw [judge, hp]

theorem judgeRack_served (rack : Fin 12) (s : State) (a : Fin 288) :
    ((judgeRack rack s).bay a).served = (s.bay a).served := by
  refine forEach_get (fun u => (u.bay a).served) (fun b u => ?_) _ s
  split
  exacts [rfl, judge_served _ _ _]

theorem resync_served (rack : Fin 12) (s : State) (a : Fin 288) : ((resync rack s).bay a).served =
    if rackOf a = rack then false else (s.bay a).served := by
  obtain ⟨u, hu⟩ : ∃ u, u = (newRound rack s).putSched rack
      { (newRound rack s).sched rack with postponed := 0, pulledIn := 0 } := ⟨_, rfl⟩
  have eq : resync rack s = restartCadence rack (judgeRack rack u) := by
    rw [hu]
    rfl
  have bay : u.bay a = (newRound rack s).bay a := by
    rw [hu, State.putSched_bay]
  rw [eq, restartCadence, State.putSched_bay, judgeRack_served, bay, newRound_bay]
  split <;> rfl

/-! ### Every rack refreshed -/

/-- What the C of every rack computed afresh and the resynchronisation of every enabled rack leave (R152, R155). -/
structure Refreshed (s t : State) : Prop where
  keeps : KeepsAllBut [.sched, .bays] s t
  sched : ∀ r, ∃ c, t.sched r = { s.sched r with
    capacity := capacityOf s r, active := keptTurns (capacityOf s r) (s.sched r).active, cadenceEnds := c
    round := if (s.rack r).config.enabled then (s.sched r).round + 1 else (s.sched r).round
    postponed := if (s.rack r).config.enabled then 0 else (s.sched r).postponed
    pulledIn := if (s.rack r).config.enabled then 0 else (s.sched r).pulledIn }
  served : ∀ r, (s.rack r).config.enabled = true → ∀ b, (t.bay (bayAddress r b)).served = false

/-- The C of every rack computed afresh. -/
theorem refreshCapacities_sched (s : State) (r : Fin 12) : ∃ c, (forEach (indices 12) refreshCapacity s).sched r =
    { s.sched r with capacity := capacityOf s r, active := keptTurns (capacityOf s r) (s.sched r).active
                     cadenceEnds := c } := by
  refine forEach_indices_own (n := 12) (get := State.sched) (I := KeepsAllBut [.sched, .bays] s)
    (Q := fun r x y => x.band = (s.sched r).band → ∃ c, y = { x with capacity := capacityOf s r
                                                                     active := keptTurns (capacityOf s r) x.active
                                                                     cadenceEnds := c })
    (f := refreshCapacity) (fun r u hu => ⟨?_, fun hb => ?_, fun j hj => refreshCapacity_sched_ne hj u⟩) .refl r rfl
  · exact hu.trans (refreshCapacity_keepsParts r u)
  · obtain ⟨c, hc⟩ := refreshCapacity_sched r r u
    rw [if_pos rfl, hu.capacityOf_eq (by decide) (by decide) (by decide) hb] at hc
    exact ⟨c, hc⟩

/-- The resynchronisation of a rack if it is enabled. -/
def resyncEnabled (r : Fin 12) (u : State) : State := if (u.rack r).config.enabled then resync r u else u

theorem resync_keepsParts (r : Fin 12) (s : State) : KeepsAllBut [.sched, .bays] s (resync r s) :=
  resync_keeps .refl (by decide) (by decide)

theorem resyncEnabled_keeps (r : Fin 12) (s : State) : KeepsAllBut [.sched, .bays] s (resyncEnabled r s) := by
  unfold resyncEnabled
  split
  exacts [resync_keepsParts r s, .refl]

theorem resyncs_sched (s : State) (r : Fin 12) : ∃ c, (forEach (indices 12) resyncEnabled s).sched r =
    { s.sched r with
      cadenceEnds := c
      round := if (s.rack r).config.enabled then (s.sched r).round + 1 else (s.sched r).round
      postponed := if (s.rack r).config.enabled then 0 else (s.sched r).postponed
      pulledIn := if (s.rack r).config.enabled then 0 else (s.sched r).pulledIn } := by
  refine forEach_indices_own (n := 12) (get := State.sched) (I := KeepsAllBut [.sched, .bays] s)
    (Q := fun r x y => ∃ c, y = { x with
      cadenceEnds := c
      round := if (s.rack r).config.enabled then x.round + 1 else x.round
      postponed := if (s.rack r).config.enabled then 0 else x.postponed
      pulledIn := if (s.rack r).config.enabled then 0 else x.pulledIn })
    (f := resyncEnabled) (fun r u hu => ⟨?_, ?_, fun j hj => ?_⟩) .refl r
  · exact hu.trans (resyncEnabled_keeps r u)
  · obtain ⟨c, hc⟩ := resync_sched r r u
    unfold resyncEnabled
    rw [hu.rack_eq (by decide) (by decide) r]
    split
    · rw [hc, if_pos rfl]
      exact ⟨c, rfl⟩
    · exact ⟨(u.sched r).cadenceEnds, rfl⟩
  · obtain ⟨c, hc⟩ := resync_sched r j u
    unfold resyncEnabled
    split
    · rw [hc, if_neg hj]
    · rfl

theorem refreshAll_spec (s : State) : Refreshed s (refreshAll s) := by
  have capacities := refreshCapacities_sched s
  have kept : KeepsAllBut [.sched, .bays] s (forEach (indices 12) refreshCapacity s) :=
    forEach_keeps (fun r u k => k.trans (refreshCapacity_keepsParts r u)) .refl
  have eq : refreshAll s = forEach (indices 12) resyncEnabled (forEach (indices 12) refreshCapacity s) := rfl
  obtain ⟨t, ht⟩ : ∃ t, t = forEach (indices 12) refreshCapacity s := ⟨_, rfl⟩
  rw [← ht] at capacities kept eq
  have racks (r : Fin 12) : t.rack r = s.rack r := kept.rack_eq (by decide) (by decide) r
  rw [eq]
  refine ⟨kept.trans (forEach_keeps (fun r u k => k.trans (resyncEnabled_keeps r u)) .refl), fun r => ?_, ?_⟩
  · obtain ⟨c, hc⟩ := capacities r
    obtain ⟨d, hd⟩ := resyncs_sched t r
    exact ⟨d, by rw [hd, hc, racks]⟩
  · refine fun r => forEach_indices_all (P := fun r u => (s.rack r).config.enabled = true →
      ∀ b, (u.bay (bayAddress r b)).served = false) (I := fun u => ∀ r, u.rack r = s.rack r) (fun i u hu => ?_) racks r
    have served (a : Fin 288) (h : (s.rack i).config.enabled = true) : ((resyncEnabled i u).bay a).served =
        if rackOf a = i then false else (u.bay a).served := by
      rw [resyncEnabled, hu, if_pos h, resync_served]
    refine ⟨fun r => ((resyncEnabled_keeps i u).rack_eq (by decide) (by decide) r).trans (hu r), fun h b => ?_,
      fun j hj hs h b => ?_⟩
    · rw [served _ h, if_pos (rackOf_bayAddress i b)]
    · unfold resyncEnabled
      split
      · rw [resync_served, rackOf_bayAddress, if_neg hj]
        exact hs h b
      · exact hs h b

/-- What the statement of a mode change says of the scheduler. -/
structure Resynced (s u : State) (r : Fin 12) : Prop where
  capacity : (u.sched r).capacity = capacityOf u r
  band : (u.sched r).band = (s.sched r).band
  shorter : (u.sched r).active.length ≤ (s.sched r).active.length
  bounded : (u.sched r).active.length ≤ (u.sched r).capacity
  restarted : (u.rack r).config.enabled = true → (u.sched r).postponed = 0 ∧ (u.sched r).pulledIn = 0 ∧
    (u.sched r).round = (s.sched r).round + 1 ∧ ∀ b, (u.bay (bayAddress r b)).served = false

theorem Refreshed.resynced (h : Refreshed s t) (r : Fin 12) : Resynced s t r := by
  obtain ⟨c, hc⟩ := h.sched r
  have racks : t.rack r = s.rack r := h.keeps.rack_eq (by decide) (by decide) r
  have band : (t.sched r).band = (s.sched r).band := by rw [hc]
  refine ⟨?_, band, ?_, ?_, fun he => ?_⟩
  · rw [h.keeps.capacityOf_eq (by decide) (by decide) (by decide) band, hc]
  · rw [hc]
    exact List.length_filter_le _ _
  · rw [hc]
    exact keptTurns_length_le _ _
  · rw [racks] at he
    refine ⟨?_, ?_, ?_, h.served r he⟩ <;> rw [hc] <;> exact if_pos he

/-- The scheduler as another state sees it, where the loaded fields, the bands and the served flags are as they were. -/
theorem Resynced.of_keeps {v : State} {r : Fin 12} {ps : List Part} (h : Resynced s t r) (before : v.sched r = s.sched r)
    (k : KeepsAllBut ps t u) (hp : ∀ p ∈ [Part.rackConfigs, .bandTable, .mode], p ∉ ps)
    (sched : ∃ x, u.sched r = { t.sched r with counters := x }) (served : ∀ a, (u.bay a).served = (t.bay a).served) :
    Resynced v u r := by
  obtain ⟨x, sched⟩ := sched
  have config : (u.rack r).config = (t.rack r).config := k .rackConfigs (hp _ (by decide)) r
  have capacity : capacityOf u r = capacityOf t r :=
    k.capacityOf_eq (hp _ (by decide)) (hp _ (by decide)) (hp _ (by decide)) (by rw [sched])
  obtain ⟨h1, h2, h3, h4, h5⟩ := h
  refine ⟨by rw [sched, capacity, ← h1], by rw [sched, before, ← h2], by rw [sched, before]; exact h3,
    by rw [sched]; exact h4, fun he => ?_⟩
  rw [config] at he
  obtain ⟨p, i, round, flags⟩ := h5 he
  exact ⟨by rw [sched]; exact p, by rw [sched]; exact i, by rw [sched, before]; exact round,
    fun b => by rw [served, flags]⟩

end Sys2Proof.Machine
end

section
/-! What the close of every running tour leaves (R59, R86). -/

namespace Sys2Proof.Machine

open Sys2Proof

variable {s t u : State} {silent : Bool} {slot : Fin 16}

/-! ### One record through the closes -/

/-- A record as the close actions of a tour leave it, before deadlines are judged (R105, R106). -/
def closedRecord (slot : Fin 16) (run : BitVec 16) (deadline : Nat) (x : Option Receiver) : Option Receiver :=
  dueRecord slot run deadline (releasedRecord slot run x)

/-- A record that names no tour of this slot. -/
def Elsewhere (slot : Fin 16) (x : Option Receiver) : Prop := ∀ r, x = some r → r.tour.map TourRef.slot ≠ some slot

theorem not_ofRun_of_elsewhere {r : Receiver} {phase : RxState} {run : BitVec 16} (h : Elsewhere slot (some r)) :
    ¬ ofRun r phase slot run = true := fun hr => by
  obtain ⟨-, mine⟩ := ofRun_iff.1 hr
  refine h r rfl ?_
  unfold InRun at mine
  cases ht : r.tour with
  | none => rw [ht] at mine; cases mine
  | some ref =>
    rw [ht] at mine
    exact congrArg (Option.map Prod.fst) mine

theorem closedRecord_of_elsewhere {run : BitVec 16} {d : Nat} {x : Option Receiver} (h : Elsewhere slot x) :
    closedRecord slot run d x = x := by
  cases x with
  | none => rfl
  | some r =>
    have released : releasedRecord slot run (some r) = some r := by
      rw [releasedRecord, Option.map_some, if_neg (not_ofRun_of_elsewhere h)]
    rw [closedRecord, released, dueRecord, Option.map_some, if_neg (not_ofRun_of_elsewhere h)]

theorem elsewhere_closedRecord {j : Fin 16} {run : BitVec 16} {d : Nat} {x : Option Receiver} (h : Elsewhere j x) :
    Elsewhere j (closedRecord slot run d x) := by
  cases x with
  | none => exact nofun
  | some r =>
    have same := h r rfl
    rintro r' e
    simp only [closedRecord, dueRecord, releasedRecord, Option.map_some, Option.some.injEq] at e
    rw [← e]
    by_cases hr : ofRun r .reserved slot run = true
    · rw [if_pos hr]
      split <;> exact nofun
    · rw [if_neg hr]
      split <;> exact same

/-! ### The closes of a list of slots -/

/-- What the close of the running tours of some slots leaves, each slot once. -/
structure HeldClosed (silent : Bool) (ks : List (Fin 16)) (s t : State) : Prop where
  keeps : KeepsAllBut [.receivers, .bays, .tours, .programs, .zones, .events, .egress] s t
  quiet : silent = true → KeepsAllBut [.receivers, .bays, .tours, .programs, .zones] s t
  placed : ZonesPlaced s → ZonesPlaced t
  closed : ∀ k ∈ ks, isRunning (s.tour k) = true → LiveClosed (s.tour k).live (t.tour k).live ∧
    (t.tour k).plan = (s.tour k).plan ∧ (t.tour k).timing = (s.tour k).timing
  others : ∀ k, ¬ (k ∈ ks ∧ isRunning (s.tour k) = true) → t.tour k = s.tour k
  receiver : ∀ h k, k ∈ ks → isRunning (s.tour k) = true → (∀ j, j ≠ k → Elsewhere j (s.receiver h)) →
    t.receiver h = closedRecord k (s.tour k).live.run (dueDeadline s) (s.receiver h)
  untouched : ∀ h, (∀ k ∈ ks, isRunning (s.tour k) = true → Elsewhere k (s.receiver h)) → t.receiver h = s.receiver h
  channel : ∀ c, t.channel c = if ∃ k ∈ ks, isRunning (s.tour k) = true ∧ c ∈ tourChannels (s.tour k).live
    then freedChannel (s.channel c) else s.channel c
  disowned : ∀ k ∈ ks, isRunning (s.tour k) = true → ∀ p, InPlan s k p →
    (t.program p).owner = none ∧ (t.program p).fallback = none
  unowned : ∀ p, (s.program p).owner = none ∧ (s.program p).fallback = none →
    (t.program p).owner = none ∧ (t.program p).fallback = none
  mixing : ∀ p, SameMixing (s.program p) (t.program p)

theorem HeldClosed.nil (silent : Bool) (s : State) : HeldClosed silent [] s s :=
  ⟨.refl, fun _ => .refl, id, nofun, fun _ _ => rfl, nofun, fun _ _ => rfl, fun _ => by simp, nofun, fun _ => id,
    fun _ => ⟨rfl, rfl, rfl, rfl, rfl⟩⟩

/-- A slot that does not run is passed over. -/
theorem HeldClosed.skip {k : Fin 16} {ks : List (Fin 16)} (h : HeldClosed silent ks s t)
    (idle : isRunning (s.tour k) = false) : HeldClosed silent (k :: ks) s t := by
  have other {j : Fin 16} (hj : j ∈ k :: ks) (hr : isRunning (s.tour j) = true) : j ∈ ks := by
    rcases List.mem_cons.1 hj with rfl | hj
    · rw [idle] at hr
      cases hr
    · exact hj
  refine ⟨h.keeps, h.quiet, h.placed, fun j hj hr => h.closed j (other hj hr) hr,
    fun j hj => h.others j fun ⟨hm, hr⟩ => hj ⟨List.mem_cons_of_mem _ hm, hr⟩,
    fun m j hj hr => h.receiver m j (other hj hr) hr,
    fun m hm => h.untouched m fun j hj => hm j (List.mem_cons_of_mem _ hj), fun c => ?_,
    fun j hj hr => h.disowned j (other hj hr) hr, h.unowned, h.mixing⟩
  rw [h.channel]
  refine if_congr ⟨fun ⟨j, hj, hr, hc⟩ => ⟨j, List.mem_cons_of_mem _ hj, hr, hc⟩,
    fun ⟨j, hj, hr, hc⟩ => ⟨j, other hj hr, hr, hc⟩⟩ rfl rfl

theorem InPlan.of_plan {k : Fin 16} {p : Fin 32} (h : InPlan s k p) (hp : (t.tour k).plan = (s.tour k).plan) : InPlan t k p := by
  obtain ⟨plan, e, x, h1, h2, h3⟩ := h
  exact ⟨plan, e, x, hp.trans h1, h2, h3⟩

theorem CloseTaken.unowned (h : CloseTaken silent slot s t) (p : Fin 32)
    (hp : (s.program p).owner = none ∧ (s.program p).fallback = none) :
    (t.program p).owner = none ∧ (t.program p).fallback = none := by
  by_cases named : InPlan s slot p
  · exact h.disowned p named
  · rw [h.owned p named]
    exact hp

/-- The close of one running tour before those of other slots. -/
theorem CloseTaken.cons {ks : List (Fin 16)} (h : CloseTaken silent slot s t) (running : isRunning (s.tour slot) = true)
    (fresh : slot ∉ ks) (placed : ZonesPlaced s → ZonesPlaced t) (k : HeldClosed silent ks t u) :
    HeldClosed silent (slot :: ks) s u := by
  have away {j : Fin 16} (hj : j ∈ ks) : t.tour j = s.tour j := h.away j fun e => fresh (e ▸ hj)
  have here : u.tour slot = t.tour slot := k.others slot fun ⟨hm, _⟩ => fresh hm
  have deadline : dueDeadline t = dueDeadline s := by
    have time : t.mge.hubTime = s.mge.hubTime := h.keeps .hubTime (by decide)
    have settings : t.mge.settings = s.mge.settings := h.keeps .settings (by decide)
    rw [dueDeadline, dueDeadline, time, settings]
  have records (m : Fin 384) : t.receiver m = closedRecord slot (s.tour slot).live.run (dueDeadline s) (s.receiver m) :=
    h.receiver m
  refine ⟨h.keeps.trans k.keeps, fun hs => (h.quiet hs).trans (k.quiet hs), k.placed ∘ placed, fun j hj hr => ?_,
    fun j hj => ?_, fun m j hj hr others => ?_, fun m hm => ?_, fun c => ?_, fun j hj hr p hp => ?_,
    fun p hp => k.unowned p (h.unowned p hp), fun p => (h.mixing p).trans (k.mixing p)⟩
  · rcases List.mem_cons.1 hj with rfl | hj
    · rw [here]
      exact ⟨h.live, h.plan.1, h.plan.2⟩
    · rw [← away hj] at hr ⊢
      exact k.closed j hj hr
  · have hne : j ≠ slot := fun e => hj ⟨e ▸ List.mem_cons_self, e ▸ running⟩
    rw [← h.away j hne]
    refine k.others j fun ⟨hm, hr⟩ => hj ⟨List.mem_cons_of_mem _ hm, ?_⟩
    rwa [away hm] at hr
  · rcases List.mem_cons.1 hj with rfl | hj
    · rw [← records]
      refine k.untouched m fun i hi _ => ?_
      rw [records]
      exact elsewhere_closedRecord (others i fun e => fresh (e ▸ hi))
    · have same : t.receiver m = s.receiver m := by
        rw [records]
        exact closedRecord_of_elsewhere (others slot fun e => fresh (e ▸ hj))
      rw [k.receiver m j hj (by rw [away hj]; exact hr) (by rw [same]; exact others), same, away hj, deadline]
  · have same : t.receiver m = s.receiver m := by
      rw [records]
      exact closedRecord_of_elsewhere (hm slot List.mem_cons_self running)
    rw [← same]
    refine k.untouched m fun i hi hr => ?_
    rw [same]
    rw [away hi] at hr
    exact hm i (List.mem_cons_of_mem _ hi) hr
  · rw [k.channel, h.channel]
    by_cases mine : c ∈ tourChannels (s.tour slot).live
    · rw [if_pos (c := ∃ j ∈ slot :: ks, _) ⟨slot, List.mem_cons_self, running, mine⟩, if_pos mine]
      split <;> rfl
    · rw [if_neg mine]
      refine if_congr ⟨fun ⟨j, hj, hr, hc⟩ => ?_, fun ⟨j, hj, hr, hc⟩ => ?_⟩ rfl rfl
      · rw [away hj] at hr hc
        exact ⟨j, List.mem_cons_of_mem _ hj, hr, hc⟩
      · rcases List.mem_cons.1 hj with rfl | hj
        · exact absurd hc mine
        · exact ⟨j, hj, by rw [away hj]; exact hr, by rw [away hj]; exact hc⟩
  · rcases List.mem_cons.1 hj with rfl | hj
    · exact k.unowned p (h.disowned p hp)
    · exact k.disowned j hj (by rw [away hj]; exact hr) p (hp.of_plan (by rw [away hj]))

theorem closeHelds_spec (silent : Bool) (ks : List (Fin 16)) (nodup : ks.Nodup) (r : State × ZoneSet) :
    HeldClosed silent ks r.1 (ks.foldl (fun acc k => closeHeld silent k acc) r).1 := by
  induction ks generalizing r with
  | nil => exact .nil silent r.1
  | cons k ks ih =>
    obtain ⟨fresh, rest⟩ := List.nodup_cons.1 nodup
    rw [List.foldl_cons]
    by_cases running : isRunning (r.1.tour k) = true
    · have eq : closeHeld silent k r = ((closeActions silent k r.1).1, r.2 ||| (closeActions silent k r.1).2) := if_pos running
      rw [eq]
      have later := ih rest ((closeActions silent k r.1).1, r.2 ||| (closeActions silent k r.1).2)
      exact (closeActions_spec silent k r.1).cons running fresh (fun h => h.closeActions silent k) later
    · have eq : closeHeld silent k r = r := if_neg running
      rw [eq]
      exact (ih rest r).skip (Bool.eq_false_iff.2 running)

/-! ### The close of every tour -/

theorem queue_empty_of_idle (placed : ZonesPlaced s) (idle : ∀ k, isRunning (s.tour k) = false) (z : Fin 12) :
    (s.zone z).queue = [] := by
  obtain ⟨-, -, tours, -, queues⟩ := placed
  refine List.eq_nil_iff_forall_not_mem.2 fun w hw => ?_
  have waits := (queues z w hw).1
  rw [((tours w.slot).2.2.2.2 (idle w.slot)).2.1] at waits
  cases waits

/-- What the close of every running tour leaves of a hub whose tours are placed: every queue is empty after it, and its service
does nothing; then the deadlines are judged (R59, R86, R107). -/
structure AllClosed (silent : Bool) (s t : State) : Prop where
  keeps : KeepsAllBut [.receivers, .bays, .tours, .programs, .zones, .events, .egress] s t
  closed : ∀ k, isRunning (s.tour k) = true → LiveClosed (s.tour k).live (t.tour k).live ∧
    (t.tour k).plan = (s.tour k).plan ∧ (t.tour k).timing = (s.tour k).timing
  others : ∀ k, isRunning (s.tour k) = false → t.tour k = s.tour k
  receiver : ∀ h r k, s.receiver h = some r → r.tour.map TourRef.slot = some k → isRunning (s.tour k) = true →
    ∃ r', t.receiver h = some r' ∧ ReceiverClosed k (s.tour k).live.run (dueDeadline s) s.mge.hubTime r r'
  channel : ∀ c, t.channel c = if ∃ k, isRunning (s.tour k) = true ∧ c ∈ tourChannels (s.tour k).live
    then freedChannel (s.channel c) else s.channel c
  disowned : ∀ k, isRunning (s.tour k) = true → ∀ p, InPlan s k p →
    (t.program p).owner = none ∧ (t.program p).fallback = none
  mixing : ∀ p, SameMixing (s.program p) (t.program p)

theorem closeAll_spec (silent : Bool) (placed : ZonesPlaced s) : AllClosed silent s (closeAll silent s) := by
  have held := closeHelds_spec silent (indices 16) (List.nodup_finRange 16) (s, 0#12)
  have every (k : Fin 16) : k ∈ indices 16 := List.mem_finRange k
  have eq : closeAll silent s =
      judgeDeadlines (serveZones ((indices 16).foldl (fun acc k => closeHeld silent k acc) (s, 0#12)).2
        ((indices 16).foldl (fun acc k => closeHeld silent k acc) (s, 0#12)).1) := rfl
  obtain ⟨r, hr⟩ : ∃ r, r = (indices 16).foldl (fun acc k => closeHeld silent k acc) (s, 0#12) := ⟨_, rfl⟩
  rw [← hr] at held eq
  have idle (k : Fin 16) : isRunning (r.1.tour k) = false := by
    cases h : isRunning (s.tour k) with
    | false => rw [held.others k fun ⟨_, hc⟩ => by rw [h] at hc; cases hc]; exact h
    | true =>
      have phase := (held.closed k (every k) h).1.1
      simp [isRunning, phase]
  rw [serveZones_of_empty (queue_empty_of_idle (held.placed placed) idle)] at eq
  rw [eq]
  have keeps := judgeDeadlines_keepsParts r.1
  have time : r.1.mge.hubTime = s.mge.hubTime := held.keeps .hubTime (by decide)
  have tours (k : Fin 16) : (judgeDeadlines r.1).tour k = r.1.tour k := keeps.tour_eq (by decide) k
  have programs (p : Fin 32) : (judgeDeadlines r.1).program p = r.1.program p := keeps.program_eq (by decide) p
  refine ⟨held.keeps.trans (keeps.mono (by decide)), fun k h => ?_, fun k h => ?_, fun m x k hx hk h => ?_, fun c => ?_,
    fun k h p hp => ?_, fun p => ?_⟩
  · rw [tours]
    exact held.closed k (every k) h
  · rw [tours]
    exact held.others k fun ⟨_, hc⟩ => by rw [h] at hc; cases hc
  · have record := held.receiver m k (every k) h fun j hj x' hx' => by
      rw [hx] at hx'
      rw [← Option.some.inj hx', hk]
      exact fun e => hj (Option.some.inj e).symm
    rw [(judgeDeadlines_spec r.1).1, record, time, hx]
    exact receiverClosed_judged k _ _ _ x
  · rw [keeps.channel_eq (by decide) c, held.channel]
    exact if_congr ⟨fun ⟨k, _, h⟩ => ⟨k, h⟩, fun ⟨k, h⟩ => ⟨k, every k, h⟩⟩ rfl rfl
  · rw [programs]
    exact held.disowned k (every k) h p hp
  · rw [programs]
    exact held.mixing p

end Sys2Proof.Machine
end

section
/-! O47: SET HALL MODE closes the tours or puts programs on air, and resynchronises (R183, R86, R152, R155). -/

namespace Sys2Proof.Machine

open Sys2Proof

variable {s t u : State} {slot : Fin 16}

/-! ### The reply by the code -/

theorem modeOfHall_code (m : HallMode) : modeOfHall m.code = some m := by cases m <;> rfl

theorem modeOfHall_of_large {n : Nat} (h : 1 < n) : modeOfHall n = none := by
  rw [modeOfHall, if_neg (by omega), if_neg (by omega)]

theorem setHallMode_of_same {a : List Byte} (h : byteAt a 0 = s.mge.mode.code) : setHallMode a s = modeReply 0 s := by
  rw [setHallMode, h, modeOfHall_code]
  exact if_pos rfl

theorem setHallMode_closes {a : List Byte} (h : byteAt a 0 = 0) (mode : s.mge.mode = .opened) :
    setHallMode a s = modeReply (runningTours s) (closeHall s) := by
  rw [setHallMode, h]
  exact if_neg (by rw [mode]; decide)

theorem setHallMode_opens {a : List Byte} (h : byteAt a 0 = 1) (mode : s.mge.mode = .closed) :
    setHallMode a s = modeReply 0 (openHall s) := by
  rw [setHallMode, h]
  exact if_neg (by rw [mode]; decide)

theorem runningTours_eq (s : State) : runningTours s = ((indices 16).filter fun k =>
    decide ((s.tour k).live.phase = .live ∨ (s.tour k).live.phase = .closing)).length := by
  rw [runningTours, Tab.items_eq, List.filter_map, List.length_map]
  congr 1
  refine List.filter_congr fun k _ => ?_
  rw [Bool.eq_iff_iff, decide_eq_true_iff]
  exact isRunning_iff

/-! ### The hall in its new mode -/

/-- A change of the hall mode: the racks refreshed in the state it prepares, and the rack sender's act (R183, log 10). -/
structure ModeChanged (s v u : State) : Prop where
  keeps : KeepsAllBut [.sched, .bays, .sender, .egress] v u
  resynced : ∀ r, v.sched r = s.sched r → Resynced s u r

theorem modeChanged (s v : State) : ModeChanged s v (rackSender (refreshAll v)) := by
  have refreshed := refreshAll_spec v
  obtain ⟨w, hw⟩ : ∃ w, w = refreshAll v := ⟨_, rfl⟩
  rw [← hw] at refreshed ⊢
  have sent := rackSender_keepsParts w
  refine ⟨(refreshed.keeps.mono (by decide)).trans (sent.mono (by decide)), fun r before => ?_⟩
  refine (refreshed.resynced r).of_keeps before.symm sent (by decide) ⟨(w.sched r).counters, sent.sched_eq (by decide) r⟩
    fun a => ?_
  obtain ⟨p, hp⟩ := rackSender_bay w a
  rw [hp]

/-- What the statement says of every rack. -/
theorem ModeChanged.racks {v : State} (h : ModeChanged s v u) (before : ∀ r, v.sched r = s.sched r) (r : Fin 12) :
    (u.sched r).capacity = capacityOf u r ∧ (u.sched r).band = (s.sched r).band ∧
    (u.sched r).active.length ≤ (s.sched r).active.length ∧ (u.sched r).active.length ≤ (u.sched r).capacity ∧
    ((u.rack r).config.enabled = true → (u.sched r).postponed = 0 ∧ (u.sched r).pulledIn = 0 ∧
      (u.sched r).round = (s.sched r).round + 1#16 ∧ ∀ b, (u.bay (bayAddress r b)).served = false) := by
  obtain ⟨capacity, band, shorter, bounded, restarted⟩ := h.resynced r (before r)
  exact ⟨capacity, band, shorter, bounded, restarted⟩

theorem airPrograms_program (s : State) (p : Fin 32) : (airPrograms s).program p = { s.program p with
    duck := if (s.program p).binding.isSome then 32768 else (s.program p).duck } := by
  refine (Tab.get_map _ _ p).trans ?_
  show (if (s.program p).binding.isSome then { s.program p with duck := Config.unity } else s.program p) = _
  split <;> rfl

/-- Settles O47: the refused code, the present mode, and the change either way. -/
theorem hallModeChanges : Obligations.HallModeChanges := by
  unfold Obligations.HallModeChanges
  intro s req serving code now resynced
  refine ⟨fun hc => ?_, fun hc => ?_, fun hc mode placed => ?_, fun hc mode => ?_⟩
  · refine exec_servingRacks (c := .setHallMode) (x := refuse .badArgument s) (by rfl) serving ?_
    rw [setHallMode, modeOfHall_of_large hc]
  · have same : code = s.mge.mode.code := by
      rw [hc]
      cases h : s.mge.mode <;> simp only [now, h] <;> rfl
    have run := exec_servingRacks (c := .setHallMode) (by rfl) serving (setHallMode_of_same same)
    rw [same]
    exact run
  · have run := exec_servingRacks (c := .setHallMode) (by rfl) serving (setHallMode_closes hc mode)
    have all := closeAll_spec false placed
    have changed := modeChanged s (putMode .closed (closeAll false s))
    obtain ⟨v, hv⟩ : ∃ v, v = putMode .closed (closeAll false s) := ⟨_, rfl⟩
    have eq : closeHall s = refreshAll v := by
      rw [hv]
      rfl
    rw [← hv] at changed
    have moded : KeepsAllBut [.mode] (closeAll false s) v := hv ▸ putMode_keeps .refl (by decide)
    have mge : v.mge = { s.mge with mode := .closed } := by
      have kept : (closeAll false s).mge = s.mge := all.keeps.mge_eq (by decide) (by decide) (by decide) (by decide)
      rw [hv]
      show { (closeAll false s).mge with mode := HallMode.closed } = _
      rw [kept]
    have before (r : Fin 12) : v.sched r = s.sched r :=
      (moded.sched_eq (by decide) r).trans (all.keeps.sched_eq (by decide) r)
    obtain ⟨u, hu⟩ : ∃ u, u = rackSender (refreshAll v) := ⟨_, rfl⟩
    rw [← hu] at changed
    have after : u.mge = v.mge := changed.keeps.mge_eq (by decide) (by decide) (by decide) (by decide)
    have kept : KeepsAllBut [.mode, .sched, .bays, .sender, .egress] (closeAll false s) u :=
      (moded.mono (by decide)).trans (changed.keeps.mono (by decide))
    have tours (k : Fin 16) : u.tour k = (closeAll false s).tour k := kept.tour_eq (by decide) k
    refine ⟨u, ?_, after.trans mge, fun k hk => ?_, fun k hk => ?_, changed.racks before, all.keeps.mono (by decide) |>.trans
      (kept.mono (by decide))⟩
    · have refreshed : (refreshAll v).mge = v.mge :=
        (refreshAll_spec v).keeps.mge_eq (by decide) (by decide) (by decide) (by decide)
      have data : enc8 (refreshAll v).mge.mode.code ++ enc8 (runningTours s) =
          [0#8, BitVec.ofNat 8 ((indices 16).filter fun k =>
            decide ((s.tour k).live.phase = .live ∨ (s.tour k).live.phase = .closing)).length] := by
        rw [refreshed, mge, runningTours_eq]
        rfl
      rw [modeReply, eq] at run
      dsimp only at run
      rw [data, ← hu] at run
      exact run
    · have running : isRunning (s.tour k) = true := isRunning_iff.2 hk
      obtain ⟨live, plan, timing⟩ := all.closed k running
      rw [tours]
      refine ⟨live, plan, timing, fun h r hr hs => ?_, fun e c he => ?_⟩
      · rw [kept.receiver_eq (by decide)]
        exact all.receiver h r k hr hs running
      · rw [kept.channel_eq (by decide), all.channel, if_pos ⟨k, running, mem_tourChannels_iff.2 ⟨e, he⟩⟩]
        rfl
    · rw [tours]
      exact all.others k (Bool.eq_false_iff.2 (mt isRunning_iff.1 hk))
  · have run := exec_servingRacks (c := .setHallMode) (by rfl) serving (setHallMode_opens hc mode)
    have changed := modeChanged s (airPrograms (putMode .opened s))
    obtain ⟨v, hv⟩ : ∃ v, v = airPrograms (putMode .opened s) := ⟨_, rfl⟩
    have eq : openHall s = refreshAll v := by
      rw [hv]
      rfl
    rw [← hv] at changed
    have aired : KeepsAllBut [.mode, .programs] s v := hv ▸ withMxr_keeps (putMode_keeps .refl (by decide)) (by decide)
    have mge : v.mge = { s.mge with mode := .opened } := by
      rw [hv]
      rfl
    obtain ⟨u, hu⟩ : ∃ u, u = rackSender (refreshAll v) := ⟨_, rfl⟩
    rw [← hu] at changed
    have after : u.mge = v.mge := changed.keeps.mge_eq (by decide) (by decide) (by decide) (by decide)
    refine ⟨u, ?_, after.trans mge, fun p => ?_, changed.racks fun r => aired.sched_eq (by decide) r,
      (aired.mono (by decide)).trans (changed.keeps.mono (by decide))⟩
    · have refreshed : (refreshAll v).mge = v.mge :=
        (refreshAll_spec v).keeps.mge_eq (by decide) (by decide) (by decide) (by decide)
      have data : enc8 (refreshAll v).mge.mode.code ++ enc8 0 = [1#8, 0#8] := by
        rw [refreshed, mge]
        rfl
      rw [modeReply, eq] at run
      dsimp only at run
      rw [data, ← hu] at run
      exact run
    · rw [changed.keeps.program_eq (by decide), hv, airPrograms_program]
      rfl

end Sys2Proof.Machine
end

section
/-! What the rack sender makes of pending bays: all of them over a link that is DOWN, one over a link that is UP
(R132, R164). -/

namespace Sys2Proof.Machine

open Sys2Proof

variable {s t u : State}

/-! ### Bays the sender may not serve -/

theorem sendCommand_bay (r : Fin 12) (b : Fin 24) (s : State) (a : Fin 288) : (sendCommand r b s).bay a =
    if a = bayAddress r b then { s.bay a with pending := false } else s.bay a := by
  have kept : KeepsAllBut [.egress, .sender] (buildCommand r b s) (sendCommand r b s) := by
    rw [sendCommand_eq]
    exact handOver_keeps .refl (by decide) (by simp [told, commandFrame])
  rw [kept.bay_eq (by decide), buildCommand_bay]

theorem sendCommand_keepsParts (r : Fin 12) (b : Fin 24) (s : State) :
    KeepsAllBut [.bays, .sender, .egress] s (sendCommand r b s) := sendCommand_keeps .refl (by decide) (by decide) (by decide)

/-- A bay of a rack that is not ONLINE is not served (R132). -/
theorem rackSender_bay_of_offline {r : Fin 12} (h : (s.rack r).live.phase ≠ .online) (b : Fin 24) :
    (rackSender s).bay (bayAddress r b) = s.bay (bayAddress r b) := by
  have run (n : Nat) (s : State) (h : (s.rack r).live.phase ≠ .online) :
      (runSender n s).bay (bayAddress r b) = s.bay (bayAddress r b) := by
    induction n generalizing s with
    | zero => rfl
    | succ n ih =>
      rw [runSender]
      split
      · rfl
      split
      · rfl
      next r' b' hn =>
        have rack := (sendCommand_keepsParts r' b' s).rack_eq (by decide) (by decide) r
        rw [ih _ (by rw [rack]; exact h), sendCommand_bay, if_neg]
        intro e
        obtain ⟨rfl, -⟩ := bayAddress_inj.1 e
        exact h (nextServed_spec hn).1
  exact run 289 s h

/-! ### A link that is DOWN -/

/-- The number of pending bays. -/
def pendingBays (s : State) : Nat := ((indices 288).filter fun a => (s.bay a).pending).length

theorem pendingBays_sendCommand {r : Fin 12} {b : Fin 24} (h : (s.bay (bayAddress r b)).pending = true) :
    pendingBays (sendCommand r b s) + 1 = pendingBays s := by
  have count := length_filter_update (List.nodup_finRange 288) (List.mem_finRange (bayAddress r b))
    (fun a => ((sendCommand r b s).bay a).pending) (fun a => (s.bay a).pending)
    fun a ha => by rw [sendCommand_bay, if_neg ha]
  rw [sendCommand_bay, if_pos rfl, h] at count
  exact count

/-- Over a link that is DOWN the sender goes on until no bay of an ONLINE rack is pending. -/
theorem runSender_linkDown (n : Nat) (s : State) (down : s.hli.linkUp = false) (idle : s.rpl.senderHolds = false)
    (rounds : pendingBays s < n) : nextServed (runSender n s) = none := by
  induction n generalizing s with
  | zero => exact absurd rounds (Nat.not_lt_zero _)
  | succ n ih =>
    cases hn : nextServed s with
    | none => rw [runSender_of_none _ hn]; exact hn
    | some x =>
      obtain ⟨r, b⟩ := x
      rw [runSender_of_some n idle hn]
      have fewer := pendingBays_sendCommand (nextServed_spec hn).2
      refine ih _ ?_ ?_ (by omega)
      · rw [sendCommand_linkDown down]
        exact down
      · rw [sendCommand_linkDown down]
        rfl

theorem rackSender_linkDown (down : s.hli.linkUp = false) (idle : s.rpl.senderHolds = false) {r : Fin 12}
    (online : (s.rack r).live.phase = .online) (b : Fin 24) : ((rackSender s).bay (bayAddress r b)).pending = false := by
  have rounds : pendingBays s < 289 := by
    have := List.length_filter_le (fun a => (s.bay a).pending) (indices 288)
    rw [List.length_finRange] at this
    exact Nat.lt_succ_of_le this
  refine nextServed_eq_none_iff.1 (runSender_linkDown 289 s down idle rounds) r b ?_
  have rack := (rackSender_keepsParts s).rack_eq (by decide) (by decide) r
  exact (congrArg (fun x => x.live.phase) rack).trans online

/-! ### A link that is UP -/

/-- What the sender leaves of the arbiter's class 1 and counters: with nothing in class 1, nothing (R132, R165). -/
theorem rackSender_class1 (h : s.hli.class1 = []) : (rackSender s).hli.class1 = [] ∧
    (s.hli.linkUp = true → (rackSender s).hli.counters = s.hli.counters) := by
  cases up : s.hli.linkUp with
  | false =>
    obtain ⟨d, hd, -⟩ := runSender_linkDown_hli 289 s up
    have hli : (rackSender s).hli = _ := hd
    exact ⟨by rw [hli]; exact h, nofun⟩
  | true =>
    cases holds : s.rpl.senderHolds with
    | true => rw [rackSender_of_holds holds]; exact ⟨h, fun _ => rfl⟩
    | false =>
      cases hn : nextServed s with
      | none => rw [rackSender_of_none hn]; exact ⟨h, fun _ => rfl⟩
      | some x =>
        rw [rackSender_linkUp holds hn up, sendCommand_linkUp up]
        have queued := enqueue_notProgram (f := commandFrame x.1 x.2 s) (h := s.hli) rfl
        have fields := startPlacing_fields (enqueue (commandFrame x.1 x.2 s) s.hli)
        refine ⟨?_, fun _ => fields.2.trans queued.2.2.2⟩
        exact (startPlacing_class1 (.inr (queued.1.trans h))).trans (queued.1.trans h)

/-- The one bay that the sender takes over a link that is UP where every bay is pending: the rack first in its turn, and in it
the bay after the last served (R132). -/
theorem rackSender_all_pending (up : s.hli.linkUp = true) (idle : s.rpl.senderHolds = false)
    (all : ∀ a, (s.bay a).pending = true) {r : Fin 12} (online : (s.rack r).live.phase = .online)
    (first : ∀ r', (s.rack r').live.phase = .online → turnPlace s.rpl.lastRack r ≤ turnPlace s.rpl.lastRack r') :
    (rackSender s).rpl.senderHolds = true ∧ (rackSender s).rpl.lastRack = r ∧ ∀ r' b,
      ((rackSender s).bay (bayAddress r' b)).pending =
        !(decide (r' = r) && decide (b.val = ((s.rpl.lastBay.get r).val + 1) % 24)) := by
  obtain ⟨next, hnext⟩ : ∃ next : Fin 24, next.val = ((s.rpl.lastBay.get r).val + 1) % 24 := ⟨⟨_, Nat.mod_lt _ (by decide)⟩, rfl⟩
  have place : turnPlace (s.rpl.lastBay.get r) next = 0 := by
    rw [turnPlace, hnext]
    omega
  have served : nextServed s = some (r, next) := nextServed_eq_some online (all _) fun r' b' ho _ =>
    ⟨first r' ho, fun _ => by rw [place]; exact Nat.zero_le _⟩
  rw [rackSender_linkUp idle served up]
  refine ⟨by rw [sendCommand_linkUp up]; rfl, by rw [sendCommand_linkUp up]; rfl, fun r' b => ?_⟩
  rw [sendCommand_bay]
  by_cases h : r' = r ∧ b = next
  · obtain ⟨rfl, rfl⟩ := h
    simp [hnext]
  · rw [if_neg fun e => h (bayAddress_inj.1 e), all]
    have : ¬ (r' = r ∧ b.val = ((s.rpl.lastBay.get r).val + 1) % 24) := fun ⟨e, hb⟩ =>
      h ⟨e, Fin.ext (hb.trans hnext.symm)⟩
    rw [← Bool.decide_and, decide_eq_false this]
    rfl

end Sys2Proof.Machine
end

section
/-! O48: RESTART closes tours, empties queues, zeroes counters and keeps the settings (R184). -/

namespace Sys2Proof.Machine

open Sys2Proof

variable {s t u : State} {slot : Fin 16}

/-! ### The nine steps -/

/-- The state of RESTART up to the refreshed racks (R184 steps 1 to 4). -/
def restartClosed (s : State) : State := emptyClass1 (putMode .closed (closeAll true s))

/-- The state of RESTART before the counters are zeroed (R184 steps 1 to 8). -/
def restartEmptied (s : State) : State :=
  restartEvents (restartPrograms (restartSources (markAllPending (refreshAll (restartClosed s)))))

theorem restartHub_eq (s : State) : restartHub s = zeroCounters (restartEmptied s) := rfl

/-- What steps 1 to 3 of RESTART leave of everything but tours, zones and receivers. -/
structure RestartClosed (s t : State) : Prop where
  keeps : KeepsAllBut [.mode, .egress] (closeAll true s) t
  mge : t.mge = { s.mge with mode := .closed }
  class1 : t.hli.class1 = []

theorem restartClosed_spec (placed : ZonesPlaced s) : RestartClosed s (restartClosed s) := by
  refine ⟨emptyClass1_keeps (putMode_keeps .refl (by decide)) (by decide), ?_, rfl⟩
  have kept : (closeAll true s).mge = s.mge :=
    (closeAll_spec true placed).keeps.mge_eq (by decide) (by decide) (by decide) (by decide)
  show { (closeAll true s).mge with mode := HallMode.closed } = _
  rw [kept]

theorem markAllPending_bay (s : State) (a : Fin 288) : (markAllPending s).bay a = { s.bay a with pending := true } :=
  Tab.get_map _ _ a

theorem restartSources_source (s : State) (i : Fin 48) :
    (restartSources s).source i = (s.source i).map fun x => { x with live := .initial } := Tab.get_map _ _ i

theorem restartPrograms_program (s : State) (p : Fin 32) :
    (restartPrograms s).program p = { s.program p with duck := Config.unity, clipped := 0 } := Tab.get_map _ _ p

theorem zeroCounters_rack (s : State) (r : Fin 12) :
    (zeroCounters s).rack r = { s.rack r with live := { (s.rack r).live with counters := .zero } } := Tab.get_map _ _ r

/-- What RESTART leaves before the rack sender acts (R184). -/
structure Restarted (s v : State) : Prop where
  keeps : KeepsAllBut [.mode, .sched, .sources, .fleetCounters, .rackLives, .unroutedRack, .bays, .programs, .events, .egress,
    .requests] (closeAll true s) v
  mge : v.mge = { s.mge with mode := .closed, received := 0, busyReplies := 0, badRequests := 0 }
  evq : v.evq = { s.evq with queue := [], overflow := false, drops := 0 }
  class1 : v.hli.class1 = []
  counters : v.hli.counters = .zero
  source : ∀ i, v.source i = (s.source i).map fun r => { r with live := .initial }
  program : ∀ p, v.program p = { (closeAll true s).program p with duck := Config.unity, clipped := 0 }
  fleet : v.flt.unknownDocks = 0 ∧ v.flt.unplannedTakes = 0 ∧ v.flt.lateReturns = 0 ∧ v.rpl.unroutedRack = 0
  rack : ∀ r, v.rack r = { s.rack r with live := { (s.rack r).live with counters := .zero } }
  sched : ∀ r, (v.sched r).counters = .zero ∧ Resynced s v r
  pending : ∀ a, (v.bay a).pending = true

theorem restartHub_spec (placed : ZonesPlaced s) : Restarted s (restartHub s) := by
  have all := closeAll_spec true placed
  have closed := restartClosed_spec placed
  have refreshed := refreshAll_spec (restartClosed s)
  obtain ⟨c, hc⟩ : ∃ c, c = restartClosed s := ⟨_, rfl⟩
  rw [← hc] at closed refreshed
  obtain ⟨f, hf⟩ : ∃ f, f = refreshAll c := ⟨_, rfl⟩
  rw [← hf] at refreshed
  have eq : restartEmptied s = restartEvents (restartPrograms (restartSources (markAllPending f))) := by rw [hf, hc]; rfl
  rw [restartHub_eq, eq]
  have marked : KeepsAllBut [.bays, .sources, .programs, .events] f
      (restartEvents (restartPrograms (restartSources (markAllPending f)))) :=
    restartEvents_keeps (restartPrograms_keeps (restartSources_keeps (markAllPending_keeps .refl (by decide)) (by decide))
      (by decide)) (by decide)
  have before : KeepsAllBut [.mode, .receivers, .bays, .tours, .programs, .zones, .events, .egress, .sched] s f :=
    (all.keeps.mono (by decide)).trans ((closed.keeps.mono (by decide)).trans (refreshed.keeps.mono (by decide)))
  have early : KeepsAllBut [.mode, .egress, .sched, .bays] (closeAll true s) f :=
    (closed.keeps.mono (by decide)).trans (refreshed.keeps.mono (by decide))
  have fmge : f.mge = c.mge := refreshed.keeps.mge_eq (by decide) (by decide) (by decide) (by decide)
  have fhli : f.hli = c.hli := refreshed.keeps.hli_eq (by decide)
  obtain ⟨e, he⟩ : ∃ e, e = restartEvents (restartPrograms (restartSources (markAllPending f))) := ⟨_, rfl⟩
  have emge : e.mge = f.mge := by rw [he]; rfl
  have ehli : e.hli = f.hli := by rw [he]; rfl
  have eevq : e.evq = { f.evq with queue := [], overflow := false, drops := 0 } := by rw [he]; rfl
  have esource (i : Fin 48) : e.source i = (f.source i).map fun x => { x with live := .initial } := by
    rw [he]
    exact restartSources_source (markAllPending f) i
  have eprogram (p : Fin 32) : e.program p = { f.program p with duck := Config.unity, clipped := 0 } := by
    rw [he]
    exact restartPrograms_program (restartSources (markAllPending f)) p
  have ebay (a : Fin 288) : e.bay a = { f.bay a with pending := true } := by
    rw [he]
    exact markAllPending_bay f a
  rw [← he] at marked ⊢
  have zeroed : KeepsAllBut [.fleetCounters, .rackLives, .unroutedRack, .sched, .egress, .requests] e (zeroCounters e) :=
    zeroCounters_keeps .refl (by decide) (by decide) (by decide) (by decide) (by decide) (by decide)
  have racks (r : Fin 12) : e.rack r = s.rack r :=
    (marked.rack_eq (by decide) (by decide) r).trans (before.rack_eq (by decide) (by decide) r)
  refine ⟨(early.mono (by decide)).trans ((marked.mono (by decide)).trans (zeroed.mono (by decide))), ?_, ?_, ?_, rfl,
    fun i => ?_, fun p => ?_, ⟨rfl, rfl, rfl, rfl⟩, fun r => ?_, fun r => ⟨?_, ?_⟩, fun a => ?_⟩
  · show { e.mge with received := 0, busyReplies := 0, badRequests := 0 } = _
    rw [emge, fmge, closed.mge]
  · have evq : (zeroCounters e).evq = e.evq := rfl
    have enables : f.evq.enables = s.evq.enables := before .enables (by decide)
    have desk : f.evq.desk = s.evq.desk := before .desk (by decide)
    rw [evq, eevq]
    dsimp only
    rw [enables, desk]
  · show e.hli.class1 = []
    rw [ehli, fhli, closed.class1]
  · have source : (zeroCounters e).source i = e.source i := zeroed.source_eq (by decide) i
    rw [source, esource, before.source_eq (by decide) i]
  · rw [zeroed.program_eq (by decide), eprogram, early.program_eq (by decide)]
  · rw [zeroCounters_rack, racks]
  · rw [zeroCounters_sched]
  · have sched : (zeroCounters e).sched r = { f.sched r with counters := .zero } := by
      rw [zeroCounters_sched, marked.sched_eq (by decide)]
    have cs : c.sched r = s.sched r := (closed.keeps.sched_eq (by decide) r).trans (all.keeps.sched_eq (by decide) r)
    refine (refreshed.resynced r).of_keeps (ps := [.bays, .sources, .programs, .events, .fleetCounters, .rackLives,
      .unroutedRack, .sched, .egress, .requests]) cs.symm ((marked.mono (by decide)).trans (zeroed.mono (by decide))) (by decide)
      ⟨_, sched⟩ fun a => ?_
    rw [zeroed.bay_eq (by decide), ebay]
  · rw [zeroed.bay_eq (by decide), ebay]

/-! ### RESTART -/

/-- A program that keeps its mixing fields, with the duck factor and the clipped counter of a restart. -/
theorem mixing_restarted {p q x : Program} (h : SameMixing p q) (hx : x = { q with duck := 32768, clipped := 0 }) :
    x = { p with duck := 32768, clipped := 0, owner := x.owner, fallback := x.fallback, binding := x.binding } := by
  obtain ⟨installed, pending, staged, -, -⟩ := h
  subst hx
  cases p
  cases q
  cases installed
  cases pending
  cases staged
  rfl

theorem named_restarted {q x : Program} (hx : x = { q with duck := 32768, clipped := 0 }) :
    x.owner = q.owner ∧ x.fallback = q.fallback := by
  subst hx
  exact ⟨rfl, rfl⟩

/-- Settles O48: the nine steps in turn, and the rack sender's act on the bays that all are pending. -/
theorem restartResetsBlocks : Obligations.RestartResetsBlocks := by
  unfold Obligations.RestartResetsBlocks
  intro s req serving placed
  have run := exec_servingRacks (c := .restart) (owner := restart) (x := answer .done (restartHub s)) (by rfl) serving rfl
  have all := closeAll_spec true placed
  have restarted := restartHub_spec placed
  obtain ⟨v, hv⟩ : ∃ v, v = restartHub s := ⟨_, rfl⟩
  rw [← hv] at run restarted
  have sent := rackSender_keepsParts v
  have kept : KeepsAllBut [.mode, .sched, .sources, .fleetCounters, .rackLives, .unroutedRack, .bays, .programs, .events,
      .egress, .sender, .requests] (closeAll true s) (rackSender v) :=
    (restarted.keeps.mono (by decide)).trans (sent.mono (by decide))
  have whole : KeepsAllBut [.mode, .sched, .sources, .fleetCounters, .rackLives, .unroutedRack, .receivers, .bays, .tours,
      .programs, .zones, .events, .egress, .sender, .requests] s (rackSender v) :=
    (all.keeps.mono (by decide)).trans (kept.mono (by decide))
  have tour (k : Fin 16) : (rackSender v).tour k = (closeAll true s).tour k := kept.tour_eq (by decide) k
  have channel (c : Fin 24) : (rackSender v).channel c = (closeAll true s).channel c := kept.channel_eq (by decide) c
  have program (p : Fin 32) : (rackSender v).program p = { (closeAll true s).program p with duck := 32768, clipped := 0 } :=
    (sent.program_eq (by decide) p).trans (restarted.program p)
  have rack (r : Fin 12) : (rackSender v).rack r = { s.rack r with live := { (s.rack r).live with counters := .zero } } :=
    (sent.rack_eq (by decide) (by decide) r).trans (restarted.rack r)
  have sched (r : Fin 12) : (rackSender v).sched r = v.sched r := sent.sched_eq (by decide) r
  have phase (r : Fin 12) : (v.rack r).live.phase = (s.rack r).live.phase := by rw [restarted.rack]
  have senders : v.rpl.senderHolds = s.rpl.senderHolds ∧ v.rpl.lastRack = s.rpl.lastRack ∧ v.rpl.lastBay = s.rpl.lastBay := by
    have early : KeepsAllBut [.mode, .sched, .sources, .fleetCounters, .rackLives, .unroutedRack, .receivers, .bays, .tours,
      .programs, .zones, .events, .egress, .requests] s v := (all.keeps.mono (by decide)).trans (restarted.keeps.mono (by decide))
    exact early .sender (by decide)
  have link : v.hli.linkUp = s.hli.linkUp := by
    have first : (closeAll true s).hli.linkUp = s.hli.linkUp := all.keeps .link (by decide)
    exact (restarted.keeps .link (by decide)).trans first
  obtain ⟨holds, lastRack, lastBay⟩ := senders
  obtain ⟨class1, counters⟩ := rackSender_class1 restarted.class1
  obtain ⟨unknown, unplanned, late, unrouted⟩ := restarted.fleet
  obtain ⟨sameUnknown, sameUnplanned, sameLate⟩ := sent .fleetCounters (by decide)
  refine ⟨rackSender v, run, (sent.mge_eq (by decide) (by decide) (by decide) (by decide)).trans restarted.mge,
    (sent.evq_eq (by decide)).trans restarted.evq, class1, fun i => (sent.source_eq (by decide) i).trans (restarted.source i),
    fun p => ?_, fun k hk => ?_, fun k hk => ?_, fun c hc => ?_, ?_, fun r => ?_, fun h a => ?_, fun h down r b online => ?_,
    fun r h up online first => ?_, whole⟩
  · exact mixing_restarted (all.mixing p) (program p)
  · have running := isRunning_iff.2 hk
    obtain ⟨live, plan, timing⟩ := all.closed k running
    rw [tour]
    refine ⟨live, plan, timing, fun p e x hp hx => ?_, fun h r hr hs => ?_⟩
    · obtain ⟨owner, fallback⟩ := all.disowned k running x.program ⟨p, e, x, hp, hx, rfl⟩
      obtain ⟨sameOwner, sameFallback⟩ := named_restarted (program x.program)
      exact ⟨sameOwner.trans owner, sameFallback.trans fallback⟩
    · rw [kept.receiver_eq (by decide)]
      exact all.receiver h r k hr hs running
  · have idle : isRunning (s.tour k) = false := by
      rcases hk with hk | hk <;> simp [isRunning, hk]
    rw [tour, all.others k idle]
  · rw [channel, all.channel, if_neg]
    rintro ⟨k, -, hm⟩
    obtain ⟨e, he⟩ := mem_tourChannels_iff.1 hm
    rw [((placed.2.2.1 k).1 e c he).1] at hc
    cases hc
  · refine ⟨sameUnknown.trans unknown, sameUnplanned.trans unplanned, sameLate.trans late, ?_, fun up => ?_⟩
    · exact (sent .unroutedRack (by decide)).trans unrouted
    · exact (counters (link.trans up)).trans restarted.counters
  · obtain ⟨zero, resynced⟩ := restarted.sched r
    obtain ⟨capacity, -, -, -, again⟩ := resynced
    have capacityOf_ : capacityOf (rackSender v) r = capacityOf v r :=
      sent.capacityOf_eq (by decide) (by decide) (by decide) (by rw [sched])
    refine ⟨by rw [rack], by rw [rack]; rfl, by rw [sched, zero]; rfl, by rw [sched, capacityOf_, capacity], fun ho b => ?_,
      fun he => ?_⟩
    · rw [rackSender_bay_of_offline (by rw [phase]; exact ho)]
      exact restarted.pending _
    · obtain ⟨postponed, pulledIn, round, -⟩ := again (by rw [restarted.rack]; exact he)
      rw [sched]
      exact ⟨postponed, pulledIn, round⟩
  · rw [rackSender_of_holds (holds.trans h)]
    exact restarted.pending a
  · exact rackSender_linkDown (link.trans down) (holds.trans h) (by rw [phase]; exact online) b
  · have out := rackSender_all_pending (s := v) (r := r) (link.trans up) (holds.trans h) restarted.pending
      (by rw [phase]; exact online) fun r' ho => by
        rw [lastRack]
        have := first r' (by rw [← phase]; exact ho)
        exact this
    rw [lastBay] at out
    exact out

end Sys2Proof.Machine
end

section
/-! What a BAY STATUS does ahead of its reading: the answer of a poll and the temperature leave what the bays hold, and a bay
without an active turn keeps its settle (R117, R120, R127, R151). -/

namespace Sys2Proof.Machine

open Sys2Proof

variable {s t u : State} {a : Fin 288}

/-! ### Bays judged afresh -/

/-- Bays differ at most in mode, pending and served flag, and neither the turns nor the modes of their bays change. -/
structure Remoded (s t : State) : Prop where
  bay : ∀ a, ∃ m p v, t.bay a = { s.bay a with mode := m, pending := p, served := v } ∧
    (¬ NoTurn s a → m = (s.bay a).mode)
  active : ∀ r, (t.sched r).active = (s.sched r).active

namespace Remoded

theorem noTurn (h : Remoded s t) : NoTurn t a ↔ NoTurn s a := by
  unfold NoTurn
  rw [h.active]

theorem refl (s : State) : Remoded s s := ⟨fun _ => ⟨_, _, _, rfl, fun _ => rfl⟩, fun _ => rfl⟩

theorem trans (h : Remoded s t) (k : Remoded t u) : Remoded s u := by
  refine ⟨fun a => ?_, fun r => (k.active r).trans (h.active r)⟩
  obtain ⟨m, p, v, first, kept⟩ := h.bay a
  obtain ⟨m', p', v', second, kept'⟩ := k.bay a
  refine ⟨m', p', v', by rw [second, first], fun hn => ?_⟩
  rw [kept' (mt h.noTurn.1 hn), first]
  exact kept hn

theorem of_keeps {ps : List Part} (k : KeepsAllBut ps s t) (hp : Part.bays ∉ ps ∧ Part.sched ∉ ps) : Remoded s t :=
  ⟨fun a => ⟨_, _, _, k.bay_eq hp.1 a, fun _ => rfl⟩, fun r => congrArg Sched.active (k.sched_eq hp.2 r)⟩

theorem forEach {α : Type} {f : α → State → State} (hf : ∀ x s, Remoded s (f x s)) (xs : List α) (s : State) :
    Remoded s (forEach xs f s) := by
  induction xs generalizing s with
  | nil => exact .refl s
  | cons x xs ih => exact (hf x s).trans (ih _)

theorem putSched {r : Fin 12} {q : Sched} (h : q.active = (s.sched r).active) : Remoded s (s.putSched r q) := by
  refine ⟨fun _ => ⟨_, _, _, rfl, fun _ => rfl⟩, fun r' => ?_⟩
  rw [State.putSched_sched]
  split
  next e => rw [e, h]
  next => rfl

theorem flags (s : State) (a : Fin 288) (p v : Bool) :
    Remoded s (s.putBay a { s.bay a with pending := p, served := v }) := by
  refine ⟨fun a' => ?_, fun _ => rfl⟩
  rw [State.putBay_bay]
  split
  next h => exact ⟨_, _, _, by rw [h], fun _ => rfl⟩
  next => exact ⟨_, _, _, rfl, fun _ => rfl⟩

theorem judge (h : NoTurn s a) : Remoded s (judge a s) := by
  have k := setMode_keeps (ps := [.bays]) (a := a) (m := judgedMode s a) (t := s) .refl (by decide)
  refine ⟨fun a' => ?_, fun r => congrArg Sched.active (k.sched_eq (by decide) r)⟩
  obtain ⟨p, hp⟩ := setMode_bay a (judgedMode s a) s a'
  exact ⟨_, p, _, hp, fun hn => if_neg fun (e : a' = a) => hn (e ▸ h)⟩

theorem judgeRack (rack : Fin 12) (s : State) : Remoded s (judgeRack rack s) := by
  refine forEach (fun b t => ?_) _ s
  cases ht : turnOn t rack b with
  | some turn => exact .refl t
  | none => exact judge (turnOn_eq_none.1 (by rwa [rackOf_bayAddress, bayNumber_bayAddress]))

theorem newRound (rack : Fin 12) (s : State) : Remoded s (newRound rack s) :=
  (forEach (fun b u => flags u (bayAddress rack b) (u.bay (bayAddress rack b)).pending false) _ s).trans (putSched (by rfl))

theorem markRackPending (rack : Fin 12) (s : State) : Remoded s (markRackPending rack s) :=
  forEach (fun b u => flags u (bayAddress rack b) true (u.bay (bayAddress rack b)).served) _ s

theorem restartCadence (rack : Fin 12) (s : State) : Remoded s (restartCadence rack s) := putSched (by rfl)

theorem resync (rack : Fin 12) (s : State) : Remoded s (resync rack s) :=
  (((newRound rack s).trans (putSched (by rfl))).trans (judgeRack _ _)).trans (restartCadence _ _)

theorem putRackLive (rack : Fin 12) (x : RackLive) (s : State) : Remoded s (s.putRackLive rack x) :=
  .of_keeps (putRackLive_keeps (ps := [.rackLives]) .refl (by decide)) (by decide)

theorem raiseEvent (k : EventKind) (n : Nat) (r : Option (BitVec 16)) (d : Nat) (s : State) :
    Remoded s (raiseEvent k n r d s) :=
  .of_keeps (raiseEvent_keeps (ps := [.events, .egress]) .refl (by decide) (by decide)) (by decide)

theorem rackOnline (rack : Fin 12) (n : Nat) (s : State) : Remoded s (rackOnline rack n s) :=
  (((putRackLive rack _ s).trans (raiseEvent _ _ _ _ _)).trans (markRackPending rack _)).trans (resync rack _)

theorem settlePoll (rack : Fin 12) (b : Fin 24) (s : State) : Remoded s (settlePoll rack b s) := by
  unfold Machine.settlePoll
  dsimp only
  split
  · split
    · exact ((putRackLive _ _ s).trans (rackOnline _ _ _)).trans (putRackLive _ _ _)
    · exact (putRackLive _ _ s).trans (putRackLive _ _ _)
  split
  · exact putRackLive _ _ s
  · exact .refl s

theorem holding (h : Remoded s t) (a : Fin 288) : SameHolding (s.bay a) (t.bay a) := by
  obtain ⟨m, p, v, after, -⟩ := h.bay a
  rw [after]
  exact ⟨rfl, rfl, rfl, rfl, rfl, rfl, rfl, rfl, rfl, rfl, rfl⟩

end Remoded

/-! ### Turns that end elsewhere -/

/-- What every bay holds is kept, a settle that runs at bay `a` keeps running, and without an active turn there that bay
takes none and keeps its settle and its settle end. -/
structure Spared (s t : State) (a : Fin 288) : Prop where
  holding : ∀ a', SameHolding (s.bay a') (t.bay a')
  settle : (s.bay a).settle = .dock ∨ (s.bay a).settle = .turn → (t.bay a).settle = (s.bay a).settle
  noTurn : NoTurn s a → NoTurn t a
  idle : NoTurn s a → (t.bay a).settle = (s.bay a).settle ∧ (t.bay a).settleEnds = (s.bay a).settleEnds

theorem Remoded.spared (h : Remoded s t) (a : Fin 288) : Spared s t a := by
  obtain ⟨m, p, v, after, -⟩ := h.bay a
  refine ⟨h.holding, fun _ => ?_, h.noTurn.2, fun _ => ?_⟩
  · rw [after]
  · rw [after]
    exact ⟨rfl, rfl⟩

theorem Spared.trans (h : Spared s t a) (k : Spared t u a) : Spared s u a where
  holding a' := (h.holding a').trans (k.holding a')
  settle hs := (k.settle (by rwa [h.settle hs])).trans (h.settle hs)
  noTurn hn := k.noTurn (h.noTurn hn)
  idle hn := by
    obtain ⟨s1, e1⟩ := h.idle hn
    obtain ⟨s2, e2⟩ := k.idle (h.noTurn hn)
    exact ⟨s2.trans s1, e2.trans e1⟩

/-- The turns that end leave a settle that runs, and touch only the bays they name. -/
theorem forEach_stopTurn_spared {rack : Fin 12} {ts : List Turn} (h : NoTurn s a → ∀ x ∈ ts, a ≠ bayAddress rack x.bay) :
    Spared s (forEach ts (fun x => stopTurn rack x.bay) s) a := by
  have held : HoldingsKept s (forEach ts (fun x => stopTurn rack x.bay) s) :=
    holdingsKept_charge.forEach (fun _ _ => holdingsKept_charge.stopTurn _ _ _) _ _
  have turns (hn : NoTurn s a) : NoTurn (forEach ts (fun x => stopTurn rack x.bay) s) a := by
    intro x hx
    rw [forEach_stopTurn_sched] at hx
    split at hx
    next hr => exact hn x (hr ▸ (List.mem_filter.1 hx).1)
    next => exact hn x hx
  have running : (s.bay a).settle = .dock ∨ (s.bay a).settle = .turn →
      ((forEach ts (fun x => stopTurn rack x.bay) s).bay a).settle = (s.bay a).settle := by
    clear h held turns
    induction ts generalizing s with
    | nil => exact fun _ => rfl
    | cons x ts ih =>
      intro hs
      have one : ((stopTurn rack x.bay s).bay a).settle = (s.bay a).settle := by
        obtain ⟨m, p, -, after⟩ := stopTurn_bay rack x.bay s
        rw [after]
        split
        · rcases hs with hs | hs
          · have : settlesTurn (s.bay a) = false := by simp [settlesTurn, hs]
            simp [this]
          · simp [hs]
        · rfl
      exact (ih (by rwa [one])).trans one
  refine ⟨held.bay, running, turns, fun hn => ?_⟩
  have away := h hn
  clear h held turns running hn
  induction ts generalizing s with
  | nil => exact ⟨rfl, rfl⟩
  | cons x ts ih =>
    obtain ⟨m, p, -, after⟩ := stopTurn_bay rack x.bay s
    have one : (stopTurn rack x.bay s).bay a = s.bay a := by rw [after, if_neg (away x (by simp))]
    obtain ⟨h1, h2⟩ := ih (s := stopTurn rack x.bay s) fun y hy => away y (List.mem_cons_of_mem x hy)
    rw [one] at h1 h2
    exact ⟨h1, h2⟩

theorem trimTurns_spared (rack : Fin 12) (n : Nat) (s : State) (a : Fin 288) : Spared s (trimTurns rack n s) a := by
  refine forEach_stopTurn_spared fun hn x hx he => ?_
  have mem : x ∈ (s.sched rack).active := List.mem_of_mem_drop (List.mem_reverse.1 hx)
  rw [he] at hn
  refine hn x ?_ ?_
  · rwa [rackOf_bayAddress]
  · rw [bayNumber_bayAddress]

theorem bandSettled_spared (rack : Fin 12) (new : Fin 8) (s : State) (a : Fin 288) : Spared s (bandSettled rack new s) a := by
  have banded : Remoded s (s.putSched rack (bandedSched new (s.chs.table.entries.get new) (s.sched rack))) := .putSched (by rfl)
  unfold bandSettled
  dsimp only
  exact ((((banded.trans (.putSched (by rfl))).spared a).trans (trimTurns_spared _ _ _ _)).trans
    ((Remoded.judgeRack _ _).spared a)).trans ((Remoded.restartCadence _ _).spared a)

theorem changeBand_spared (rack : Fin 12) (new : Fin 8) (s : State) (a : Fin 288) : Spared s (changeBand rack new s) a := by
  rw [changeBand_eq]
  split
  · exact bandSettled_spared rack new s a
  · exact (bandSettled_spared rack new s a).trans ((Remoded.raiseEvent _ _ _ _ _).spared a)

/-! ### Ahead of the reading -/

/-- Only events of polls and bands are raised. -/
def RackReports (s t : State) : Prop :=
  ∃ es, (∀ e ∈ es, e.kind = .rackOnline ∨ e.kind = .bandChange) ∧ EventsTaken es s t ∧ t.evq.enables = s.evq.enables

theorem RackReports.trans (h : RackReports s t) (k : RackReports t u) : RackReports s u := by
  obtain ⟨es, kinds, taken, enables⟩ := h
  obtain ⟨fs, kinds', taken', enables'⟩ := k
  exact ⟨es ++ fs, fun e he => (List.mem_append.1 he).elim (kinds e) (kinds' e), taken.append taken' enables,
    enables'.trans enables⟩

theorem RackReports.of_evq (h : t.evq = s.evq) : RackReports s t :=
  ⟨[], by simp, (EventsTaken.nil (s := s)).to_evq h, by rw [h]⟩

theorem RackReports.of_keeps {ps : List Part} (k : KeepsAllBut ps s t)
    (hp : Part.enables ∉ ps ∧ Part.events ∉ ps ∧ Part.desk ∉ ps) : RackReports s t := .of_evq (k.evq_eq hp)

theorem RackReports.raise {k : EventKind} (hk : k = .rackOnline ∨ k = .bandChange) (n : Nat) (r : Option (BitVec 16))
    (d : Nat) (s : State) : RackReports s (raiseEvent k n r d s) := by
  refine ⟨[⟨k, s.mge.hubTime, n, r, d⟩], fun e he => ?_, .raise_of_evq rfl rfl, ?_⟩
  · rw [List.mem_singleton.1 he]
    exact hk
  · exact raiseEvent_keeps (ps := eventParts) .refl (by decide) (by decide) .enables (by decide)

theorem settlePoll_reports (rack : Fin 12) (b : Fin 24) (s : State) : RackReports s (settlePoll rack b s) := by
  have live (r : Fin 12) (x : RackLive) (u : State) : RackReports u (u.putRackLive r x) :=
    .of_keeps (putRackLive_keeps (ps := [.rackLives]) .refl (by decide)) (by decide)
  have marked (u : State) : RackReports u (resync rack (markRackPending rack u)) :=
    .of_keeps (resync_keeps (markRackPending_keeps (ps := [.bays, .sched]) .refl (by decide)) (by decide) (by decide))
      (by decide)
  have online (n : Nat) (u : State) : RackReports u (rackOnline rack n u) :=
    ((live _ _ u).trans (.raise (.inl rfl) _ _ _ _)).trans (marked _)
  unfold settlePoll
  dsimp only
  split
  · split
    · exact ((live _ _ s).trans (online _ _)).trans (live _ _ _)
    · exact (live _ _ s).trans (live _ _ _)
  split
  · exact live _ _ s
  · exact .of_evq rfl

theorem bandSettled_keeps (rack : Fin 12) (new : Fin 8) (s : State) : KeepsAllBut [.sched, .bays] s (bandSettled rack new s) :=
  restartCadence_keeps (judgeRack_keeps (trimTurns_keeps (putSched_keeps (putSched_keeps .refl (by decide)) (by decide))
    (by decide) (by decide)) (by decide)) (by decide)

theorem takeTemperature_reports (rack : Fin 12) (temp : Int) (s : State) : RackReports s (takeTemperature rack temp s) := by
  have settled (new : Fin 8) : RackReports s (bandSettled rack new s) := .of_keeps (bandSettled_keeps rack new s) (by decide)
  unfold takeTemperature
  dsimp only
  split
  · exact .of_evq rfl
  · rw [changeBand_eq]
    split
    exacts [settled _, (settled _).trans (.raise (.inr rfl) _ _ _ _)]

/-- What stands when a reading is taken, the poll answered and the temperature stored. -/
structure ReadingReady (s u : State) (rack : Fin 12) (temp : Int) (a : Fin 288) : Prop where
  keeps : KeepsAllBut [.rackLives, .sched, .bays, .events, .egress] s u
  spared : Spared s u a
  reports : RackReports s u
  sameBand : (s.sched rack).band = some (bandFor s.chs.table (clampTemperature temp) (s.sched rack).band) → Remoded s u

theorem readingReady (rack : Fin 12) (b : Fin 24) (temp : Int) (a : Fin 288) (s : State) :
    ReadingReady s (readTemperature rack temp (settlePoll rack b s)) rack temp a := by
  obtain ⟨v, hv⟩ : ∃ v, v = (settlePoll rack b s).putRackLive rack
    { ((settlePoll rack b s).rack rack).live with temperature := some (clampTemperature temp) } := ⟨_, rfl⟩
  have eq : readTemperature rack temp (settlePoll rack b s) = takeTemperature rack (clampTemperature temp) v := by
    rw [hv]
    rfl
  have polled : Remoded s v := hv ▸ (Remoded.settlePoll rack b s).trans (.putRackLive _ _ _)
  have k : KeepsAllBut [.rackLives, .sched, .bays, .events, .egress] s v :=
    hv ▸ putRackLive_keeps (settlePoll_keeps .refl (by decide) (by decide) (by decide) (by decide) (by decide)) (by decide)
  have band : (v.sched rack).band = (s.sched rack).band := hv ▸ settlePoll_sameBands rack b s rack
  have table : v.chs.table = s.chs.table := k .bandTable (by decide)
  rw [eq]
  refine ⟨takeTemperature_keeps k (by decide) (by decide) (by decide) (by decide), (polled.spared a).trans ?_, ?_,
    fun same => ?_⟩
  · unfold takeTemperature
    dsimp only
    split
    exacts [(Remoded.refl v).spared a, changeBand_spared _ _ _ _]
  · have stored : RackReports (settlePoll rack b s) v :=
      hv ▸ .of_keeps (putRackLive_keeps (ps := [.rackLives]) .refl (by decide)) (by decide)
    exact ((settlePoll_reports rack b s).trans stored).trans (takeTemperature_reports _ _ _)
  · have still : takeTemperature rack (clampTemperature temp) v = v := if_pos (by rw [band, table]; exact same)
    rwa [still]

end Sys2Proof.Machine
end

section
/-! The electrical part of a reading: the bay, its receiver and its edges, and what the Charge Scheduler makes of it (R100, R101,
R120, R126, R129, R130, R147, R153, R154). -/

namespace Sys2Proof.Machine

open Sys2Proof

variable {s t u y : State} {a : Fin 288} {B : Bay} {p : Nat}

/-! ### The receiver and the edges of a reading -/

/-- The record of a receiver after a reading of its bay (R100, R101). -/
def measuredReceiver (p : Nat) (fault : Bool) (r : Receiver) : Receiver :=
  { r with
    level := some p, fault := fault
    short := r.short && !(decide (r.phase = .reserved) && decide (r.required.getD 0 ≤ p)) }

theorem fleetReading_known {h : Fin 384} {r : Receiver} (hp : (s.bay a).presence = .known h)
    (hl : (s.bay a).level = some p) (hr : s.receiver h = some r) :
    fleetReading a s = s.putReceiver h (some (measuredReceiver p (s.bay a).fault r)) := by
  unfold fleetReading
  dsimp only
  rw [hp, hl]
  dsimp only
  rw [hr]
  rfl

theorem fleetReading_foreign {tag : RxTag} (hp : (s.bay a).presence = .foreign tag) : fleetReading a s = s := by
  unfold fleetReading
  dsimp only
  rw [hp]

/-- The event of a signal's edge, if it has one (R130). -/
def edgeEvents (time : Nat) (a : Fin 288) (p : Nat) (was now : Bool) (rise fall : EventKind) : List EventRecord :=
  if was = now then [] else [⟨if now then rise else fall, time, a.val, none, p⟩]

theorem raiseBay_edge {time : Nat} (was now : Bool) (rise fall : EventKind) (a : Fin 288) (p : Nat)
    (ht : s.mge.hubTime = time) : EventsTaken (edgeEvents time a p was now rise fall) s
      (raiseBay (decide (was ≠ now)) (if now then rise else fall) a p s) := by
  have h := raiseBay_events (decide (was ≠ now)) (if now then rise else fall) a p ht
  unfold signalEvents at h
  unfold edgeEvents
  by_cases e : was = now <;> simpa [e] using h

/-- The edges of a reading in the order FAULT, FULL, READY. -/
def readingEdges (time : Nat) (a : Fin 288) (p : Nat) (old new : Bay) : List EventRecord :=
  edgeEvents time a p old.fault new.fault .faultRise .faultFall ++
  edgeEvents time a p old.full new.full .fullRise .fullFall ++
  edgeEvents time a p old.ready new.ready .readyRise .readyFall

theorem raiseEdges_events {time : Nat} (old : Bay) (hl : B.level = some p) (a : Fin 288) (ht : s.mge.hubTime = time) :
    EventsTaken (readingEdges time a p old B) s (raiseEdges old B a s) := by
  obtain ⟨t, ht'⟩ : ∃ t, t = raiseBay (decide (old.fault ≠ B.fault)) (if B.fault then .faultRise else .faultFall) a p s :=
    ⟨_, rfl⟩
  obtain ⟨u, hu⟩ : ∃ u, u = raiseBay (decide (old.full ≠ B.full)) (if B.full then .fullRise else .fullFall) a p t :=
    ⟨_, rfl⟩
  have kt : KeepsAllBut eventParts s t := ht' ▸ raiseBay_keeps .refl (by decide) (by decide)
  have ku : KeepsAllBut eventParts t u := hu ▸ raiseBay_keeps .refl (by decide) (by decide)
  have e1 := ht' ▸ raiseBay_edge old.fault B.fault .faultRise .faultFall a p ht
  have e2 := hu ▸ raiseBay_edge (s := t) old.full B.full .fullRise .fullFall a p ((kt .hubTime (by decide)).trans ht)
  have e3 := raiseBay_edge (s := u) old.ready B.ready .readyRise .readyFall a p
    (((kt.trans ku) .hubTime (by decide)).trans ht)
  have eq : raiseEdges old B a s =
      raiseBay (decide (old.ready ≠ B.ready)) (if B.ready then .readyRise else .readyFall) a p u := by
    rw [hu, ht']
    simp only [raiseEdges, hl]
    rfl
  rw [eq]
  exact (e1.append e2 (kt .enables (by decide))).append e3 ((kt.trans ku) .enables (by decide))

theorem raiseEdges_keepsParts (old new : Bay) (a : Fin 288) (s : State) : KeepsAllBut eventParts s (raiseEdges old new a s) :=
  raiseBay_keeps (raiseBay_keeps (raiseBay_keeps .refl (by decide) (by decide)) (by decide) (by decide)) (by decide)
    (by decide)

/-! ### The reading taken -/

/-- CHS ends the turn of a bay for a reading: FULL is set or the receiver is faulty (R147). -/
def EndsTurn (B : Bay) : Prop := B.full = true ∨ (B.fault = true ∧ ∃ n, B.presence = .known n)

/-- The bay and its receiver have taken a reading that gives the bay record `B`. -/
structure ReadingTaken (s y : State) (a : Fin 288) (B : Bay) (p : Nat) : Prop where
  present : B.presence ≠ .empty
  here : y.bay a = B
  away : ∀ a', a' ≠ a → y.bay a' = s.bay a'
  held : ∀ h, B.presence = .known h → ∃ r, s.receiver h = some r
  known : ∀ h r, B.presence = .known h → s.receiver h = some r → y.receiver h = some (measuredReceiver p B.fault r)
  others : ∀ h, B.presence ≠ .known h → y.receiver h = s.receiver h
  keeps : KeepsAllBut [.bays, .receivers, .events, .egress] s y

theorem readingTaken {x : State} (k : KeepsAllBut eventParts (s.putBay a B) x) (hp : B.presence ≠ .empty)
    (hl : B.level = some p) (held : ∀ h, B.presence = .known h → ∃ r, s.receiver h = some r) :
    ReadingTaken s (fleetReading a x) a B p := by
  have bay (a' : Fin 288) : x.bay a' = if a' = a then B else s.bay a' :=
    (k.bay_eq (by decide) a').trans (State.putBay_bay s a a' B)
  have receiver (h : Fin 384) : x.receiver h = s.receiver h := k.receiver_eq (by decide) h
  have here : x.bay a = B := (bay a).trans (if_pos rfl)
  have kx : KeepsAllBut [.bays, .receivers, .events, .egress] s x :=
    (putBay_keeps .refl (by decide)).trans (k.mono (by decide))
  have kr : KeepsAllBut [.receivers] x (fleetReading a x) := fleetReading_keeps .refl (by decide)
  refine ⟨hp, (kr.bay_eq (by decide) a).trans here, fun a' ha => ?_, held, fun h r hk hr => ?_, fun h hk => ?_,
    kx.trans (kr.mono (by decide))⟩
  · rw [kr.bay_eq (by decide) a', bay, if_neg ha]
  · rw [fleetReading_known (h := h) (r := r) (p := p) (by rw [here, hk]) (by rw [here, hl]) ((receiver h).trans hr), here,
      State.putReceiver_receiver_self]
  · cases hb : B.presence with
    | empty => exact absurd hb hp
    | foreign tag => rw [fleetReading_foreign (tag := tag) (by rw [here, hb]), receiver]
    | known n =>
      obtain ⟨r, hr⟩ := held n hb
      rw [fleetReading_known (h := n) (r := r) (p := p) (by rw [here, hb]) (by rw [here, hl]) ((receiver n).trans hr),
        State.putReceiver_receiver, if_neg, receiver]
      rintro rfl
      exact hk hb

namespace ReadingTaken

/-- A bay that has taken a reading is barred by its FAULT signal. -/
theorem barred (h : ReadingTaken s y a B p) : isBarred y a = B.fault := by
  unfold isBarred
  rw [h.here]
  cases hb : B.presence with
  | empty => exact absurd hb h.present
  | foreign tag => rfl
  | known n =>
    obtain ⟨r, hr⟩ := h.held n hb
    dsimp only
    rw [h.known n r hb hr]
    rfl

theorem trickle_iff (h : ReadingTaken s y a B p) (hn : NoTurn y a) : judgedMode y a = .trickle ↔
    B.fault = false ∧ B.full = false ∧ ∃ e, bandEntry y (rackOf a) = some e ∧ e.trickle = true := by
  rw [judgedMode, turnOn_eq_none.2 hn, if_neg (by simp), h.barred, h.here]
  cases hb : bandEntry y (rackOf a) with
  | none => cases B.fault <;> cases B.full <;> simp
  | some e => cases B.fault <;> cases B.full <;> cases he : e.trickle <;> simp [he]

/-- The bay of a receiver shown to be faulty, or of a full one, is none that selection may choose. -/
theorem not_candidate (h : ReadingTaken s y a B p) (ends : EndsTurn B) {rack : Fin 12} {b : Fin 24}
    (ha : a = bayAddress rack b) (turns : List Turn) : ¬ Candidate y rack turns b := by
  subst ha
  rintro ⟨-, -, ⟨n, r, hp, hr, hf⟩, -, -, -, full, -⟩
  rw [h.here] at hp full
  rcases ends with ends | ⟨ends, -⟩
  · rw [ends] at full
    exact absurd full (by decide)
  · obtain ⟨r', hr'⟩ := h.held n hp
    rw [h.known n r' hp hr'] at hr
    obtain rfl := Option.some.inj hr
    exact absurd (show B.fault = false from hf) (by simp [ends])

end ReadingTaken

/-! ### What the Charge Scheduler makes of it -/

/-- The receiver of a bay is faulty. -/
def receiverFaulty (s : State) (a : Fin 288) : Bool := (receiverIn s a).any Receiver.fault

theorem chargeReading_eq (a : Fin 288) (s : State) : chargeReading a s =
    if (turnOn s (rackOf a) (bayNumber a)).isSome then
      if (s.bay a).full || receiverFaulty s a then endTurn (rackOf a) (bayNumber a) s else s
    else judge a s := by
  unfold chargeReading receiverFaulty
  dsimp only
  cases receiverIn s a <;> rfl

theorem chargeReading_of_noTurn (h : NoTurn s a) : chargeReading a s = judge a s := by
  rw [chargeReading_eq, turnOn_eq_none.2 h]
  rfl

theorem turnOn_isSome_of_turn (h : ¬ NoTurn s a) : (turnOn s (rackOf a) (bayNumber a)).isSome = true :=
  Option.isSome_iff_ne_none.2 fun hn => h (turnOn_eq_none.1 hn)

theorem ReadingTaken.ends_iff (h : ReadingTaken s y a B p) :
    ((y.bay a).full || receiverFaulty y a) = true ↔ EndsTurn B := by
  rw [h.here, Bool.or_eq_true]
  refine or_congr Iff.rfl ?_
  have faulty (r : Receiver) : (receiverIn y a = some r) ↔ ∃ n, B.presence = .known n ∧ y.receiver n = some r := by
    rw [receiverIn_eq_some, h.here]
  simp only [receiverFaulty, Option.any_eq_true, faulty]
  constructor
  · rintro ⟨r, ⟨n, hp, hr⟩, hf⟩
    obtain ⟨r', hr'⟩ := h.held n hp
    rw [h.known n r' hp hr'] at hr
    obtain rfl := Option.some.inj hr
    exact ⟨hf, n, hp⟩
  · rintro ⟨hf, n, hp⟩
    obtain ⟨r, hr⟩ := h.held n hp
    exact ⟨_, ⟨n, hp, h.known n r hp hr⟩, hf⟩

theorem chargeReading_goesOn (h : ReadingTaken s y a B p) (ht : ¬ NoTurn y a) (he : ¬ EndsTurn B) :
    chargeReading a y = y := by
  rw [chargeReading_eq, if_pos (turnOn_isSome_of_turn ht), if_neg (mt h.ends_iff.1 he)]

theorem chargeReading_ends (h : ReadingTaken s y a B p) (ht : ¬ NoTurn y a) (he : EndsTurn B) :
    chargeReading a y = followTurn (rackOf a) (stopTurn (rackOf a) (bayNumber a) y) := by
  rw [chargeReading_eq, if_pos (turnOn_isSome_of_turn ht), if_pos (h.ends_iff.2 he)]
  rfl

/-- The mode of a bay whose turn ends while it is barred or full is OFF. -/
theorem stopTurn_mode_off (hb : isBarred s a = true ∨ (s.bay a).full = true) :
    ((stopTurn (rackOf a) (bayNumber a) s).bay a).mode = .off := by
  obtain ⟨q, hq⟩ : ∃ q, q = s.putSched (rackOf a) { s.sched (rackOf a) with
    active := (s.sched (rackOf a)).active.filter fun x => decide (x.bay ≠ bayNumber a) } := ⟨_, rfl⟩
  have none : turnOn q (rackOf a) (bayNumber a) = .none := turnOn_eq_none.2 (by
    intro x hx
    rw [hq, State.putSched_sched, if_pos rfl] at hx
    exact of_decide_eq_true (List.mem_filter.1 hx).2)
  have barred : isBarred q a = isBarred s a := by
    rw [hq]
    rfl
  have bay : q.bay a = s.bay a := by
    rw [hq]
    rfl
  have judged : judgedMode q a = .off := by
    rw [judgedMode, none, barred, bay, if_neg (by simp), if_pos (by simpa using hb)]
  have stopped : stopTurn (rackOf a) (bayNumber a) s = startTurnSettle a (setMode a .off q) := by
    have : stopTurn (rackOf a) (bayNumber a) s =
        startTurnSettle (bayAddress (rackOf a) (bayNumber a)) (judge (bayAddress (rackOf a) (bayNumber a)) q) := by
      rw [hq]
      rfl
    rw [this, bayAddress_rackOf, judge, judged]
  obtain ⟨p, hp⟩ := setMode_bay a .off q a
  rw [stopped, startTurnSettle_bay]
  split <;> rw [hp, if_pos rfl]

/-- A turn that ends for a reading leaves the bay OFF, in its turn settle and without a turn. -/
structure TurnLost (y t : State) (a : Fin 288) : Prop where
  settle : (t.bay a).settle = .turn
  settleEnds : (t.bay a).settleEnds = some (y.clock.now + 2000)
  mode : (t.bay a).mode = .off
  noTurn : NoTurn t a

theorem chargeReading_lost (h : ReadingTaken s y a B p) (ht : ¬ NoTurn y a) (he : EndsTurn B) (hs : B.settle = .none) :
    TurnLost y (chargeReading a y) a := by
  rw [chargeReading_ends h ht he]
  obtain ⟨w, hw⟩ : ∃ w, w = stopTurn (rackOf a) (bayNumber a) y := ⟨_, rfl⟩
  obtain ⟨m, q, -, bays⟩ := stopTurn_bay (rackOf a) (bayNumber a) y
  have settles : settlesTurn (y.bay a) = true :=
    (settlesTurn_iff _).2 (by rw [h.here, hs]; exact ⟨h.present, by simp, by simp⟩)
  have here := bays a
  rw [bayAddress_rackOf, if_pos rfl, ← hw, settles] at here
  have off : (w.bay a).mode = .off := by
    rw [hw]
    refine stopTurn_mode_off ?_
    rw [h.barred, h.here]
    exact he.elim .inr fun hf => .inl hf.1
  have noCandidate : NoCandidate w a := by
    intro rack b hab hc
    have same := (stopTurn_sameChoice (rackOf a) rack (bayNumber a) y).candidate (w.sched rack).active b
    rw [← hw] at same
    exact h.not_candidate he hab _ (same.1 hc)
  have untouched := followTurn_untouched (rackOf a) noCandidate
  obtain ⟨p', v', after⟩ := untouched.bay
  rw [← hw]
  refine ⟨by rw [after, here]; rfl, by rw [after, here]; rfl, by rw [after, off], untouched.active ?_⟩
  rw [hw]
  exact stopTurn_noTurn a y

end Sys2Proof.Machine
end

section
/-! BAY STATUS of a bay that holds the receiver shown (R120, R126, R127, R129, R130, R133). -/

namespace Sys2Proof.Machine

open Sys2Proof

variable {s t u w y z : State} {a : Fin 288} {B : Bay} {p v : Nat} {fault : Bool}

/-! ### The reading, by the settle of its bay (R126, R127) -/

/-- The bay record that a reading gives. -/
def measuredBay (s : State) (a : Fin 288) (v : Nat) (fault : Bool) : Bay := usedBay s.rpl.curve s.mge.settings v fault (s.bay a)

theorem readElectrical_used (hp : (s.bay a).presence ≠ .empty) (hs : (s.bay a).settle = .none) :
    readElectrical a v fault s = chargeReading a (fleetReading a (raiseEdges (s.bay a) (measuredBay s a v fault) a
      (s.putBay a (measuredBay s a v fault)))) := by
  unfold readElectrical
  dsimp only
  rw [if_neg hp, hs]
  rfl

theorem readElectrical_first (hp : (s.bay a).presence ≠ .empty) (hs : (s.bay a).settle = .dockEnded) :
    readElectrical a v fault s =
      judge a (fleetReading a (s.putBay a { measuredBay s a v fault with settle := .none, settleEnds := none })) := by
  unfold readElectrical
  dsimp only
  rw [if_neg hp, hs]
  rfl

theorem readElectrical_held (hs : (s.bay a).settle = .dock ∨ (s.bay a).settle = .turn) :
    readElectrical a v fault s = s := by
  unfold readElectrical
  dsimp only
  split
  · rfl
  · rcases hs with hs | hs <;> rw [hs]

/-! ### A reading used -/

/-- What a reading that is used leaves, whatever the Charge Scheduler makes of it. -/
structure ReadingUsed (w t : State) (a : Fin 288) (B : Bay) (p : Nat) : Prop where
  holding : SameHolding B (t.bay a)
  away : ∀ a', a' ≠ a → SameHolding (w.bay a') (t.bay a')
  known : ∀ h r, B.presence = .known h → w.receiver h = some r →
    ∃ n, t.receiver h = some { measuredReceiver p B.fault r with turnCount := n }
  keeps : KeepsAllBut [.sched, .bays, .receivers, .sender, .events, .egress] w t

theorem ReadingTaken.used (h : ReadingTaken w y a B p) (held : HoldingsKept y t) (counted : TurnsCounted y t)
    (k : KeepsAllBut [.sched, .bays, .receivers] y t) : ReadingUsed w t a B p := by
  refine ⟨h.here ▸ held.bay a, fun a' ha => h.away a' ha ▸ held.bay a', fun n r hp hr => ?_,
    (h.keeps.mono (by decide)).trans (k.mono (by decide))⟩
  obtain ⟨c, hc⟩ := counted n
  exact ⟨c, by rw [hc, h.known n r hp hr]; rfl⟩

/-- The mode is judged, and nothing else follows the reading. -/
structure ReadingJudged (w t : State) (a : Fin 288) (B : Bay) (p : Nat) : Prop extends ReadingUsed w t a B p where
  settle : (t.bay a).settle = B.settle ∧ (t.bay a).settleEnds = B.settleEnds
  mode : (t.bay a).mode ≠ .fast
  trickle : (t.bay a).mode = .trickle ↔
    B.fault = false ∧ B.full = false ∧ ∃ e, bandEntry t (rackOf a) = some e ∧ e.trickle = true
  exact : ∀ h r, B.presence = .known h → w.receiver h = some r → t.receiver h = some (measuredReceiver p B.fault r)
  others : ∀ h, B.presence ≠ .known h → t.receiver h = w.receiver h

theorem ReadingTaken.judged (h : ReadingTaken w y a B p) (hn : NoTurn y a) : ReadingJudged w (judge a y) a B p := by
  have k : KeepsAllBut [.bays] y (judge a y) := judge_keeps .refl (by decide)
  obtain ⟨q, hq⟩ := setMode_bay a (judgedMode y a) y a
  rw [if_pos rfl, h.here] at hq
  have bay : (judge a y).bay a = { B with mode := judgedMode y a, pending := q } := hq
  have band : bandEntry (judge a y) (rackOf a) = bandEntry y (rackOf a) := by
    rw [bandEntry, bandEntry, k.sched_eq (by decide), show (judge a y).chs.table = y.chs.table from k .bandTable (by decide)]
  refine ⟨h.used (holdingsKept_charge.judge a y) (turnsCounted_charge.judge a y) (k.mono (by decide)), ?_, ?_, ?_,
    fun n r hp hr => ?_, fun n hp => ?_⟩
  · rw [bay]
    exact ⟨rfl, rfl⟩
  · rw [bay]
    exact judgedMode_ne_fast (turnOn_eq_none.2 hn)
  · rw [bay, band]
    exact h.trickle_iff hn
  · rw [k.receiver_eq (by decide), h.known n r hp hr]
  · rw [k.receiver_eq (by decide), h.others n hp]

theorem rackSender_holding (s : State) (a : Fin 288) : SameHolding (s.bay a) ((rackSender s).bay a) := by
  obtain ⟨q, hq⟩ := rackSender_bay s a
  rw [hq]
  exact ⟨rfl, rfl, rfl, rfl, rfl, rfl, rfl, rfl, rfl, rfl, rfl⟩

/-- The rack sender writes pending flags only. -/
theorem ReadingUsed.sent (h : ReadingUsed w z a B p) : ReadingUsed w (rackSender z) a B p where
  holding := h.holding.trans (rackSender_holding z a)
  away a' ha := (h.away a' ha).trans (rackSender_holding z a')
  known n r hp hr := by
    rw [(rackSender_keepsParts z).receiver_eq (by decide)]
    exact h.known n r hp hr
  keeps := h.keeps.trans ((rackSender_keepsParts z).mono (by decide))

theorem ReadingJudged.sent (h : ReadingJudged w z a B p) : ReadingJudged w (rackSender z) a B p := by
  have k := rackSender_keepsParts z
  have band : bandEntry (rackSender z) (rackOf a) = bandEntry z (rackOf a) := by
    rw [bandEntry, bandEntry, k.sched_eq (by decide), show (rackSender z).chs.table = z.chs.table from k .bandTable (by decide)]
  obtain ⟨q, hq⟩ := rackSender_bay z a
  refine ⟨h.toReadingUsed.sent, ?_, ?_, ?_, fun n r hp hr => ?_, fun n hp => ?_⟩
  · rw [hq]
    exact h.settle
  · rw [hq]
    exact h.mode
  · rw [hq, band]
    exact h.trickle
  · rw [k.receiver_eq (by decide)]
    exact h.exact n r hp hr
  · rw [k.receiver_eq (by decide)]
    exact h.others n hp

/-! ### The state in which the reading is taken -/

/-- The bay with the state that a reading reports (R133). -/
def reportedBay (x : Reading) (b : Bay) : Bay := { b with reportedMode := some x.mode, reportedAssign := some x.assign }

/-- What stands when the electrical part of a reading is taken. -/
structure Reached (s w : State) (rack : Fin 12) (x : Reading) (a : Fin 288) : Prop where
  keeps : KeepsAllBut [.rackLives, .choices, .sched, .bays, .events, .egress] s w
  holding : SameHolding (reportedBay x (s.bay a)) (w.bay a)
  away : ∀ a', a' ≠ a → SameHolding (s.bay a') (w.bay a')
  reports : RackReports s w
  running : (s.bay a).settle = .dock ∨ (s.bay a).settle = .turn → (w.bay a).settle = (s.bay a).settle
  idle : NoTurn s a → NoTurn w a ∧ (w.bay a).settle = (s.bay a).settle ∧ (w.bay a).settleEnds = (s.bay a).settleEnds
  sameBand : (s.sched rack).band = some (bandFor s.chs.table (clampTemperature x.temperature) (s.sched rack).band) →
    (∀ r, (w.sched r).active = (s.sched r).active) ∧ (w.bay a).settle = (s.bay a).settle ∧
    (¬ NoTurn s a → (w.bay a).mode = (s.bay a).mode)

theorem reached (rack : Fin 12) (x : Reading) (a : Fin 288) (s : State) : Reached s
    (readReported a x.mode x.assign (readTemperature rack x.temperature (settlePoll rack x.bay (statusTaken s)))) rack x a := by
  have ready := readingReady rack x.bay x.temperature a (statusTaken s)
  obtain ⟨u, hu⟩ : ∃ u, u = readTemperature rack x.temperature (settlePoll rack x.bay (statusTaken s)) := ⟨_, rfl⟩
  rw [← hu] at ready ⊢
  obtain ⟨w, hw⟩ : ∃ w, w = readReported a x.mode x.assign u := ⟨_, rfl⟩
  have bay (a' : Fin 288) : ∃ q, w.bay a' =
      if a' = a then { reportedBay x (u.bay a) with pending := q } else u.bay a' := by
    rw [hw]
    exact ⟨_, State.putBay_bay u a a' _⟩
  have kw : KeepsAllBut [.bays] u w := hw ▸ putBay_keeps .refl (by decide)
  have taken : KeepsAllBut [.choices, .egress] s (statusTaken s) :=
    useChoice_keeps (putLinkCounters_keeps .refl (by decide)) (by decide)
  have same (a' : Fin 288) : (statusTaken s).bay a' = s.bay a' := taken.bay_eq (by decide) a'
  have here : ∃ q, w.bay a = { reportedBay x (u.bay a) with pending := q } := by
    obtain ⟨q, hq⟩ := bay a
    exact ⟨q, hq.trans (if_pos rfl)⟩
  obtain ⟨q, here⟩ := here
  have evq : (statusTaken s).evq = s.evq := taken.evq_eq (by decide)
  have noTurn : NoTurn w a ↔ NoTurn u a := by
    unfold NoTurn
    rw [kw.sched_eq (by decide)]
  rw [← hw]
  have spared := ready.spared
  have noTurn' : NoTurn (statusTaken s) a ↔ NoTurn s a := by
    unfold NoTurn
    rw [taken.sched_eq (by decide)]
  refine ⟨((taken.mono (by decide)).trans (ready.keeps.mono (by decide))).trans (kw.mono (by decide)), ?_, fun a' ha => ?_,
    ?_, fun h => ?_, fun h => ?_, fun h => ?_⟩
  · have h := spared.holding a
    rw [same] at h
    rw [here]
    exact ⟨h.presence, h.voltage, h.level, h.rackFault, h.docked, h.ready, h.full, h.fault, h.assign, rfl, rfl⟩
  · obtain ⟨q', hq⟩ := bay a'
    rw [hq, if_neg ha, ← same]
    exact spared.holding a'
  · exact ((RackReports.of_evq evq).trans ready.reports).trans (.of_keeps kw (by decide))
  · rw [here]
    exact (spared.settle (by rwa [same])).trans (by rw [same])
  · obtain ⟨hs, he⟩ := spared.idle (noTurn'.2 h)
    rw [same] at hs he
    rw [here]
    exact ⟨noTurn.2 (spared.noTurn (noTurn'.2 h)), hs, he⟩
  · have remoded := ready.sameBand h
    obtain ⟨m, p, v, hb, mode⟩ := remoded.bay a
    rw [same] at hb mode
    refine ⟨fun r => ?_, ?_, fun hn => ?_⟩
    · rw [kw.sched_eq (by decide), remoded.active, taken.sched_eq (by decide)]
    · rw [here, hb]
      rfl
    · rw [here, hb]
      exact mode (mt noTurn'.1 hn)

end Sys2Proof.Machine
end

section
/-! BAY STATUS of a bay that holds the receiver shown, by the settle of the bay and its active turn (R120, R126, R127, R147). -/

namespace Sys2Proof.Machine

open Sys2Proof

variable {s t u w y z : State} {a : Fin 288} {B : Bay} {p v : Nat} {fault : Bool}

/-! ### A bay that holds a receiver -/

/-- A bay holds a receiver: it is not EMPTY, and where it is KNOWN its record is present. -/
structure Occupied (s : State) (a : Fin 288) : Prop where
  present : (s.bay a).presence ≠ .empty
  held : ∀ h, (s.bay a).presence = .known h → ∃ r, s.receiver h = some r

theorem occupied_of_holds {tag : RxTag} (h : BayHolds s a tag) : Occupied s a := by
  obtain ⟨n, r, hp, hr, -⟩ | hp := h
  · refine ⟨by simp [hp], fun m hm => ?_⟩
    rw [hp] at hm
    cases hm
    exact ⟨r, hr⟩
  · refine ⟨by simp [hp], fun m hm => ?_⟩
    rw [hp] at hm
    cases hm

theorem comparePresence_of_holds {tag : RxTag} (h : BayHolds s a tag) : comparePresence a (some tag) s = s := by
  obtain ⟨n, r, hp, hr, ht⟩ | hp := h
  · unfold comparePresence
    rw [hp]
    dsimp only
    rw [hr]
    exact if_pos ht
  · unfold comparePresence
    rw [hp]
    exact if_pos rfl

/-- The state of a reading outside any settle, ahead of the Charge Scheduler. -/
def edgesRaised (a : Fin 288) (v : Nat) (fault : Bool) (w : State) : State :=
  fleetReading a (raiseEdges (w.bay a) (measuredBay w a v fault) a (w.putBay a (measuredBay w a v fault)))

theorem edgesRaised_taken (h : Occupied w a) :
    ReadingTaken w (edgesRaised a v fault w) a (measuredBay w a v fault) (levelOf w.rpl.curve v) :=
  readingTaken (raiseEdges_keepsParts _ _ _ _) h.present (by rfl) h.held

theorem edgesRaised_events (a : Fin 288) (v : Nat) (fault : Bool) (w : State) :
    EventsTaken (readingEdges w.mge.hubTime a (levelOf w.rpl.curve v) (w.bay a) (measuredBay w a v fault)) w
      (edgesRaised a v fault w) := by
  have raised := raiseEdges_events (s := w.putBay a (measuredBay w a v fault)) (w.bay a) (B := measuredBay w a v fault)
    (p := levelOf w.rpl.curve v) (by rfl) a (time := w.mge.hubTime) (by rfl)
  exact (raised.of_evq (by rfl)).to_evq ((fleetReading_keeps (ps := [.receivers]) .refl (by decide)).evq_eq (by decide))

theorem edgesRaised_keeps (a : Fin 288) (v : Nat) (fault : Bool) (w : State) :
    KeepsAllBut [.bays, .receivers, .events, .egress] w (edgesRaised a v fault w) :=
  fleetReading_keeps (((putBay_keeps .refl (by decide)).trans ((raiseEdges_keepsParts _ _ _ _).mono (by decide)))) (by decide)

/-- The state of the first reading after a dock settle, ahead of the Charge Scheduler. -/
def firstTaken (a : Fin 288) (v : Nat) (fault : Bool) (w : State) : State :=
  fleetReading a (w.putBay a { measuredBay w a v fault with settle := .none, settleEnds := none })

theorem firstTaken_taken (h : Occupied w a) : ReadingTaken w (firstTaken a v fault w) a
    { measuredBay w a v fault with settle := .none, settleEnds := none } (levelOf w.rpl.curve v) :=
  readingTaken .refl h.present (by rfl) h.held

theorem firstTaken_keeps (a : Fin 288) (v : Nat) (fault : Bool) (w : State) :
    KeepsAllBut [.bays, .receivers] w (firstTaken a v fault w) :=
  fleetReading_keeps (putBay_keeps .refl (by decide)) (by decide)

theorem noTurn_of_keeps {ps : List Part} (k : KeepsAllBut ps s t) (hp : Part.sched ∉ ps) : NoTurn t a ↔ NoTurn s a := by
  unfold NoTurn
  rw [k.sched_eq hp]

/-! ### What a reading leaves in every case -/

/-- What any reading keeps of the bay it names and of the others. -/
structure ReadingKept (w t : State) (a : Fin 288) : Prop where
  presence : (t.bay a).presence = (w.bay a).presence
  docked : (t.bay a).docked = (w.bay a).docked
  assign : (t.bay a).assign = (w.bay a).assign
  reported : (t.bay a).reportedMode = (w.bay a).reportedMode ∧ (t.bay a).reportedAssign = (w.bay a).reportedAssign
  away : ∀ a', a' ≠ a → SameHolding (w.bay a') (t.bay a')
  keeps : KeepsAllBut [.sched, .bays, .receivers, .sender, .events, .egress] w t

theorem ReadingUsed.kept (h : ReadingUsed w t a B p) (hB : ∃ e f, B = { measuredBay w a v fault with settle := e, settleEnds := f }) :
    ReadingKept w t a := by
  obtain ⟨e, f, rfl⟩ := hB
  have k := h.holding
  exact ⟨k.presence, k.docked, k.assign, k.reported, h.away, h.keeps⟩

theorem used_of_chargeReading (h : ReadingTaken w y a B p) : ReadingUsed w (rackSender (chargeReading a y)) a B p :=
  (h.used (holdingsKept_charge.chargeReading a y) (turnsCounted_charge.chargeReading a y)
    (chargeReading_keeps .refl (by decide) (by decide) (by decide))).sent

theorem readElectrical_kept (h : Occupied w a) : ReadingKept w (rackSender (readElectrical a v fault w)) a := by
  have held (hs : (w.bay a).settle = .dock ∨ (w.bay a).settle = .turn) :
      ReadingKept w (rackSender (readElectrical a v fault w)) a := by
    rw [readElectrical_held hs]
    have k := rackSender_holding w a
    exact ⟨k.presence, k.docked, k.assign, k.reported, fun a' _ => rackSender_holding w a',
      (rackSender_keepsParts w).mono (by decide)⟩
  cases hs : (w.bay a).settle with
  | none =>
    rw [readElectrical_used h.present hs]
    exact (used_of_chargeReading (edgesRaised_taken h)).kept ⟨_, _, rfl⟩
  | dock => exact held (.inl hs)
  | turn => exact held (.inr hs)
  | dockEnded =>
    rw [readElectrical_first h.present hs]
    have taken := firstTaken_taken (v := v) (fault := fault) h
    exact (taken.used (holdingsKept_charge.judge a _) (turnsCounted_charge.judge a _)
      (judge_keeps .refl (by decide))).sent.kept ⟨_, _, rfl⟩

/-! ### The cases of a reading -/

/-- The state after a reading's electrical part, once the rack sender has acted. -/
def readSent (a : Fin 288) (v : Nat) (fault : Bool) (w : State) : State := rackSender (readElectrical a v fault w)

theorem chargeReading_evq (a : Fin 288) (s : State) : (rackSender (chargeReading a s)).evq = s.evq :=
  (rackSender_keeps (chargeReading_keeps (ps := [.bays, .receivers, .sched, .sender, .egress]) .refl (by decide) (by decide)
    (by decide)) (by decide) (by decide) (by decide)).evq_eq (by decide)

/-- Outside any settle a reading raises the edges of the bay's signals. -/
theorem readSent_edges (h : Occupied w a) (hs : (w.bay a).settle = .none) :
    EventsTaken (readingEdges w.mge.hubTime a (levelOf w.rpl.curve v) (w.bay a) (measuredBay w a v fault)) w
      (readSent a v fault w) := by
  rw [readSent, readElectrical_used h.present hs]
  exact (edgesRaised_events a v fault w).to_evq (chargeReading_evq a _)

theorem readSent_used (h : Occupied w a) (hs : (w.bay a).settle = .none) :
    ReadingUsed w (readSent a v fault w) a (measuredBay w a v fault) (levelOf w.rpl.curve v) := by
  rw [readSent, readElectrical_used h.present hs]
  exact used_of_chargeReading (edgesRaised_taken h)

/-- Without an active turn the mode is judged. -/
theorem readSent_judged (h : Occupied w a) (hs : (w.bay a).settle = .none) (hn : NoTurn w a) :
    ReadingJudged w (readSent a v fault w) a (measuredBay w a v fault) (levelOf w.rpl.curve v) := by
  have none : NoTurn (edgesRaised a v fault w) a := (noTurn_of_keeps (edgesRaised_keeps a v fault w) (by decide)).2 hn
  have eq : chargeReading a (edgesRaised a v fault w) = judge a (edgesRaised a v fault w) := chargeReading_of_noTurn none
  rw [readSent, readElectrical_used h.present hs]
  exact eq ▸ ((edgesRaised_taken h).judged none).sent

/-- A reading that ends the active turn of its bay. -/
theorem readSent_lost (h : Occupied w a) (hs : (w.bay a).settle = .none) (hn : ¬ NoTurn w a)
    (he : EndsTurn (measuredBay w a v fault)) : TurnLost w (readSent a v fault w) a := by
  have k := edgesRaised_keeps a v fault w
  have turn : ¬ NoTurn (edgesRaised a v fault w) a := mt (noTurn_of_keeps k (by decide)).1 hn
  have lost := chargeReading_lost (edgesRaised_taken h) turn he hs
  have clock : (edgesRaised a v fault w).clock = w.clock := k .clock (by decide)
  rw [readSent, readElectrical_used h.present hs]
  obtain ⟨q, hq⟩ := rackSender_bay (chargeReading a (edgesRaised a v fault w)) a
  have sent := (noTurn_of_keeps (a := a) (rackSender_keepsParts (chargeReading a (edgesRaised a v fault w))) (by decide)).2
    lost.noTurn
  refine ⟨?_, ?_, ?_, sent⟩
  · exact (congrArg Bay.settle hq).trans lost.settle
  · exact (congrArg Bay.settleEnds hq).trans (lost.settleEnds.trans (by rw [clock]))
  · exact (congrArg Bay.mode hq).trans lost.mode

/-- The active turn of a bay goes on after a reading. -/
structure TurnKept (w t : State) (a : Fin 288) (B : Bay) (p : Nat) : Prop where
  settle : (t.bay a).settle = .none
  mode : (t.bay a).mode = (w.bay a).mode
  active : ∀ r, (t.sched r).active = (w.sched r).active
  exact : ∀ h r, B.presence = .known h → w.receiver h = some r → t.receiver h = some (measuredReceiver p B.fault r)
  others : ∀ h, B.presence ≠ .known h → t.receiver h = w.receiver h

theorem readSent_kept (h : Occupied w a) (hs : (w.bay a).settle = .none) (hn : ¬ NoTurn w a)
    (he : ¬ EndsTurn (measuredBay w a v fault)) :
    TurnKept w (readSent a v fault w) a (measuredBay w a v fault) (levelOf w.rpl.curve v) := by
  have k := edgesRaised_keeps a v fault w
  have turn : ¬ NoTurn (edgesRaised a v fault w) a := mt (noTurn_of_keeps k (by decide)).1 hn
  have taken := edgesRaised_taken (v := v) (fault := fault) h
  have eq : readSent a v fault w = rackSender (edgesRaised a v fault w) := by
    rw [readSent, readElectrical_used h.present hs]
    exact congrArg rackSender (chargeReading_goesOn taken turn he)
  obtain ⟨q, hq⟩ := rackSender_bay (edgesRaised a v fault w) a
  have sender := rackSender_keepsParts (edgesRaised a v fault w)
  rw [taken.here] at hq
  rw [eq]
  refine ⟨(congrArg Bay.settle hq).trans hs, (congrArg Bay.mode hq).trans (by rfl), fun r => ?_, fun n r hp hr => ?_, fun n hp => ?_⟩
  · rw [sender.sched_eq (by decide), k.sched_eq (by decide)]
  · rw [sender.receiver_eq (by decide), taken.known n r hp hr]
  · rw [sender.receiver_eq (by decide), taken.others n hp]

/-- The first reading after a dock settle, with no active turn. -/
theorem readSent_first (h : Occupied w a) (hs : (w.bay a).settle = .dockEnded) (hn : NoTurn w a) :
    ReadingJudged w (readSent a v fault w) a { measuredBay w a v fault with settle := .none, settleEnds := none }
      (levelOf w.rpl.curve v) ∧ (readSent a v fault w).evq = w.evq := by
  have k := firstTaken_keeps a v fault w
  have none : NoTurn (firstTaken a v fault w) a := (noTurn_of_keeps k (by decide)).2 hn
  rw [readSent, readElectrical_first h.present hs]
  refine ⟨((firstTaken_taken h).judged none).sent, ?_⟩
  exact (rackSender_keeps (judge_keeps (k.mono (qs := [.bays, .receivers, .sender, .egress]) (by decide)) (by decide))
    (by decide) (by decide) (by decide)).evq_eq (by decide)

end Sys2Proof.Machine
end

section
/-! BAY STATUS: the reading of a bay that holds the receiver shown (R120, R126, R127, R129, R130, R133). -/

namespace Sys2Proof.Machine

open Sys2Proof

variable {s t u w : State} {a : Fin 288} {B : Bay} {v : Nat} {fault : Bool} {rack : Fin 12} {x : Reading}

/-! ### The reading in the words of the state the frame arrives in -/

/-- A reading of cell voltage `v` gives its bay the level, the signals and its receiver the level and FAULT; the turn count is
kept where `exact` holds (R100, R101, R129, R130). -/
def Measured (s t : State) (a : Fin 288) (v : Nat) (fault : Bool) (exact : Prop) : Prop :=
  let p := levelOf s.rpl.curve v
  (t.bay a).voltage = some v ∧ (t.bay a).level = some p ∧ (t.bay a).rackFault = fault ∧
  (t.bay a).ready = decide (s.mge.settings.ready ≤ p) ∧ (t.bay a).full = decide (s.mge.settings.full ≤ p) ∧
  (t.bay a).fault = (fault || decide (v < 2500) || decide (4400 < v)) ∧
  ∀ h r, (s.bay a).presence = .known h → s.receiver h = some r →
    ∃ n, t.receiver h = some { measuredReceiver p (t.bay a).fault r with turnCount := n } ∧ (exact → n = r.turnCount)

/-- The bay record of a reading, but for the settle. -/
def Measures (w : State) (a : Fin 288) (v : Nat) (fault : Bool) (B : Bay) : Prop :=
  ∃ e f, B = { measuredBay w a v fault with settle := e, settleEnds := f }

theorem measures_self (w : State) (a : Fin 288) (v : Nat) (fault : Bool) : Measures w a v fault (measuredBay w a v fault) :=
  ⟨_, _, rfl⟩

namespace Reached

theorem curve (h : Reached s w rack x a) : w.rpl.curve = s.rpl.curve := h.keeps .curve (by decide)

theorem settings (h : Reached s w rack x a) : w.mge.settings = s.mge.settings := h.keeps .settings (by decide)

theorem receiver (h : Reached s w rack x a) (n : Fin 384) : w.receiver n = s.receiver n := h.keeps.receiver_eq (by decide) n

theorem presence (h : Reached s w rack x a) : (w.bay a).presence = (s.bay a).presence := h.holding.presence

theorem measured (h : Reached s w rack x a) (hB : Measures w a v fault B) (exact : Prop)
    (used : ReadingUsed w t a B (levelOf w.rpl.curve v))
    (he : exact → ∀ n r, B.presence = .known n → w.receiver n = some r →
      t.receiver n = some (measuredReceiver (levelOf w.rpl.curve v) B.fault r)) : Measured s t a v fault exact := by
  obtain ⟨e, f, rfl⟩ := hB
  have k := used.holding
  have level : levelOf w.rpl.curve v = levelOf s.rpl.curve v := by rw [h.curve]
  refine ⟨k.voltage, k.level.trans (congrArg some level), k.rackFault, k.ready.trans ?_, k.full.trans ?_, k.fault,
    fun n r hp hr => ?_⟩
  · rw [← h.settings, ← level]
    rfl
  · rw [← h.settings, ← level]
    rfl
  · have known := h.presence.trans hp
    have present := (h.receiver n).trans hr
    rw [k.fault, ← level]
    by_cases hx : exact
    · exact ⟨r.turnCount, he hx n r known present, fun _ => rfl⟩
    · obtain ⟨c, hc⟩ := used.known n r known present
      exact ⟨c, hc, fun hx' => absurd hx' hx⟩

/-- The events of the poll, of the band and of the reading, in that order. -/
theorem edges (h : Reached s w rack x a) {before : List EventRecord} (hb : EventsTaken before s w)
    (hn : w.evq.enables = s.evq.enables) (used : ReadingUsed w t a B (levelOf w.rpl.curve v))
    (raised : EventsTaken (readingEdges w.mge.hubTime a (levelOf w.rpl.curve v) (w.bay a) B) w t) :
    EventsTaken (before ++ readingEdges s.mge.hubTime a (levelOf s.rpl.curve v) (s.bay a) (t.bay a)) s t := by
  have time : w.mge.hubTime = s.mge.hubTime := h.keeps .hubTime (by decide)
  have same : readingEdges w.mge.hubTime a (levelOf w.rpl.curve v) (w.bay a) B =
      readingEdges s.mge.hubTime a (levelOf s.rpl.curve v) (s.bay a) (t.bay a) := by
    simp only [readingEdges, time, h.curve, used.holding.fault, used.holding.full, used.holding.ready]
    rw [h.holding.fault, h.holding.full, h.holding.ready]
    rfl
  exact hb.append (same ▸ raised) hn

end Reached

/-- The mode of a bay without a turn, as a reading that is used has it judged (R153, R154). -/
def ModeJudged (t : State) (a : Fin 288) (rack : Fin 12) : Prop :=
  (t.bay a).mode ≠ .fast ∧ ((t.bay a).mode = .trickle ↔ (t.bay a).fault = false ∧ (t.bay a).full = false ∧
    ∃ e, bandEntry t rack = some e ∧ e.trickle = true)

theorem ReadingJudged.modeJudged {p : Nat} (h : ReadingJudged w t a B p) (hr : rackOf a = rack) : ModeJudged t a rack := by
  refine ⟨h.mode, h.trickle.trans ?_⟩
  rw [h.holding.fault, h.holding.full, hr]

/-- The reading is stored in the state that its rack reports (R133). -/
theorem Reached.reported (h : Reached s w rack x a) {payload : List Byte} (fields : ReadingOf payload x)
    (kept : ReadingKept w t a) :
    (t.bay a).reportedMode.map ChargeMode.code = some (byteAt payload 8) ∧
    (byteAt payload 9 = 255 → (t.bay a).reportedAssign = some none) ∧
    (byteAt payload 9 ≠ 255 → ∃ y, (t.bay a).reportedAssign = some (some y) ∧ y.channel.val = byteAt payload 9 ∧
      y.lamp = decide (byteAt payload 10 = 1)) := by
  have mode : (t.bay a).reportedMode = some x.mode := kept.reported.1.trans h.holding.reported.1
  have assign : (t.bay a).reportedAssign = some x.assign := kept.reported.2.trans h.holding.reported.2
  refine ⟨?_, fun hc => ?_, fun hc => ?_⟩
  · rw [mode, ← fields.mode]
    rfl
  · rw [assign, fields.assign_none hc]
  · obtain ⟨y, hy, rest⟩ := fields.assign_some hc
    exact ⟨y, by rw [assign, hy], rest⟩

/-- The state in which the electrical part of a BAY STATUS of a bay that holds the receiver shown is taken. -/
theorem exec_bayStatus_held {frame : List Byte} {station : Station} {payload : List Byte} {rack : Fin 12} {b : Fin 24}
    {tag : RxTag} (h : Arrives s frame .bayStatus station payload) (hr : FrameOfRack s station rack)
    (hs : StatusShows payload (some tag)) (hb : byteAt payload 0 = b.val) (hold : BayHolds s (bayAddress rack b) tag) :
    ∃ x w, ReadingOf payload x ∧ Reached s w rack x (bayAddress rack b) ∧ Occupied w (bayAddress rack b) ∧
      exec (.bayStatus frame) s = .next (readSent (bayAddress rack b) x.voltage x.fault w) := by
  obtain ⟨x, rfl, shown, fields, run⟩ := exec_bayStatus h hr hs hb
  have ready := readingReady rack x.bay x.temperature (bayAddress rack x.bay) (statusTaken s)
  have taken : KeepsAllBut [.choices, .egress] s (statusTaken s) :=
    useChoice_keeps (putLinkCounters_keeps .refl (by decide)) (by decide)
  have holds : BayHolds (readTemperature rack x.temperature (settlePoll rack x.bay (statusTaken s)))
      (bayAddress rack x.bay) tag := by
    have presence := (ready.spared.holding (bayAddress rack x.bay)).presence
    rw [taken.bay_eq (by decide)] at presence
    unfold BayHolds
    rw [presence]
    simp only [ready.keeps.receiver_eq (by decide), taken.receiver_eq (by decide)]
    exact hold
  have reach := reached rack x (bayAddress rack x.bay) s
  have compared := comparePresence_of_holds holds
  rw [← shown] at compared
  refine ⟨x, _, fields, reach, ?_, run.trans (congrArg (fun v => Host.Outcome.next (rackSender
    (readElectrical (bayAddress rack x.bay) x.voltage x.fault (readReported (bayAddress rack x.bay) x.mode x.assign v))))
    compared)⟩
  obtain ⟨present, held⟩ := occupied_of_holds hold
  refine ⟨by rw [reach.presence]; exact present, fun n hn => ?_⟩
  rw [reach.presence] at hn
  rw [reach.receiver]
  exact held n hn

end Sys2Proof.Machine
end

section
/-! BAY STATUS of a bay that holds the receiver shown. -/

namespace Sys2Proof.Machine

open Sys2Proof

theorem KeepsAllBut.flt_eq {s t : State} {ps : List Part} (k : KeepsAllBut ps s t)
    (hp : Part.receivers ∉ ps ∧ Part.fleetCounters ∉ ps) : t.flt = s.flt := by
  have receivers : t.flt.receivers = s.flt.receivers := k .receivers hp.1
  obtain ⟨unknown, unplanned, late⟩ := k .fleetCounters hp.2
  cases ht : t.flt
  simp_all

/-- Settles O20: the state in which the reading is taken is reached by the poll and the temperature; the settle of the bay and
its active turn then decide between the four cases. -/
theorem statusReadingUsed : Obligations.StatusReadingUsed := by
  unfold Obligations.StatusReadingUsed
  intro s frame station payload rack b tag arrives fromRack shows hb a old hold v p idle sameBand
  obtain ⟨x, w, fields, reach, occupied, run⟩ := exec_bayStatus_held arrives fromRack shows hb hold
  obtain ⟨before, kinds, taken, enables⟩ := reach.reports
  have voltage : x.voltage = v := fields.voltage
  have warm : clampTemperature x.temperature = max (-40) (min 125 (signedAt payload 11)) := by
    rw [fields.temperature]
    rfl
  rw [voltage] at run
  obtain ⟨t, ht⟩ : ∃ t, t = readSent a v x.fault w := ⟨_, rfl⟩
  have level : levelOf w.rpl.curve v = p := congrArg (levelOf · v) reach.curve
  have atRack : rackOf a = rack := rackOf_bayAddress rack b
  have idle_iff : NoTurn s a ↔ idle := by
    unfold NoTurn
    rw [atRack, show bayNumber a = b from bayNumber_bayAddress rack b]
  have kept : ReadingKept w t a := ht ▸ readElectrical_kept occupied
  have away (a' : Fin 288) (ha : a' ≠ a) : SameHolding (s.bay a') (t.bay a') := (reach.away a' ha).trans (kept.away a' ha)
  have elsewhere (B : Bay) (hB : Measures w a v x.fault B) (h : ∀ n, B.presence ≠ .known n → t.receiver n = w.receiver n)
      (n : Fin 384) (hn : old.presence ≠ .known n) : t.receiver n = s.receiver n := by
    obtain ⟨e, f, rfl⟩ := hB
    exact (h n (by rw [show ({ measuredBay w a v x.fault with settle := e, settleEnds := f } : Bay).presence =
      old.presence from reach.presence]; exact hn)).trans (reach.receiver n)
  have edges (hs : (w.bay a).settle = .none) : EventsTaken
      (before ++ readingEdges s.mge.hubTime a p old (t.bay a)) s t := by
    have used := readSent_used (v := v) (fault := x.fault) occupied hs
    rw [← ht] at used
    exact reach.edges taken enables used (ht ▸ readSent_edges occupied hs)
  refine ⟨t, x.fault, before, run.trans (by rw [ht]), fields.fault_clear, fields.fault_set, kinds, ?_,
    fun a' ha => ?_, (reach.keeps.mono (by decide)).trans (kept.keeps.mono (by decide))⟩
  · obtain ⟨mode, unassigned, assigned⟩ := reach.reported fields kept
    refine ⟨kept.presence.trans reach.presence, kept.docked.trans reach.holding.docked,
      kept.assign.trans reach.holding.assign, mode, unassigned, assigned, fun hs hi => ?_, fun hs hi hb => ?_,
      fun hs hi => ?_, fun hs => ?_⟩
    · obtain ⟨still, settle, -⟩ := reach.idle (idle_iff.2 hi)
      have open_ := settle.trans hs
      have judged := readSent_judged (v := v) (fault := x.fault) occupied open_ still
      rw [← ht] at judged
      exact ⟨reach.measured (measures_self w a v x.fault) _ judged.toReadingUsed fun _ => judged.exact,
        judged.modeJudged atRack, elsewhere _ (measures_self w a v x.fault) judged.others,
        judged.settle.1.trans open_, edges open_⟩
    · have turn := mt idle_iff.1 hi
      obtain ⟨active, settle, mode_kept⟩ := reach.sameBand (by rw [warm]; exact hb)
      have open_ := settle.trans hs
      have running : ¬ NoTurn w a := by
        unfold NoTurn
        rw [active]
        exact turn
      have used := readSent_used (v := v) (fault := x.fault) occupied open_
      rw [← ht] at used
      have ends_iff : EndsTurn (measuredBay w a v x.fault) ↔
          (t.bay a).full = true ∨ ((t.bay a).fault = true ∧ ∃ n, old.presence = .known n) := by
        rw [used.holding.full, used.holding.fault, EndsTurn,
          show (measuredBay w a v x.fault).presence = old.presence from reach.presence]
      have goesOn (he : ¬ ((t.bay a).full = true ∨ ((t.bay a).fault = true ∧ ∃ n, old.presence = .known n))) :=
        readSent_kept (v := v) (fault := x.fault) occupied open_ running (mt ends_iff.1 he)
      rw [← ht] at goesOn
      refine ⟨reach.measured (measures_self w a v x.fault) _ used fun he => (goesOn (he.resolve_left hi)).exact,
        edges open_, fun he => ?_, fun he => ?_⟩
      · have lost := readSent_lost (v := v) (fault := x.fault) occupied open_ running (ends_iff.2 he)
        rw [← ht] at lost
        have clock : w.clock = s.clock := reach.keeps .clock (by decide)
        have noTurn := lost.noTurn
        unfold NoTurn at noTurn
        rw [atRack, show bayNumber a = b from bayNumber_bayAddress rack b] at noTurn
        exact ⟨lost.settle, clock ▸ lost.settleEnds, lost.mode, noTurn⟩
      · have k := goesOn he
        exact ⟨k.settle, k.mode.trans (mode_kept turn), (k.active rack).trans (active rack),
          elsewhere _ (measures_self w a v x.fault) k.others⟩
    · obtain ⟨still, settle, -⟩ := reach.idle (idle_iff.2 hi)
      obtain ⟨judged, evq⟩ := readSent_first (v := v) (fault := x.fault) occupied (settle.trans hs) still
      rw [← ht] at judged evq
      exact ⟨reach.measured ⟨_, _, rfl⟩ _ judged.toReadingUsed fun _ => judged.exact, judged.modeJudged atRack,
        elsewhere _ ⟨_, _, rfl⟩ judged.others, judged.settle.1, judged.settle.2, taken.to_evq evq⟩
    · have held := reach.running hs
      have eq : t = rackSender w := by
        rw [ht, readSent, readElectrical_held (by rw [held]; exact hs)]
      have sender := rackSender_keepsParts w
      obtain ⟨q, hq⟩ := rackSender_bay w a
      rw [← eq] at hq sender
      have k := reach.holding
      have flt : t.flt = s.flt := (sender.flt_eq (by decide)).trans (reach.keeps.flt_eq (by decide))
      rw [hq]
      exact ⟨k.voltage, k.level, k.rackFault, k.ready, k.full, k.fault, held, fun hi => (reach.idle (idle_iff.2 hi)).2.2,
        flt, taken.to_evq (sender.evq_eq (by decide))⟩
  · have k := away a' ha
    exact ⟨k.presence, k.voltage, k.level, k.ready, k.full, k.fault, k.assign⟩

end Sys2Proof.Machine
end

section
/-! What keeps EMPTY bays bare and settle ends with their settles (R121, R125): each operation on bays, bay by bay. -/

namespace Sys2Proof.Machine

open Sys2Proof

variable {s t u : State} {a a' : Fin 288}

/-! ### One bay -/

/-- An EMPTY bay is bare, and a settle end stands exactly while a settle runs (R121, R125). -/
def BaySettled (b : Bay) : Prop :=
  (b.presence = .empty → b.level = none ∧ b.voltage = none ∧ b.ready = false ∧ b.full = false ∧ b.fault = false ∧
    b.settle = .none) ∧
  (b.settleEnds.isSome = true ↔ b.settle = .dock ∨ b.settle = .turn)

theorem baysSettled_iff : BaysSettled s ↔ ∀ a, BaySettled (s.bay a) := Iff.rfl

/-- The settle of a bay depends neither on its modes and flags nor on its assignment and report. -/
theorem BaySettled.written {b : Bay} (h : BaySettled b) {m : ChargeMode} {x : Option Assignment} {rm : Option ChargeMode}
    {ra : Option (Option Assignment)} {p v : Bool} : BaySettled { b with
      mode := m, assign := x, reportedMode := rm, reportedAssign := ra, pending := p, served := v } := h

/-- A bay that holds a receiver is settled where its settle end stands exactly while a settle runs. -/
theorem baySettled_of_held {b : Bay} (hp : b.presence ≠ .empty)
    (he : b.settleEnds.isSome = true ↔ b.settle = .dock ∨ b.settle = .turn) : BaySettled b := ⟨fun h => absurd h hp, he⟩

/-! ### The Charge Scheduler -/

/-- Every bay keeps its presence, and every settled bay stays settled. -/
def BaysStand (s t : State) : Prop :=
  ∀ a, (t.bay a).presence = (s.bay a).presence ∧ (BaySettled (s.bay a) → BaySettled (t.bay a))

namespace BaysStand

theorem refl (s : State) : BaysStand s s := fun _ => ⟨rfl, id⟩

theorem of_keeps {ps : List Part} (k : KeepsAllBut ps s t) (hp : Part.bays ∉ ps) : BaysStand s t :=
  fun a => by rw [k.bay_eq hp a]; exact ⟨rfl, id⟩

theorem trans (h : BaysStand s t) (k : BaysStand t u) : BaysStand s u :=
  fun a => ⟨(k a).1.trans (h a).1, (k a).2 ∘ (h a).2⟩

theorem baysSettled (k : BaysStand s t) (h : BaysSettled s) : BaysSettled t := fun a => (k a).2 (h a)

theorem putBay {x : Bay} (hp : x.presence = (s.bay a).presence) (h : BaySettled (s.bay a) → BaySettled x) :
    BaysStand s (s.putBay a x) := by
  intro a'
  rw [State.putBay_bay]
  split
  next e => exact e ▸ ⟨hp, h⟩
  next => exact ⟨rfl, id⟩

theorem forEach {α : Type} {f : α → State → State} (hf : ∀ x s, BaysStand s (f x s)) (xs : List α) (s : State) :
    BaysStand s (forEach xs f s) := by
  induction xs generalizing s with
  | nil => exact .refl s
  | cons x xs ih => exact (hf x s).trans (ih _)

theorem setAssign (a : Fin 288) (x : Option Assignment) (s : State) : BaysStand s (setAssign a x s) := by
  unfold Machine.setAssign
  dsimp only
  split
  · exact .refl s
  · exact putBay rfl fun h => h.written

theorem markPending (a : Fin 288) (s : State) : BaysStand s (markPending a s) := putBay rfl fun h => h.written

theorem rackSender (s : State) : BaysStand s (rackSender s) := by
  intro a
  obtain ⟨p, hp⟩ := rackSender_bay s a
  rw [hp]
  exact ⟨rfl, fun h => h.written⟩

end BaysStand

theorem baysStand_charge : ChargeClosed BaysStand where
  refl := .refl
  trans := .trans
  flags s a _ _ _ := .putBay rfl fun h => h.written
  turnSettle s a := by
    intro a'
    rw [startTurnSettle_bay]
    split
    next hs =>
      obtain ⟨rfl, hs⟩ := hs
      exact ⟨rfl, fun _ => baySettled_of_held ((settlesTurn_iff _).1 hs).1 (by simp)⟩
    next => exact ⟨rfl, id⟩
  sched s r q _ := .of_keeps (putSched_keeps (ps := [.sched]) .refl (by decide)) (by decide)
  countTurn s a := .of_keeps (countTurn_keeps (ps := [.receivers]) .refl (by decide)) (by decide)

/-! ### Undocks -/

/-- A bay that is emptied is bare, whatever it was. -/
theorem bayEmptied_settled (old : Bay) (h : a' ≠ a → BaySettled (s.bay a')) :
    BaySettled ((bayEmptied old a s).bay a') := by
  by_cases e : a' = a
  · obtain ⟨p, v, hb⟩ := (bayEmptied_left old a s).bay
    rw [e, hb]
    exact ⟨fun _ => ⟨rfl, rfl, rfl, rfl, rfl, rfl⟩, by simp⟩
  · obtain ⟨t, ht⟩ : ∃ t, t = raiseBay old.docked .dockedFall a (dockedDetail old.presence)
        (raiseBay old.ready .readyFall a (levelDetail old.level) (raiseBay old.full .fullFall a (levelDetail old.level)
          (raiseBay old.fault .faultFall a (levelDetail old.level) (s.putBay a { s.bay a with
            presence := .empty, level := none, voltage := none, settle := .none, settleEnds := none,
            docked := false, ready := false, full := false, fault := false })))) := ⟨_, rfl⟩
    have k : KeepsAllBut eventParts (s.putBay a { s.bay a with
        presence := .empty, level := none, voltage := none, settle := .none, settleEnds := none,
        docked := false, ready := false, full := false, fault := false }) t := by
      rw [ht]
      exact raiseBay_keeps (raiseBay_keeps (raiseBay_keeps (raiseBay_keeps .refl (by decide) (by decide)) (by decide)
        (by decide)) (by decide) (by decide)) (by decide) (by decide)
    have eq : bayEmptied old a s = endOrJudge a t := by
      rw [ht]
      rfl
    rw [eq]
    refine (baysStand_charge.endOrJudge a t a').2 ?_
    rw [k.bay_eq (by decide), State.putBay_bay, if_neg e]
    exact h e

theorem fleetUndock_bay_ne (h : a' ≠ a) (n : Fin 384) (s : State) : (fleetUndock a n s).bay a' = s.bay a' := by
  have k : KeepsAllBut [.receivers, .tours, .fleetCounters, .events, .egress] (clearBay a s) (fleetUndock a n s) := by
    obtain ⟨t, ht⟩ : ∃ t, t = clearBay a s := ⟨_, rfl⟩
    unfold fleetUndock
    rw [← ht]
    dsimp only
    split
    · exact .refl
    split
    · exact raiseEvent_keeps (noteIssued_keeps (putReceiver_keeps .refl (by decide)) (by decide)) (by decide) (by decide)
    · exact raiseEvent_keeps (withFlt_keeps (putReceiver_keeps .refl (by decide)) (by rfl) (by decide)) (by decide)
        (by decide)
    · exact putReceiver_keeps .refl (by decide)
  rw [k.bay_eq (by decide), clearBay_bay_ne h]

theorem undockBay_settled (h : BaySettled (s.bay a')) : BaySettled ((undockBay a s).bay a') := by
  unfold undockBay
  dsimp only
  split
  · exact h
  · exact bayEmptied_settled _ fun e => by rwa [fleetUndock_bay_ne e]
  · exact bayEmptied_settled _ fun e => by rwa [clearBay_bay_ne e]

/-! ### Docks -/

theorem placeReceiver_settled (h : BaySettled (s.bay a')) (e : a' ≠ a) (n : Fin 384) (r : Receiver) :
    BaySettled ((placeReceiver a n r s).bay a') := by
  rw [placeReceiver_bay, if_neg e]
  exact h

theorem moveReceiver_settled {old : Fin 288} (h : BaySettled (s.bay a')) (e : a' ≠ a) (n : Fin 384) :
    BaySettled ((moveReceiver old a n s).bay a') := by
  obtain ⟨t, ht⟩ : ∃ t, t = bayEmptied (s.bay old) old (clearBay old s) := ⟨_, rfl⟩
  have emptied : BaySettled (t.bay a') := by
    rw [ht]
    exact bayEmptied_settled _ fun e' => by rwa [clearBay_bay_ne e']
  unfold moveReceiver
  dsimp only
  rw [← ht]
  split
  · exact emptied
  · split
    · exact (BaysStand.setAssign _ _ _ _).2 (placeReceiver_settled emptied e _ _)
    · exact (BaysStand.setAssign _ _ _ _).2 (placeReceiver_settled emptied e _ _)

theorem undockFormer_settled (h : BaySettled (s.bay a')) (tag : RxTag) : BaySettled ((undockFormer a tag s).bay a') := by
  unfold undockFormer
  repeat' split
  exacts [h, undockBay_settled h, h, h, h]

theorem dockUnknown_settled (h : BaySettled (s.bay a')) (e : a' ≠ a) (tag : RxTag) :
    BaySettled ((dockUnknown a tag s).bay a') := by
  rw [(dockUnknown_docked a tag s).others a' e]
  exact h

theorem fleetDock_settled (h : BaySettled (s.bay a')) (e : a' ≠ a) (tag : RxTag) :
    BaySettled ((fleetDock a tag s).bay a') := by
  have former := undockFormer_settled (a := a) h tag
  unfold fleetDock
  dsimp only
  split
  · split
    · exact former
    split
    · split
      · rw [State.putBay_bay, if_neg e]
        exact former
      · exact moveReceiver_settled former e _
    · rw [(dockKnown_docked a _ _ _).others a' e]
      exact former
  · split
    · rw [(enrolInto_spec a _ tag _).2.1 a' e]
      exact former
    · exact dockUnknown_settled former e tag
    · exact dockUnknown_settled former e tag

theorem findTag_found {tag : RxTag} {h : Fin 384} (hf : findTag tag s = some h) :
    ∃ r, s.receiver h = some r ∧ r.tag = tag := by
  have found := List.find?_some hf
  cases hr : s.receiver h with
  | none => simp [hr] at found
  | some r => exact ⟨r, rfl, by simpa [hr] using found⟩

/-- A move leaves the new bay held. -/
theorem moveReceiver_held {old : Fin 288} {h : Fin 384} {r : Receiver} (hr : s.receiver h = some r) (a : Fin 288) :
    ((moveReceiver old a h s).bay a).presence = .known h := by
  obtain ⟨t, ht⟩ : ∃ t, bayEmptied (s.bay old) old (clearBay old s) = t := ⟨_, rfl⟩
  obtain ⟨n, hn⟩ := bayEmptied_turnsCounted (s.bay old) old (clearBay old s) h
  rw [ht, (clearBay_keepsParts old s).receiver_eq (by decide), hr] at hn
  rw [moveReceiver_eq ht hn]
  obtain ⟨⟨p, hp⟩, -⟩ := placed_assigned a h { r with turnCount := n } (carriedAssign { r with turnCount := n }) t
  rw [hp]

/-- A dock leaves the bay held (R94). -/
theorem fleetDock_held (a : Fin 288) (tag : RxTag) (s : State) : ((fleetDock a tag s).bay a).presence ≠ .empty := by
  unfold fleetDock
  dsimp only
  split
  next h hf =>
    obtain ⟨r, hr, -⟩ := findTag_found hf
    rw [hr]
    dsimp only
    split
    next old _ =>
      split
      · rw [State.putBay_bay_self]
        simp
      · rw [moveReceiver_held hr]
        simp
    next =>
      obtain ⟨p, hp⟩ := (dockKnown_docked a h r (undockFormer a tag s)).bay
      rw [hp]
      simp
  next =>
    have unknown (u : State) : ((dockUnknown a tag u).bay a).presence ≠ .empty := by
      obtain ⟨p, hp⟩ := (dockUnknown_docked a tag u).bay
      rw [hp]
      simp
    split
    next h _ _ =>
      obtain ⟨p, hp⟩ := (enrolInto_spec a h tag (undockFormer a tag s)).1
      rw [hp]
      simp
    · exact unknown _
    · exact unknown _

theorem dockBay_settled (h : a' ≠ a → BaySettled (s.bay a')) (tag : RxTag) : BaySettled ((dockBay a tag s).bay a') := by
  have docked := dockBay_docked a tag s
  by_cases e : a' = a
  · obtain ⟨m, p, hb⟩ := docked.bay
    rw [e, hb]
    exact baySettled_of_held (fleetDock_held a tag s) (by simp [dockedRecord])
  · rw [docked.others a' e]
    exact fleetDock_settled (h e) e tag

/-- A notice or reading that is compared leaves every bay settled (R122). -/
theorem comparePresence_settled (h : BaysSettled s) (a : Fin 288) (shown : Option RxTag) :
    BaysSettled (comparePresence a shown s) := by
  have dock (tag : RxTag) : BaysSettled (dockBay a tag s) := fun a' => dockBay_settled (fun _ => h a') tag
  have undock : BaysSettled (undockBay a s) := fun a' => undockBay_settled (h a')
  have replaced (tag : RxTag) : BaysSettled (dockBay a tag (undockBay a s)) :=
    fun a' => dockBay_settled (fun _ => undock a') tag
  unfold comparePresence
  repeat' split
  exacts [h, dock _, h, dock _, dock _, h, replaced _, undock, undock]

end Sys2Proof.Machine
end

section
/-! The pairing of the Receiver Table with the Bay Table and the Tour Table (R88, R89, R121): what it reads of a state, and how
one record or many may change under it. -/

namespace Sys2Proof.Machine

open Sys2Proof

variable {s t u : State}

/-! ### What the pairing reads -/

/-- A record is as its state has it, and the tour it is reserved or issued for runs with its run number and the channel of its
entry. -/
def RecordSettled (s : State) (r : Receiver) : Prop :=
  ReceiverSettled r ∧ ∀ ref, r.tour = some ref →
    let l := (s.tour ref.slot).live
    (r.phase = .reserved → l.phase = .live ∧ l.run = ref.run ∧ l.channels.get ref.entry = some ref.channel) ∧
    (r.phase = .issued → (l.phase = .live ∨ l.phase = .closing) ∧ l.run = ref.run ∧
      l.channels.get ref.entry = some ref.channel)

/-- Two records that the pairing does not tell apart. -/
structure SameRecord (r r' : Receiver) : Prop where
  tag : r'.tag = r.tag
  bay : r'.bay = r.bay
  phase : r'.phase = r.phase
  tour : r'.tour = r.tour
  deadline : r'.deadline = r.deadline
  required : r'.required = r.required
  short : r.short = false → r'.short = false

theorem SameRecord.refl (r : Receiver) : SameRecord r r := ⟨rfl, rfl, rfl, rfl, rfl, rfl, id⟩

theorem SameRecord.trans {r r' r'' : Receiver} (h : SameRecord r r') (k : SameRecord r' r'') : SameRecord r r'' :=
  ⟨k.tag.trans h.tag, k.bay.trans h.bay, k.phase.trans h.phase, k.tour.trans h.tour, k.deadline.trans h.deadline,
    k.required.trans h.required, k.short ∘ h.short⟩

theorem RecordSettled.congr {r r' : Receiver} (h : RecordSettled s r) (same : SameRecord r r') (parties : SameParties s t) :
    RecordSettled t r' := by
  obtain ⟨⟨bay, tour, deadline, rest⟩, ref⟩ := h
  refine ⟨⟨?_, ?_, ?_, fun hp => ?_⟩, fun x hx => ?_⟩
  · rw [same.bay, same.phase]
    exact bay
  · rw [same.tour, same.phase]
    exact tour
  · rw [same.deadline, same.phase]
    exact deadline
  · rw [same.phase] at hp
    exact ⟨same.short (rest hp).1, same.required.trans (rest hp).2⟩
  · obtain ⟨phase, run, channels⟩ := parties x.slot
    dsimp only
    rw [same.phase, phase, run, channels]
    exact ref x (same.tour ▸ hx)

/-- What the pairing reads is the same in two states, the presence of bays that name no receiver aside. -/
structure SameFleet (s t : State) : Prop where
  receiver : ∀ h, Option.Rel SameRecord (s.receiver h) (t.receiver h)
  presence : ∀ a h, (t.bay a).presence = .known h ↔ (s.bay a).presence = .known h
  parties : SameParties s t

theorem sameRecords_of_eq {x y : Option Receiver} (h : y = x) : Option.Rel SameRecord x y := by
  subst h
  cases y with
  | none => exact .none
  | some r => exact .some (.refl r)

theorem sameRecords_trans {x y z : Option Receiver} (h : Option.Rel SameRecord x y) (k : Option.Rel SameRecord y z) :
    Option.Rel SameRecord x z := by
  cases h with
  | none => exact k
  | some h => cases k with
    | some k => exact .some (h.trans k)

theorem sameRecords_of_counted (h : TurnsCounted s t) (m : Fin 384) : Option.Rel SameRecord (s.receiver m) (t.receiver m) := by
  obtain ⟨n, hn⟩ := h m
  rw [hn]
  cases s.receiver m with
  | none => exact .none
  | some r => exact .some ⟨rfl, rfl, rfl, rfl, rfl, rfl, id⟩

/-! ### The pairing under changes of records -/

namespace FleetPaired

theorem tags (h : FleetPaired s) {m m' : Fin 384} {r r' : Receiver} (hr : s.receiver m = some r)
    (hr' : s.receiver m' = some r') (ht : r.tag = r'.tag) : m = m' := h.1 m m' r r' hr hr' ht

theorem presence (h : FleetPaired s) {m : Fin 384} {r : Receiver} {a : Fin 288} (hr : s.receiver m = some r)
    (ha : r.bay = some a) : (s.bay a).presence = .known m := h.2.1 m r a hr ha

theorem named (h : FleetPaired s) {m : Fin 384} {a : Fin 288} (ha : (s.bay a).presence = .known m) :
    ∃ r, s.receiver m = some r ∧ r.bay = some a := h.2.2.1 a m ha

theorem record (h : FleetPaired s) {m : Fin 384} {r : Receiver} (hr : s.receiver m = some r) : RecordSettled s r :=
  h.2.2.2 m r hr

/-- A receiver stands in one bay at most. -/
theorem only (h : FleetPaired s) {m : Fin 384} {a a' : Fin 288} (ha : (s.bay a).presence = .known m)
    (ha' : (s.bay a').presence = .known m) : a' = a := by
  obtain ⟨r, hr, hb⟩ := h.named ha
  obtain ⟨r', hr', hb'⟩ := h.named ha'
  rw [hr] at hr'
  cases hr'
  rw [hb] at hb'
  exact (Option.some.inj hb').symm

/-- Records may change, with their tags and bays kept, as long as each stays settled. -/
theorem of_records (h : FleetPaired s) (presence : ∀ a m, (t.bay a).presence = .known m ↔ (s.bay a).presence = .known m)
    (records : ∀ m, Option.Rel (fun r r' => r'.tag = r.tag ∧ r'.bay = r.bay ∧ RecordSettled t r') (s.receiver m)
      (t.receiver m)) : FleetPaired t := by
  have old {m : Fin 384} {r' : Receiver} (hr' : t.receiver m = some r') :
      ∃ r, s.receiver m = some r ∧ r'.tag = r.tag ∧ r'.bay = r.bay ∧ RecordSettled t r' := by
    have rel := records m
    rw [hr'] at rel
    generalize s.receiver m = x at rel
    cases rel with
    | some k => exact ⟨_, rfl, k⟩
  refine ⟨fun m m' r r' hr hr' ht => ?_, fun m r a hr ha => ?_, fun a m ha => ?_, fun m r hr => ?_⟩
  · obtain ⟨q, hq, tag, -⟩ := old hr
    obtain ⟨q', hq', tag', -⟩ := old hr'
    exact h.tags hq hq' (by rw [← tag, ← tag', ht])
  · obtain ⟨q, hq, -, bay, -⟩ := old hr
    exact (presence a m).2 (h.presence hq (by rw [← bay, ha]))
  · obtain ⟨r, hr, hb⟩ := h.named ((presence a m).1 ha)
    have rel := records m
    rw [hr] at rel
    generalize t.receiver m = y at rel ⊢
    cases rel with
    | some k => exact ⟨_, rfl, k.2.1.trans hb⟩
  · obtain ⟨-, -, -, -, settled⟩ := old hr
    exact settled

theorem of_same (h : FleetPaired s) (k : SameFleet s t) : FleetPaired t := by
  refine h.of_records k.presence fun m => ?_
  have rel := k.receiver m
  cases hr : s.receiver m with
  | none =>
    rw [hr] at rel
    generalize t.receiver m = y at rel ⊢
    cases rel
    exact .none
  | some r =>
    rw [hr] at rel
    generalize t.receiver m = y at rel ⊢
    cases rel with
    | some same => exact .some ⟨same.tag, same.bay, (h.record hr).congr same k.parties⟩

/-- One record may come, go or change with its tag and bay, where the bays follow it. -/
theorem of_record (h : FleetPaired s) {n : Fin 384} (parties : SameParties s t)
    (others : ∀ m, m ≠ n → Option.Rel SameRecord (s.receiver m) (t.receiver m))
    (tag : ∀ r', t.receiver n = some r' → ∀ m r, m ≠ n → s.receiver m = some r → r.tag ≠ r'.tag)
    (presence : ∀ a m, m ≠ n → ((t.bay a).presence = .known m ↔ (s.bay a).presence = .known m))
    (own : ∀ a, (t.bay a).presence = .known n ↔ ∃ r', t.receiver n = some r' ∧ r'.bay = some a)
    (settled : ∀ r', t.receiver n = some r' → RecordSettled t r') : FleetPaired t := by
  have old {m : Fin 384} {r' : Receiver} (hm : m ≠ n) (hr' : t.receiver m = some r') :
      ∃ r, s.receiver m = some r ∧ SameRecord r r' := by
    have rel := others m hm
    rw [hr'] at rel
    generalize s.receiver m = x at rel
    cases rel with
    | some k => exact ⟨_, rfl, k⟩
  refine ⟨fun m m' r r' hr hr' ht => ?_, fun m r a hr ha => ?_, fun a m ha => ?_, fun m r hr => ?_⟩
  · by_cases hm : m = n
    · by_cases hm' : m' = n
      · rw [hm, hm']
      · obtain ⟨q', hq', same⟩ := old hm' hr'
        exact absurd (same.tag.symm.trans ht.symm) (tag r (hm ▸ hr) m' q' hm' hq')
    · obtain ⟨q, hq, same⟩ := old hm hr
      by_cases hm' : m' = n
      · exact absurd (same.tag.symm.trans ht) (tag r' (hm' ▸ hr') m q hm hq)
      · obtain ⟨q', hq', same'⟩ := old hm' hr'
        exact h.tags hq hq' (by rw [← same.tag, ← same'.tag, ht])
  · by_cases hm : m = n
    · subst hm
      exact (own a).2 ⟨r, hr, ha⟩
    · obtain ⟨q, hq, same⟩ := old hm hr
      exact (presence a m hm).2 (h.presence hq (by rw [← same.bay, ha]))
  · by_cases hm : m = n
    · subst hm
      exact (own a).1 ha
    · obtain ⟨r, hr, hb⟩ := h.named ((presence a m hm).1 ha)
      have rel := others m hm
      rw [hr] at rel
      generalize t.receiver m = y at rel ⊢
      cases rel with
      | some k => exact ⟨_, rfl, k.bay.trans hb⟩
  · by_cases hm : m = n
    · exact settled r (hm ▸ hr)
    · obtain ⟨q, hq, same⟩ := old hm hr
      exact (h.record hq).congr same parties

end FleetPaired

/-! ### What leaves the pairing as it is -/

namespace SameFleet

theorem refl (s : State) : SameFleet s s := ⟨fun _ => sameRecords_of_eq rfl, fun _ _ => Iff.rfl, .refl s⟩

theorem trans (h : SameFleet s t) (k : SameFleet t u) : SameFleet s u :=
  ⟨fun m => sameRecords_trans (h.receiver m) (k.receiver m), fun a m => (k.presence a m).trans (h.presence a m),
    h.parties.trans k.parties⟩

theorem of_stand (h : BaysStand s t) (receiver : ∀ m, Option.Rel SameRecord (s.receiver m) (t.receiver m))
    (parties : SameParties s t) : SameFleet s t := ⟨receiver, fun a m => by rw [(h a).1], parties⟩

theorem of_keeps {ps : List Part} (k : KeepsAllBut ps s t) (hr : Part.receivers ∉ ps) (hb : Part.bays ∉ ps)
    (ht : Part.tours ∉ ps) : SameFleet s t :=
  ⟨fun m => sameRecords_of_eq (k.receiver_eq hr m), fun a m => by rw [k.bay_eq hb], .of_keeps k ht⟩

end SameFleet

/-- Both tables stay as they are for the invariants of bays and receivers: bays stay settled, and the pairing reads the
same. -/
structure BaysKept (s t : State) : Prop where
  stand : BaysStand s t
  fleet : SameFleet s t

namespace BaysKept

theorem refl (s : State) : BaysKept s s := ⟨.refl s, .refl s⟩

theorem trans (h : BaysKept s t) (k : BaysKept t u) : BaysKept s u := ⟨h.stand.trans k.stand, h.fleet.trans k.fleet⟩

theorem of_keeps {ps : List Part} (k : KeepsAllBut ps s t) (hr : Part.receivers ∉ ps) (hb : Part.bays ∉ ps)
    (ht : Part.tours ∉ ps) : BaysKept s t := ⟨.of_keeps k hb, .of_keeps k hr hb ht⟩

theorem of_stand {ps : List Part} (h : BaysStand s t) (k : KeepsAllBut ps s t) (hr : Part.receivers ∉ ps)
    (ht : Part.tours ∉ ps) : BaysKept s t :=
  ⟨h, .of_stand h (fun m => sameRecords_of_eq (k.receiver_eq hr m)) (.of_keeps k ht)⟩

end BaysKept

theorem baysKept_charge : ChargeClosed BaysKept where
  refl := .refl
  trans := .trans
  flags s a m p v := .of_stand (baysStand_charge.flags s a m p v) (putBay_keeps (ps := [.bays]) .refl (by decide))
    (by decide) (by decide)
  turnSettle s a := .of_stand (baysStand_charge.turnSettle s a) (startTurnSettle_keeps (ps := [.bays]) .refl (by decide))
    (by decide) (by decide)
  sched s r q _ := .of_keeps (putSched_keeps (ps := [.sched]) .refl (by decide)) (by decide) (by decide) (by decide)
  countTurn s a := ⟨baysStand_charge.countTurn s a, .of_stand (baysStand_charge.countTurn s a)
    (sameRecords_of_counted (turnsCounted_charge.countTurn s a))
    (.of_keeps (countTurn_keeps (ps := [.receivers]) .refl (by decide)) (by decide))⟩

end Sys2Proof.Machine
end

section
/-! The pairing of receivers and bays through docks and undocks (R94 to R99, R122 to R124). -/

namespace Sys2Proof.Machine

open Sys2Proof

variable {s t u : State} {a : Fin 288} {n : Fin 384} {r : Receiver}

/-! ### Undocks -/

/-- A receiver that leaves its bay is ISSUED in its run, or a STRAY (R98, R99). -/
theorem RecordSettled.undocked (h : RecordSettled s r) (hb : r.bay = some a) (parties : SameParties s t) (time c : Nat) :
    RecordSettled t { undockedReceiver time r with turnCount := c } := by
  obtain ⟨⟨bay, tour, deadline, unreserved⟩, ref⟩ := h
  have phase : r.phase = .docked ∨ r.phase = .reserved := bay.1 (by rw [hb]; rfl)
  unfold undockedReceiver
  by_cases hp : r.phase = .reserved
  · rw [if_pos hp]
    simp only [hp] at tour deadline
    refine ⟨⟨by simp, by simpa using tour, by simpa using deadline, by simp⟩, fun x hx => ⟨nofun, fun _ => ?_⟩⟩
    obtain ⟨p, q, c⟩ := parties x.slot
    obtain ⟨live, rest⟩ := (ref x hx).1 hp
    rw [p, q, c]
    exact ⟨.inl live, rest⟩
  · have docked := phase.resolve_right hp
    simp only [docked] at tour deadline unreserved
    rw [if_neg hp]
    refine ⟨⟨by simp, by simpa using tour, by simpa using deadline, fun _ => unreserved (by simp)⟩, fun x hx =>
      ⟨nofun, nofun⟩⟩

theorem bayEmptied_presence (old : Bay) (a : Fin 288) (s : State) (a' : Fin 288) :
    ((bayEmptied old a s).bay a').presence = if a' = a then .empty else (s.bay a').presence := by
  have left := bayEmptied_left old a s
  split
  next e =>
    obtain ⟨p, v, hb⟩ := left.bay
    rw [e, hb]
  next e => exact (left.others a' e).presence

theorem bayEmptied_parties (old : Bay) (a : Fin 288) (s : State) : SameParties s (bayEmptied old a s) :=
  .of_keeps (bayEmptied_left old a s).keeps (by decide)

theorem undockBay_presence (a : Fin 288) (s : State) : ((undockBay a s).bay a).presence = .empty := by
  unfold undockBay
  dsimp only
  split
  next h => exact h
  · rw [bayEmptied_presence, if_pos rfl]
  · rw [bayEmptied_presence, if_pos rfl]

theorem FleetUndocked.parties (h : FleetUndocked s t a n r) : SameParties s t := by
  intro k
  rw [h.tour]
  split <;> exact ⟨rfl, rfl, rfl⟩

theorem FleetPaired.undockKnown (h : FleetPaired s) (hp : (s.bay a).presence = .known n) (old : Bay) :
    FleetPaired (bayEmptied old a (fleetUndock a n s)) := by
  obtain ⟨r, hr, hb⟩ := h.named hp
  have settled := h.record hr
  obtain ⟨u, hu⟩ : ∃ u, u = fleetUndock a n s := ⟨_, rfl⟩
  have taken : FleetUndocked s u a n r := by
    obtain ⟨⟨bay, tour, -, -⟩, -⟩ := settled
    rcases bay.1 (by rw [hb]; rfl) with docked | reserved
    · exact hu ▸ fleetUndock_docked hr docked
    · obtain ⟨ref, href⟩ := Option.isSome_iff_exists.1 (tour.2 (.inl reserved))
      exact hu ▸ fleetUndock_reserved hr reserved href
  obtain ⟨t, ht⟩ : ∃ t, t = bayEmptied old a u := ⟨_, rfl⟩
  have counted : TurnsCounted u t := ht ▸ bayEmptied_turnsCounted old a u
  have parties : SameParties s t := taken.parties.trans (ht ▸ bayEmptied_parties old a u)
  obtain ⟨c, record⟩ := counted n
  rw [taken.receiver, Option.map_some] at record
  have presence (a' : Fin 288) : (t.bay a').presence = if a' = a then .empty else (s.bay a').presence := by
    rw [ht, bayEmptied_presence]
    split
    next => rfl
    next e => rw [taken.bays a' e]
  have kept := undockedReceiver_kept s.mge.hubTime r
  rw [← hu, ← ht]
  refine h.of_record (n := n) parties (fun m hm => ?_) (fun r' hr' m q hm hq => ?_) (fun a' m hm => ?_) (fun a' => ?_)
    (fun r' hr' => ?_)
  · rw [← taken.others m hm]
    exact sameRecords_of_counted counted m
  · rw [record] at hr'
    cases hr'
    intro e
    exact hm (h.tags hq hr (e.trans kept.2.2.1))
  · rw [presence]
    split
    next e =>
      rw [e, hp]
      refine iff_of_false nofun fun hk => hm ?_
      cases hk
      rfl
    next => rfl
  · rw [presence, record]
    refine iff_of_false ?_ ?_
    · split
      · exact nofun
      next e => exact fun hk => e (h.only hp hk)
    · rintro ⟨r', hr', hb'⟩
      cases hr'
      exact absurd (kept.1.symm.trans hb') nofun
  · rw [record] at hr'
    cases hr'
    exact settled.undocked hb parties _ _

theorem FleetPaired.undockBay (h : FleetPaired s) (a : Fin 288) : FleetPaired (undockBay a s) := by
  unfold Machine.undockBay
  dsimp only
  split
  · exact h
  next hp => exact h.undockKnown hp _
  next tag hp =>
    have cleared := clearBay_keepsParts a s
    refine h.of_same ⟨fun m => ?_, fun a' m => ?_, ?_⟩
    · rw [← cleared.receiver_eq (by decide) m]
      exact sameRecords_of_counted (bayEmptied_turnsCounted _ _ _) m
    · rw [bayEmptied_presence]
      split
      next e =>
        rw [e, hp]
        exact iff_of_false nofun nofun
      next e => rw [clearBay_bay_ne e]
    · exact (SameParties.of_keeps cleared (by decide)).trans (bayEmptied_parties _ _ _)

/-! ### Docks -/

/-- A record takes a bay that named no other receiver, and leaves any bay it had. -/
theorem FleetPaired.place (h : FleetPaired s) (parties : SameParties s t)
    (others : ∀ m, m ≠ n → Option.Rel SameRecord (s.receiver m) (t.receiver m)) (record : t.receiver n = some r)
    (hb : r.bay = some a) (tag : ∀ m q, m ≠ n → s.receiver m = some q → q.tag ≠ r.tag)
    (here : (t.bay a).presence = .known n) (free : ∀ m, (s.bay a).presence ≠ .known m)
    (away : ∀ a', a' ≠ a → ∀ m, (t.bay a').presence = .known m ↔ m ≠ n ∧ (s.bay a').presence = .known m)
    (settled : RecordSettled t r) : FleetPaired t := by
  refine h.of_record (n := n) parties others (fun r' hr' => ?_) (fun a' m hm => ?_) (fun a' => ?_) (fun r' hr' => ?_)
  · rw [record] at hr'
    cases hr'
    exact tag
  · by_cases e : a' = a
    · rw [e, here]
      refine iff_of_false (fun hk => hm ?_) (free m)
      cases hk
      rfl
    · rw [away a' e]
      exact ⟨fun hk => hk.2, fun hk => ⟨hm, hk⟩⟩
  · by_cases e : a' = a
    · rw [e, here]
      exact iff_of_true rfl ⟨r, record, hb⟩
    · rw [away a' e]
      refine iff_of_false (fun hk => hk.1 rfl) ?_
      rintro ⟨r', hr', hb'⟩
      rw [record] at hr'
      cases hr'
      rw [hb] at hb'
      exact e (Option.some.inj hb').symm
  · rw [record] at hr'
    cases hr'
    exact settled

theorem KnownDocked.parties (h : KnownDocked s t a n r) : SameParties s t := by
  intro k
  rw [h.tour]
  split <;> exact ⟨rfl, rfl, rfl⟩

theorem FleetPaired.dockKnown (h : FleetPaired s) (hr : s.receiver n = some r) (hb : r.bay = none)
    (free : ∀ m, (s.bay a).presence ≠ .known m) : FleetPaired (dockKnown a n r s) := by
  have docked := dockKnown_docked a n r s
  obtain ⟨p, here⟩ := docked.bay
  refine h.place (n := n) (a := a) docked.parties (fun m hm => sameRecords_of_eq ?_)
    ((docked.receiver n).trans (if_pos rfl)) rfl (fun m q hm hq ht => hm (h.tags hq hr ht)) (by rw [here]) free
    (fun a' e m => ?_) ⟨⟨by simp [BayWorkClosed.returnedReceiver], by simp [BayWorkClosed.returnedReceiver],
      by simp [BayWorkClosed.returnedReceiver], fun _ => ⟨rfl, rfl⟩⟩, fun x hx => nomatch hx⟩
  · rw [docked.receiver, if_neg hm]
  · rw [docked.others a' e]
    refine ⟨fun hk => ⟨?_, hk⟩, fun hk => hk.2⟩
    rintro rfl
    obtain ⟨q, hq, hbq⟩ := h.named hk
    rw [hr] at hq
    cases hq
    rw [hb] at hbq
    cases hbq

theorem FleetPaired.enrolInto {tag : RxTag} (h : FleetPaired s) (hn : s.receiver n = none)
    (unknown : ∀ m q, s.receiver m = some q → q.tag ≠ tag) (free : ∀ m, (s.bay a).presence ≠ .known m) :
    FleetPaired (enrolInto a n tag s) := by
  obtain ⟨⟨p, here⟩, others, receiver, k⟩ := enrolInto_spec a n tag s
  refine h.place (n := n) (a := a) (.of_keeps k (by decide)) (fun m hm => sameRecords_of_eq ?_)
    ((receiver n).trans (if_pos rfl)) rfl (fun m q _ hq => unknown m q hq) (by rw [here]) free (fun a' e m => ?_)
    ⟨⟨by simp, by simp [newReceiver], by simp [newReceiver], fun _ => ⟨rfl, rfl⟩⟩, fun x hx => nomatch hx⟩
  · rw [receiver, if_neg hm]
  · rw [others a' e]
    refine ⟨fun hk => ⟨?_, hk⟩, fun hk => hk.2⟩
    rintro rfl
    obtain ⟨q, hq, -⟩ := h.named hk
    rw [hn] at hq
    cases hq

theorem FleetPaired.moveReceiver {old : Fin 288} (h : FleetPaired s) (hr : s.receiver n = some r) (hb : r.bay = some old)
    (free : ∀ m, (s.bay a).presence ≠ .known m) : FleetPaired (moveReceiver old a n s) := by
  obtain ⟨v, hv⟩ : ∃ v, bayEmptied (s.bay old) old (clearBay old s) = v := ⟨_, rfl⟩
  have cleared := clearBay_keepsParts old s
  have counted : TurnsCounted s v := by
    intro m
    obtain ⟨c, hc⟩ := bayEmptied_turnsCounted (s.bay old) old (clearBay old s) m
    rw [hv, cleared.receiver_eq (by decide)] at hc
    exact ⟨c, hc⟩
  have parties : SameParties s v :=
    hv ▸ (SameParties.of_keeps cleared (by decide)).trans (bayEmptied_parties (s.bay old) old (clearBay old s))
  have presence (a' : Fin 288) : (v.bay a').presence = if a' = old then .empty else (s.bay a').presence := by
    rw [← hv, bayEmptied_presence]
    split
    next => rfl
    next e => rw [clearBay_bay_ne e]
  obtain ⟨c, hc⟩ := counted n
  rw [hr, Option.map_some] at hc
  rw [moveReceiver_eq hv hc]
  obtain ⟨⟨p, here⟩, others, receiver, k⟩ := placed_assigned a n { r with turnCount := c }
    (carriedAssign { r with turnCount := c }) v
  have settled := h.record hr
  have all : SameParties s (setAssign a (carriedAssign { r with turnCount := c })
    (placeReceiver a n { r with turnCount := c } v)) := parties.trans (.of_keeps k (by decide))
  refine h.place (n := n) (a := a) all (fun m hm => ?_) ((receiver n).trans (if_pos rfl)) rfl
    (fun m q hm hq ht => hm (h.tags hq hr ht)) (by rw [here]) free (fun a' e m => ?_) ?_
  · rw [receiver, if_neg hm]
    exact sameRecords_of_counted counted m
  · rw [others a' e, presence]
    split
    next e' =>
      rw [e', h.presence hr hb]
      refine iff_of_false nofun fun hk => hk.1 ?_
      cases hk.2
      rfl
    next e' =>
      refine ⟨fun hk => ⟨?_, hk⟩, fun hk => hk.2⟩
      rintro rfl
      exact e' (h.only (h.presence hr hb) hk)
  · obtain ⟨⟨bay, tour, deadline, unreserved⟩, ref⟩ := settled
    rw [hb] at bay
    refine ⟨⟨by simpa using bay, tour, deadline, unreserved⟩, fun x hx => ?_⟩
    obtain ⟨q1, q2, q3⟩ := all x.slot
    dsimp only
    rw [q1, q2, q3]
    exact ref x hx

end Sys2Proof.Machine
end

section
/-! The pairing of receivers and bays through notices, reservations, closes and deadlines (R94, R104 to R107, R122). -/

namespace Sys2Proof.Machine

open Sys2Proof

variable {s t u : State} {a : Fin 288} {n : Fin 384} {r : Receiver}

/-! ### Notices (R94, R122, R123) -/

theorem unknown_of_findTag {tag : RxTag} (h : findTag tag s = none) (m : Fin 384) (q : Receiver)
    (hq : s.receiver m = some q) : q.tag ≠ tag := by
  have none := List.find?_eq_none.1 h m (List.mem_finRange m)
  simpa [hq] using none

theorem freeHandle_found (h : freeHandle s = some n) : s.receiver n = none := by
  have found := List.find?_some h
  simpa using found

theorem FleetPaired.undockFormer (h : FleetPaired s) (a : Fin 288) (tag : RxTag) : FleetPaired (undockFormer a tag s) := by
  unfold Machine.undockFormer
  repeat' split
  exacts [h, h.undockBay a, h, h, h]

/-- Where a bay still names a receiver after the undock of a former one, that receiver has the tag that docks (R94). -/
theorem FleetPaired.former (h : FleetPaired s) {tag : RxTag}
    (hp : ((Machine.undockFormer a tag s).bay a).presence = .known n) :
    ∃ q, (Machine.undockFormer a tag s).receiver n = some q ∧ q.tag = tag ∧ q.bay = some a := by
  cases hs : (s.bay a).presence with
  | known m =>
    obtain ⟨q, hq, hb⟩ := h.named hs
    by_cases ht : q.tag = tag
    · have eq : Machine.undockFormer a tag s = s := by
        unfold Machine.undockFormer
        rw [hs]
        dsimp only
        rw [hq]
        exact if_pos ht
      rw [eq, hs] at hp
      cases hp
      exact ⟨q, by rw [eq, hq], ht, hb⟩
    · have eq : Machine.undockFormer a tag s = Machine.undockBay a s := by
        unfold Machine.undockFormer
        rw [hs]
        dsimp only
        rw [hq]
        exact if_neg ht
      rw [eq, undockBay_presence] at hp
      cases hp
  | empty =>
    rw [undockFormer_of_empty tag hs, hs] at hp
    cases hp
  | foreign x =>
    have eq : Machine.undockFormer a tag s = s := by
      unfold Machine.undockFormer
      rw [hs]
    rw [eq, hs] at hp
    cases hp

/-- The dock of an unknown tag makes its bay FOREIGN, where it named no receiver. -/
theorem FleetPaired.dockUnknown (h : FleetPaired s) (free : ∀ m, (s.bay a).presence ≠ .known m) (tag : RxTag) :
    FleetPaired (dockUnknown a tag s) := by
  have docked := dockUnknown_docked a tag s
  obtain ⟨p, here⟩ := docked.bay
  refine h.of_same ⟨fun m => sameRecords_of_eq (docked.keeps.receiver_eq (by decide) m), fun a' m => ?_,
    .of_keeps docked.keeps (by decide)⟩
  by_cases e : a' = a
  · rw [e, here]
    exact iff_of_false nofun (free m)
  · rw [docked.others a' e]

theorem FleetPaired.fleetDock (h : FleetPaired s) (a : Fin 288) (tag : RxTag) : FleetPaired (fleetDock a tag s) := by
  have former := h.undockFormer a tag
  have names {m : Fin 384} := h.former (a := a) (tag := tag) (n := m)
  unfold Machine.fleetDock
  dsimp only
  generalize Machine.undockFormer a tag s = t at former names ⊢
  split
  next n hf =>
    obtain ⟨r, hr, ht⟩ := findTag_found hf
    rw [hr]
    dsimp only
    have free (hb : r.bay ≠ some a) (m : Fin 384) : (t.bay a).presence ≠ .known m := by
      intro hp
      obtain ⟨q, hq, tag', bay⟩ := names hp
      obtain rfl := former.tags hq hr (tag'.trans ht.symm)
      rw [hr] at hq
      cases hq
      exact hb bay
    split
    next old hb =>
      split
      next e =>
        rw [e] at hb
        have here := former.presence hr hb
        refine former.of_same ⟨fun m => sameRecords_of_eq rfl, fun a' m => ?_, .refl t⟩
        rw [State.putBay_bay]
        split
        next e' => rw [e', here]
        next => rfl
      next e => exact former.moveReceiver hr hb (free (by rw [hb]; exact fun hk => e (Option.some.inj hk)))
    next hb => exact former.dockKnown hr hb (free (by rw [hb]; nofun))
  next hf =>
    have unknown := unknown_of_findTag hf
    have free (m : Fin 384) : (t.bay a).presence ≠ .known m := by
      intro hp
      obtain ⟨q, hq, tag', -⟩ := names hp
      exact unknown m q hq tag'
    split
    next n _ hn => exact former.enrolInto (freeHandle_found hn) unknown free
    · exact former.dockUnknown free tag
    · exact former.dockUnknown free tag

theorem FleetPaired.dockBay (h : FleetPaired s) (a : Fin 288) (tag : RxTag) : FleetPaired (dockBay a tag s) := by
  have docked := dockBay_docked a tag s
  refine (h.fleetDock a tag).of_same ⟨fun m => sameRecords_of_eq (docked.keeps.receiver_eq (by decide) m), fun a' m => ?_,
    .of_keeps docked.keeps (by decide)⟩
  by_cases e : a' = a
  · obtain ⟨m', p, hb⟩ := docked.bay
    rw [e, hb]
    rfl
  · rw [docked.others a' e]

theorem FleetPaired.comparePresence (h : FleetPaired s) (a : Fin 288) (shown : Option RxTag) :
    FleetPaired (comparePresence a shown s) := by
  unfold Machine.comparePresence
  repeat' split
  exacts [h, h.dockBay a _, h, h.dockBay a _, h.dockBay a _, h, (h.undockBay a).dockBay a _, h.undockBay a, h.undockBay a]

/-! ### Reservations (R104, R105) -/

/-- A reservation is for a LIVE tour, its run and the channel of its entry (R70). -/
def ForRun (s : State) (q : Reservation) : Prop :=
  (s.tour q.slot).live.phase = .live ∧ (s.tour q.slot).live.run = q.run ∧
  (s.tour q.slot).live.channels.get q.entry = some q.channel

theorem reserve_stand (q : Reservation) (s : State) : BaysStand s (reserve q s).2 := by
  have one (short : Bool) (h : Fin 384) (u : State) : BaysStand u (reserveOne q short h u) := by
    unfold reserveOne
    split
    · exact .refl u
    · dsimp only
      split
      · exact (BaysStand.of_keeps (putReceiver_keeps (ps := [.receivers]) .refl (by decide)) (by decide)).trans (.setAssign _ _ _)
      · exact .of_keeps (putReceiver_keeps (ps := [.receivers]) .refl (by decide)) (by decide)
  have all : BaysStand s (reservedAll q s) := .forEach (fun h => one _ h) _ s
  rw [reserve_state]
  exact all.trans (.of_keeps (putLive_keeps (ps := [.tours]) .refl (by decide)) (by decide))

theorem reserve_parties (q : Reservation) (s : State) : SameParties s (reserve q s).2 := by
  rw [reserve_state]
  exact (SameParties.of_keeps (reservedAll_reserved q s).keeps (by decide)).trans (.putLive rfl rfl rfl)

theorem FleetPaired.reserve (h : FleetPaired s) {q : Reservation} (run : ForRun s q) : FleetPaired (reserve q s).2 := by
  have reserved := reservedAll_reserved q s
  have parties := reserve_parties q s
  have receiver (m : Fin 384) : (Machine.reserve q s).2.receiver m = (reservedAll q s).receiver m := by
    rw [reserve_state]
    rfl
  refine h.of_records (fun a m => by rw [(reserve_stand q s a).1]) fun m => ?_
  rw [receiver]
  by_cases hm : m ∈ takenBy q s
  · obtain ⟨r, p, a, hr, docked, -, -, hb, -⟩ := pooled_of_mem hm
    rw [reserved.taken m hm, hr]
    obtain ⟨⟨bay, tour, deadline, -⟩, -⟩ := h.record hr
    rw [docked] at bay tour deadline
    refine .some ⟨rfl, rfl, ⟨?_, ?_, ?_, fun hp => absurd rfl hp⟩, fun x hx => ?_⟩
    · simpa [reservedReceiver] using bay
    · simp [reservedReceiver]
    · simpa [reservedReceiver] using deadline
    · obtain rfl : _ = x := Option.some.inj hx
      obtain ⟨live, hrun, hch⟩ := run
      obtain ⟨p1, p2, p3⟩ := parties q.slot
      refine ⟨fun _ => ?_, nofun⟩
      dsimp only
      rw [p1, p2, p3]
      exact ⟨live, hrun, hch⟩
  · rw [reserved.others m hm]
    cases hr : s.receiver m with
    | none => exact .none
    | some r => exact .some ⟨rfl, rfl, (h.record hr).congr (.refl r) parties⟩

end Sys2Proof.Machine
end

section
/-! The settled bays and the pairing through closes, deadlines and the work of a mix point (R81 to R86, R105 to R107). -/

namespace Sys2Proof.Machine

open Sys2Proof

variable {s t u : State} {slot : Fin 16} {r : Receiver}

/-- Both invariants of bays and receivers hold after an action where they hold before. -/
structure BaysHold (s t : State) : Prop where
  settled : BaysSettled s → BaysSettled t
  paired : FleetPaired s → FleetPaired t

theorem BaysHold.refl (s : State) : BaysHold s s := ⟨id, id⟩

theorem BaysHold.trans (h : BaysHold s t) (k : BaysHold t u) : BaysHold s u := ⟨k.settled ∘ h.settled, k.paired ∘ h.paired⟩

theorem BaysKept.holds (h : BaysKept s t) : BaysHold s t := ⟨h.stand.baysSettled, fun k => k.of_same h.fleet⟩

theorem BaysHold.of_keeps {ps : List Part} (k : KeepsAllBut ps s t) (hr : Part.receivers ∉ ps) (hb : Part.bays ∉ ps)
    (ht : Part.tours ∉ ps) : BaysHold s t := (BaysKept.of_keeps k hr hb ht).holds

/-- Tours that keep their runs are the same to the pairing. -/
theorem BaysKept.of_parties {ps : List Part} (h : SameParties s t) (k : KeepsAllBut ps s t) (hr : Part.receivers ∉ ps)
    (hb : Part.bays ∉ ps) : BaysKept s t :=
  have stand := BaysStand.of_keeps k hb
  ⟨stand, .of_stand stand (fun m => sameRecords_of_eq (k.receiver_eq hr m)) h⟩

/-! ### Records of a run -/

/-- A record reserved or issued for a tour is one of its run. -/
theorem RecordSettled.inRun (h : RecordSettled s r) (hp : r.phase = .reserved ∨ r.phase = .issued) {ref : TourRef}
    (ht : r.tour = some ref) (hs : ref.slot = slot) : InRun slot (s.tour slot).live.run r := by
  subst hs
  have run : (s.tour ref.slot).live.run = ref.run := by
    obtain ⟨reserved, issued⟩ := h.2 ref ht
    exact hp.elim (fun hp => (reserved hp).2.1) fun hp => (issued hp).2.1
  rw [InRun, ht, run]
  rfl

/-- A record stays settled where the tours of other slots do, and its own tour answers for it. -/
theorem RecordSettled.moved (h : RecordSettled s r) (away : ∀ k, k ≠ slot → t.tour k = s.tour k)
    (mine : ∀ ref, r.tour = some ref → ref.slot = slot →
      (r.phase ≠ .reserved) ∧ (r.phase = .issued → ((t.tour slot).live.phase = .live ∨ (t.tour slot).live.phase = .closing) ∧
        (t.tour slot).live.run = ref.run ∧ (t.tour slot).live.channels.get ref.entry = some ref.channel)) :
    RecordSettled t r := by
  refine ⟨h.1, fun ref ht => ?_⟩
  by_cases hs : ref.slot = slot
  · obtain ⟨unreserved, issued⟩ := mine ref ht hs
    dsimp only
    rw [hs]
    exact ⟨fun hp => absurd hp unreserved, issued⟩
  · dsimp only
    rw [away ref.slot hs]
    exact h.2 ref ht

/-- A released record is DOCKED, free of any tour (R105). -/
theorem RecordSettled.released (h : RecordSettled s r) (hp : r.phase = .reserved) : RecordSettled t
    { r with phase := .docked, tour := none, short := false, required := none } := by
  obtain ⟨⟨bay, -, deadline, -⟩, -⟩ := h
  rw [hp] at bay deadline
  exact ⟨⟨by simpa using bay, by simp, by simpa using deadline, fun _ => ⟨rfl, rfl⟩⟩, nofun⟩

/-- A due record has its deadline (R106). -/
theorem RecordSettled.due (h : RecordSettled s r) (hp : r.phase = .issued) (d : Nat) :
    RecordSettled t { r with phase := .due, deadline := some d } := by
  obtain ⟨⟨bay, tour, -, unreserved⟩, -⟩ := h
  rw [hp] at bay tour unreserved
  exact ⟨⟨by simpa using bay, by simpa using tour, by simp, fun _ => unreserved (by simp)⟩, fun _ _ => ⟨nofun, nofun⟩⟩

/-- An overdue record keeps its deadline (R107). -/
theorem RecordSettled.overdue (h : RecordSettled s r) (hp : r.phase = .due) : RecordSettled t { r with phase := .overdue } := by
  obtain ⟨⟨bay, tour, deadline, unreserved⟩, -⟩ := h
  rw [hp] at bay tour deadline unreserved
  exact ⟨⟨by simpa using bay, by simpa using tour, by simpa using deadline, fun _ => unreserved (by simp)⟩,
    fun _ _ => ⟨nofun, nofun⟩⟩

/-! ### Releases and closes -/

theorem releaseRun_stand (slot : Fin 16) (run : BitVec 16) (s : State) : BaysStand s (releaseRun slot run s) := by
  have put (h : Fin 384) (x : Option Receiver) (u : State) : BaysStand u (u.putReceiver h x) :=
    .of_keeps (putReceiver_keeps (ps := [.receivers]) .refl (by decide)) (by decide)
  have noted (u : State) : BaysStand u (noteReleased slot u) :=
    .of_keeps (putLive_keeps (ps := [.tours]) .refl (by decide)) (by decide)
  refine .forEach (fun h u => ?_) _ s
  unfold releaseOne
  split
  · exact .refl u
  split
  · dsimp only
    split
    · exact ((put _ _ u).trans (.setAssign _ _ _)).trans (noted _)
    · exact (put _ _ u).trans (noted _)
  · exact .refl u

theorem closeActions_stand (silent : Bool) (slot : Fin 16) (s : State) : BaysStand s (closeActions silent slot s).1 := by
  have bound : KeepsAllBut [.receivers, .tours, .programs, .zones] (releaseRun slot (s.tour slot).live.run s)
      (closeBound slot s) := by
    have disowned := planDisowned_keeps slot s
      (makeDue slot (s.tour slot).live.run (releaseRun slot (s.tour slot).live.run s))
    exact putLive_keeps (unbindTour_keeps (((makeDue_keepsParts _ _ _).mono (by decide)).trans (disowned.mono (by decide)))
      (by decide) (by decide) (by decide)) (by decide)
  have stand : BaysStand s (closeBound slot s) := (releaseRun_stand _ _ s).trans (.of_keeps bound (by decide))
  rw [closeActions_eq]
  split
  · exact stand
  · exact stand.trans (.of_keeps (raiseTour_keeps (ps := eventParts) .refl (by decide) (by decide)) (by decide))

theorem FleetPaired.close {silent : Bool} (h : FleetPaired s) (taken : CloseTaken silent slot s t) (stand : BaysStand s t) :
    FleetPaired t := by
  refine h.of_records (fun a m => by rw [(stand a).1]) fun m => ?_
  rw [taken.receiver]
  cases hr : s.receiver m with
  | none => exact .none
  | some r =>
    have settled := h.record hr
    rw [releasedRecord, Option.map_some, dueRecord, Option.map_some]
    by_cases reserved : ofRun r .reserved slot (s.tour slot).live.run = true
    · rw [if_pos reserved, if_neg (by simp [ofRun])]
      exact .some ⟨rfl, rfl, settled.released (ofRun_iff.1 reserved).1⟩
    · rw [if_neg reserved]
      by_cases issued : ofRun r .issued slot (s.tour slot).live.run = true
      · rw [if_pos issued]
        exact .some ⟨rfl, rfl, settled.due (ofRun_iff.1 issued).1 _⟩
      · rw [if_neg issued]
        refine .some ⟨rfl, rfl, settled.moved taken.away fun ref ht hs => ⟨fun hp => ?_, fun hp => ?_⟩⟩
        · exact reserved (ofRun_iff.2 ⟨hp, settled.inRun (.inl hp) ht hs⟩)
        · exact absurd (ofRun_iff.2 ⟨hp, settled.inRun (.inr hp) ht hs⟩) issued

theorem closeActions_holds (silent : Bool) (slot : Fin 16) (s : State) : BaysHold s (closeActions silent slot s).1 :=
  have stand := closeActions_stand silent slot s
  ⟨stand.baysSettled, fun h => h.close (closeActions_spec silent slot s) stand⟩

/-! ### Deadlines and service -/

theorem FleetPaired.judgeDeadlines (h : FleetPaired s) : FleetPaired (judgeDeadlines s) := by
  have k := judgeDeadlines_keepsParts s
  refine h.of_records (fun a m => by rw [k.bay_eq (by decide)]) fun m => ?_
  rw [(judgeDeadlines_spec s).1, judgedRecord]
  cases hr : s.receiver m with
  | none => exact .none
  | some r =>
    have settled := (h.record hr).congr (.refl r) (.of_keeps k (by decide))
    rw [Option.map_some]
    split
    next due =>
      obtain ⟨hp, -⟩ := deadlineReached_iff.1 due
      exact .some ⟨rfl, rfl, settled.overdue hp⟩
    next => exact .some ⟨rfl, rfl, settled⟩

theorem judgeDeadlines_holds (s : State) : BaysHold s (judgeDeadlines s) :=
  ⟨(BaysStand.of_keeps (judgeDeadlines_keepsParts s) (by decide)).baysSettled, FleetPaired.judgeDeadlines⟩

theorem serveZones_holds (zs : ZoneSet) (s : State) : BaysHold s (serveZones zs s) :=
  (BaysKept.of_parties ((sameParties_handover 0).serveZones zs s) (serveZones_keeps (ps := [.zones, .tours, .events, .egress])
    .refl (by decide) (by decide) (by decide) (by decide)) (by decide) (by decide)).holds

theorem closeTour_holds (slot : Fin 16) (s : State) : BaysHold s (closeTour slot s) := by
  have closed := closeActions_holds false slot s
  unfold closeTour
  dsimp only
  exact (closed.trans (serveZones_holds _ _)).trans (judgeDeadlines_holds _)

theorem closeAll_holds (silent : Bool) (s : State) : BaysHold s (closeAll silent s) := by
  have held (ks : List (Fin 16)) (r : State × ZoneSet) :
      BaysHold r.1 (ks.foldl (fun acc k => closeHeld silent k acc) r).1 := by
    induction ks generalizing r with
    | nil => exact .refl r.1
    | cons k ks ih =>
      have one : BaysHold r.1 (closeHeld silent k r).1 := by
        unfold closeHeld
        split
        exacts [closeActions_holds silent k r.1, .refl r.1]
      exact one.trans (ih _)
  have closed := held (indices 16) (s, 0#12)
  unfold closeAll
  dsimp only
  exact (closed.trans (serveZones_holds _ _)).trans (judgeDeadlines_holds _)

theorem rackSender_holds (s : State) : BaysHold s (rackSender s) :=
  (BaysKept.of_stand (.rackSender s) (rackSender_keepsParts s) (by decide) (by decide)).holds

/-! ### TOUR END -/

theorem closingTour_holds (slot : Fin 16) (hold : Option Nat) (s : State) : BaysHold s (closingTour slot hold s) := by
  have stand : BaysStand s (closingTour slot hold s) :=
    (releaseRun_stand slot (s.tour slot).live.run s).trans
      (.of_keeps (putLive_keeps (ps := [.tours]) .refl (by decide)) (by decide))
  have tour := closingTour_tour slot hold s
  have receiver := closingTour_receiver slot hold s
  have away := fun k (hk : k ≠ slot) => closingTour_away slot hold s hk
  obtain ⟨t, ht⟩ : ∃ t, t = closingTour slot hold s := ⟨_, rfl⟩
  rw [← ht] at stand tour receiver away ⊢
  refine ⟨stand.baysSettled, fun h => h.of_records (fun a m => by rw [(stand a).1]) fun m => ?_⟩
  rw [receiver]
  cases hr : s.receiver m with
  | none => exact .none
  | some r =>
    have settled := h.record hr
    rw [releasedRecord, Option.map_some]
    by_cases reserved : ofRun r .reserved slot (s.tour slot).live.run = true
    · rw [if_pos reserved]
      exact .some ⟨rfl, rfl, settled.released (ofRun_iff.1 reserved).1⟩
    · rw [if_neg reserved]
      refine .some ⟨rfl, rfl, settled.moved away fun ref ht' hs => ⟨fun hp => ?_, fun hp => ?_⟩⟩
      · exact reserved (ofRun_iff.2 ⟨hp, settled.inRun (.inl hp) ht' hs⟩)
      · obtain ⟨-, rest⟩ := (settled.2 ref ht').2 hp
        rw [hs] at rest
        rw [tour]
        exact ⟨.inr rfl, rest⟩

theorem endTour_holds (slot : Fin 16) (s : State) : BaysHold s (endTour slot s) := by
  have closing := closingTour_holds slot (loadedHold slot s) s
  rw [endTour_eq]
  split
  exacts [closing.trans (closeTour_holds _ _), closing]

end Sys2Proof.Machine
end

section
/-! The settled bays and the pairing through the requests and the timers of tours (R54, R63 to R71, R76 to R85). -/

namespace Sys2Proof.Machine

open Sys2Proof

variable {s t u : State} {slot : Fin 16} {a : List Byte} {p : Plan} {z : Fin 12}

/-! ### Slots without a run -/

/-- No record is RESERVED or ISSUED for a slot without a run, so its tour may be any other. -/
theorem BaysHold.of_idle {ps : List Part} (k : KeepsAllBut ps s t) (hr : Part.receivers ∉ ps) (hb : Part.bays ∉ ps)
    (idle : isRunning (s.tour slot) = false) (away : ∀ j, j ≠ slot → t.tour j = s.tour j) : BaysHold s t := by
  refine ⟨(BaysStand.of_keeps k hb).baysSettled, fun h => h.of_records (fun a m => by rw [k.bay_eq hb]) fun m => ?_⟩
  rw [k.receiver_eq hr]
  cases hm : s.receiver m with
  | none => exact .none
  | some r =>
    have settled := h.record hm
    have unused (ref : TourRef) (ht : r.tour = some ref) (hs : ref.slot = slot) : r.phase ≠ .reserved ∧ r.phase ≠ .issued := by
      obtain ⟨reserved, issued⟩ := settled.2 ref ht
      rw [hs] at reserved issued
      have stopped := Bool.eq_false_iff.1 idle
      exact ⟨fun hp => stopped (isRunning_iff.2 (.inl (reserved hp).1)), fun hp => stopped (isRunning_iff.2 (issued hp).1)⟩
    refine .some ⟨rfl, rfl, settled.moved away fun ref ht hs => ?_⟩
    obtain ⟨unreserved, unissued⟩ := unused ref ht hs
    exact ⟨unreserved, fun hp => absurd hp unissued⟩

theorem BaysHold.putIdle (x : Tour) (idle : isRunning (s.tour slot) = false) : BaysHold s (s.putTour slot x) :=
  .of_idle (putTour_keeps (ps := [.tours]) .refl (by decide)) (by decide) (by decide) idle fun j hj => by
    rw [State.putTour_tour, if_neg hj]

theorem loadTourPlan_holds (s : State) : BaysHold s (loadTourPlan a s).state := by
  unfold loadTourPlan
  split
  · exact .refl s
  · dsimp only
    split
    · exact .refl s
    next idle =>
      split
      · exact .refl s
      · exact .putIdle _ (Bool.eq_false_iff.2 idle)

theorem loadTourTiming_holds (s : State) : BaysHold s (loadTourTiming a s).state := by
  have timed (k : Fin 16) (x : Option Timing) : SameParties s (s.putTour k { s.tour k with timing := x }) := by
    intro j
    rw [State.putTour_tour]
    split
    next e => rw [e]; exact ⟨rfl, rfl, rfl⟩
    next => exact ⟨rfl, rfl, rfl⟩
  have keeps := loadTourTiming_keeps (a := a) (s := s) (ps := [.tours]) .refl (by decide)
  refine (BaysKept.of_parties ?_ keeps (by decide) (by decide)).holds
  unfold loadTourTiming
  split
  · exact .refl s
  · dsimp only
    split
    exacts [.refl s, timed _ _]

theorem clearTour_holds (s : State) : BaysHold s (clearTour a s).state := by
  unfold clearTour
  split
  · exact .refl s
  · split
    next hp => exact .putIdle _ (by simp [isRunning, hp])
    next => exact .refl s

/-! ### Starts and reservations -/

theorem reserveFor_parties (slot : Fin 16) (e : Fin 4) (n : Nat) (s : State) : SameParties s (reserveFor slot e n s).2 := by
  unfold reserveFor
  dsimp only
  split
  exacts [.refl s, reserve_parties _ s]

/-- A request for an entry of a LIVE tour is one for its run. -/
theorem reserveFor_holds (live : (s.tour slot).live.phase = .live) (e : Fin 4) (n : Nat) :
    BaysHold s (reserveFor slot e n s).2 := by
  unfold reserveFor
  dsimp only
  split
  · exact .refl s
  next ch hc => exact ⟨(reserve_stand _ s).baysSettled, fun h => h.reserve ⟨live, rfl, hc⟩⟩

theorem reserveParties_holds (xs : List (Fin 4 × Entry)) (live : (s.tour slot).live.phase = .live) :
    BaysHold s (reserveParties slot xs s).2 := by
  induction xs generalizing s with
  | nil => exact .refl s
  | cons x rest ih =>
    exact (reserveFor_holds live x.1 x.2.party).trans (ih ((reserveFor_parties slot x.1 x.2.party s slot).1.trans live))

theorem startTour_holds (room : (planEntries p).length ≤ (freeChannels s).length)
    (planned : (s.tour slot).live.phase = .planned) : BaysHold s (startTour slot p z s).2 := by
  have bound := tourBound_spec (s := s) slot z room
  have started : BaysHold s (tourBound slot p z s) :=
    .of_idle bound.keeps (by decide) (by decide) (by simp [isRunning, planned]) bound.away
  have live : ((tourBound slot p z s).tour slot).live.phase = .live := by
    rw [bound.tour]
    rfl
  have reserved := started.trans (reserveParties_holds (planEntries p) live)
  rw [startTour_eq]
  dsimp only
  rw [← parties_state]
  exact reserved.trans (.of_keeps (raiseTour_keeps (ps := eventParts) .refl (by decide) (by decide)) (by decide) (by decide)
    (by decide))

theorem tourStart_holds (s : State) : BaysHold s (tourStart a s).state := by
  unfold tourStart
  split
  · exact .refl s
  · split
    · exact .refl s
    next p z hc =>
      obtain ⟨planned, -, channels, -⟩ := startChecks_ok hc
      exact (startTour_holds (z := z) channels planned).trans
        (.of_keeps (useChoice_keeps (ps := [.choices]) .refl (by decide)) (by decide) (by decide) (by decide))

theorem reserveMore_holds (s : State) : BaysHold s (reserveMore a s).state := by
  have asking (slot : Fin 16) (e : Fin 4) (x : Tab Nat 4) (n : Nat) (live : (s.tour slot).live.phase = .live) :
      BaysHold s (reserveFor slot e n (s.putLive slot { (s.tour slot).live with asked := x })).2 := by
    have asked : SameParties s (s.putLive slot { (s.tour slot).live with asked := x }) := .putLive rfl rfl rfl
    exact (BaysKept.of_parties asked (putLive_keeps (ps := [.tours]) .refl (by decide)) (by decide)
      (by decide)).holds.trans (reserveFor_holds ((asked slot).1.trans live) e n)
  unfold reserveMore
  split
  next slot e _ _ =>
    dsimp only
    split
    · exact .refl s
    next hp =>
      split
      · exact .refl s
      · exact asking slot e _ _ (not_not.1 hp)
  · exact .refl s

/-! ### Ends -/

theorem tourEnd_holds (s : State) : BaysHold s (tourEnd a s).state := by
  unfold tourEnd
  split
  · exact .refl s
  next slot _ =>
    split
    · exact .refl s
    · dsimp only [endReply]
      exact endTour_holds slot s
    · exact .refl s
    · exact .refl s

theorem tourAbort_holds (s : State) : BaysHold s (tourAbort a s).state := by
  unfold tourAbort
  split
  · exact .refl s
  next slot _ =>
    split
    · dsimp only
      exact closeTour_holds slot s
    · exact .refl s

/-! ### The work of a mix point and of marks -/

theorem tickWindow_holds (slot : Fin 16) (s : State) : BaysHold s (tickWindow slot s) :=
  (BaysKept.of_parties ((sameParties_handover slot).tickWindow s) (tickWindow_keeps
    (ps := [.zones, .tours, .events, .egress]) .refl (by decide) (by decide) (by decide) (by decide)) (by decide)
    (by decide)).holds

theorem tickSilence_holds (slot : Fin 16) (s : State) : BaysHold s (tickSilence slot s) := by
  obtain ⟨stage, timer, fallback, silenced⟩ := tickSilence_silenced slot s
  exact (BaysKept.of_parties silenced.parties silenced.keeps (by decide) (by decide)).holds

theorem countSilence_holds {n : Nat} (due : silenceDue s slot n = true) : BaysHold s (countSilence slot s) := by
  have quiet : guideVoice s slot = false := by
    unfold silenceDue at due
    simp only [Bool.and_eq_true] at due
    simpa using due.1.1.2
  rw [← tickSilence_quiet quiet]
  exact tickSilence_holds slot s

theorem tickClose_holds (slot : Fin 16) (s : State) : BaysHold s (tickClose slot s) := by
  have counted (hold wait : Option Nat) : BaysHold s (s.putLive slot { (s.tour slot).live with hold := hold, wait := wait }) :=
    have same : SameParties s (s.putLive slot { (s.tour slot).live with hold := hold, wait := wait }) := .putLive rfl rfl rfl
    (BaysKept.of_parties same (putLive_keeps (ps := [.tours]) .refl (by decide)) (by decide)
      (by decide)).holds
  unfold tickClose
  dsimp only
  split
  · split
    exacts [(counted _ _).trans (closeTour_holds slot _), counted _ _]
  · exact .refl s

theorem doWork_holds (x : TourWork) (s : State) : BaysHold s (doWork x s) := by
  cases x with
  | window k => exact tickWindow_holds k s
  | timers k =>
    show BaysHold s (tickTour k s)
    unfold tickTour
    split
    exacts [(tickSilence_holds k s).trans (tickClose_holds k _), .refl s]

theorem mixPoint_holds (s : State) : BaysHold s (mixPoint s) := by
  have works (xs : List TourWork) (v : State) : BaysHold v (forEach xs doWork v) := by
    induction xs generalizing v with
    | nil => exact .refl v
    | cons x xs ih => exact (doWork_holds x v).trans (ih _)
  have ready : BaysHold s (mixReady s) := .of_keeps (mixReady_start s).keeps (by decide) (by decide) (by decide)
  rw [mixPoint_eq]
  exact (ready.trans (works _ _)).trans (rackSender_holds _)

theorem passAdvance_holds (i : Fin 48) (d : Nat) (s : State) : BaysHold s (passAdvance i d s) := by
  have advances (slots : List (Fin 16)) (v : State) : SameParties v (forEach slots (takeAdvance d) v) := by
    induction slots generalizing v with
    | nil => exact .refl v
    | cons k rest ih => exact (takeAdvance_parties d k v).trans (ih _)
  have parties : SameParties s (passAdvance i d s) := by
    unfold passAdvance
    split
    · split
      · exact .refl s
      · exact .of_tour rfl
    · exact advances _ s
  exact (BaysKept.of_parties parties (passAdvance_keeps (ps := [.sources, .tours, .programs, .zones, .events, .egress]) .refl
    (by decide) (by decide) (by decide) (by decide) (by decide) (by decide)) (by decide) (by decide)).holds

theorem loadChannel_holds (s : State) : BaysHold s (loadChannel a s).state := by
  have changed (zs : ZoneSet) (ch : Fin 24) (p : Option (Fin 32)) (ys : ZoneSet) :
      BaysHold s (serveZones zs (changeChannel ch p ys s)) :=
    (BaysHold.of_keeps (changeChannel_keeps (ps := [.zones, .programs]) .refl (by decide) (by decide)) (by decide)
      (by decide) (by decide)).trans (serveZones_holds zs _)
  unfold loadChannel
  split
  · exact .refl s
  next ch given zs _ =>
    dsimp only
    split
    · exact .refl s
    cases given with
    | none => exact changed _ _ _ _
    | some p =>
      dsimp only
      repeat' split
      exacts [.refl s, .refl s, .refl s, changed _ _ _ _]

end Sys2Proof.Machine
end

section
/-! The settled bays and the pairing through the work of racks, readings and arriving frames (R114 to R126, R139 to R155). -/

namespace Sys2Proof.Machine

open Sys2Proof

variable {s t u : State} {a : List Byte} {b : Fin 288}

/-! ### The Charge Scheduler and the Rack Poller -/

namespace BaysKept

theorem raiseEvent (k : EventKind) (n : Nat) (r : Option (BitVec 16)) (d : Nat) (s : State) :
    BaysKept s (raiseEvent k n r d s) :=
  .of_keeps (raiseEvent_keeps (ps := eventParts) .refl (by decide) (by decide)) (by decide) (by decide) (by decide)

theorem putSched (r : Fin 12) (q : Sched) (s : State) : BaysKept s (s.putSched r q) :=
  .of_keeps (putSched_keeps (ps := [.sched]) .refl (by decide)) (by decide) (by decide) (by decide)

theorem putRackLive (r : Fin 12) (x : RackLive) (s : State) : BaysKept s (s.putRackLive r x) :=
  .of_keeps (putRackLive_keeps (ps := [.rackLives]) .refl (by decide)) (by decide) (by decide) (by decide)

/-- A bay record that keeps presence and settle keeps both tables as they are. -/
theorem putBay {x : Bay} (hp : x.presence = (s.bay b).presence) (h : BaySettled (s.bay b) → BaySettled x) :
    BaysKept s (s.putBay b x) :=
  .of_stand (.putBay hp h) (putBay_keeps (ps := [.bays]) .refl (by decide)) (by decide) (by decide)

theorem changeBand (rack : Fin 12) (new : Fin 8) (s : State) : BaysKept s (changeBand rack new s) := by
  have settled : BaysKept s (bandSettled rack new s) := baysKept_charge.bandSettled (fun v r q => putSched r q v) rack new s
  rw [changeBand_eq]
  split
  exacts [settled, settled.trans (raiseEvent _ _ _ _ _)]

theorem treatRack (rack : Fin 12) (s : State) : BaysKept s (treatRack rack s) := by
  unfold Machine.treatRack
  split
  exacts [changeBand _ _ s, changeBand _ _ s, .refl s]

theorem cadenceAct (rack : Fin 12) (s : State) : BaysKept s (cadenceAct rack s) := by
  simp only [Machine.cadenceAct]
  repeat' split
  exacts [putSched _ _ s, .refl s, baysKept_charge.startSelected rack (fun _ => by rfl) s, .refl s, putSched _ _ s,
    (putSched _ _ s).trans (raiseEvent _ _ _ _ _)]

theorem markRackPending (rack : Fin 12) (s : State) : BaysKept s (markRackPending rack s) :=
  baysKept_charge.forEach (fun n u => baysKept_charge.flags u (bayAddress rack n) _ true _) _ s

theorem rackOffline (rack : Fin 12) (s : State) : BaysKept s (rackOffline rack s) :=
  ((putRackLive rack _ s).trans (raiseEvent _ _ _ _ _)).trans (baysKept_charge.leaveOnline rack _)

theorem rackOnline (rack : Fin 12) (n : Nat) (s : State) : BaysKept s (rackOnline rack n s) :=
  (((putRackLive rack _ s).trans (raiseEvent _ _ _ _ _)).trans (markRackPending rack _)).trans (baysKept_charge.resync rack _)

theorem settlePoll (rack : Fin 12) (n : Fin 24) (s : State) : BaysKept s (settlePoll rack n s) := by
  unfold Machine.settlePoll
  dsimp only
  split
  · split
    · exact ((putRackLive _ _ s).trans (rackOnline _ _ _)).trans (putRackLive _ _ _)
    · exact (putRackLive _ _ s).trans (putRackLive _ _ _)
  split
  · exact putRackLive _ _ s
  · exact .refl s

theorem disableRack (rack : Fin 12) (s : State) : BaysKept s (disableRack rack s) := by
  have withdrawn (x : RackLive) : BaysKept s (withdrawPoll rack (s.putRackLive rack x)) :=
    .of_keeps (withdrawPoll_keeps (ps := [.rackLives, .egress]) (putRackLive_keeps .refl (by decide)) (by decide))
      (by decide) (by decide) (by decide)
  simp only [Machine.disableRack]
  split
  · exact (withdrawn _).trans (baysKept_charge.leaveOnline rack _)
  · exact withdrawn _

theorem enableRack (rack : Fin 12) (s : State) : BaysKept s (enableRack rack s) :=
  .of_keeps (enableRack_keeps (ps := [.rackLives, .egress]) .refl (by decide) (by decide)) (by decide) (by decide)
    (by decide)

theorem rekeyRack (rack : Fin 12) (s : State) : BaysKept s (rekeyRack rack s) := by
  have disabled := disableRack rack s
  simp only [Machine.rekeyRack]
  split
  exacts [(disabled.trans (raiseEvent _ _ _ _ _)).trans (enableRack rack _), disabled.trans (enableRack rack _)]

theorem applyRackConfig (rack : Fin 12) (c : RackConfig) (s : State) : BaysKept s (applyRackConfig rack c s) := by
  have loaded : BaysKept s (s.putRack rack { s.rack rack with config := c }) :=
    .of_keeps (putRack_keeps (ps := [.rackConfigs, .rackLives]) .refl (by decide) (by decide)) (by decide) (by decide)
      (by decide)
  have refreshed (v : State) (hv : BaysKept s v) : BaysKept s (refreshCapacity rack v) :=
    hv.trans (baysKept_charge.refreshCapacity rack v)
  simp only [Machine.applyRackConfig]
  refine refreshed _ (loaded.trans ?_)
  split
  · exact .refl _
  · exact enableRack rack _
  · exact disableRack rack _
  · split
    exacts [putRackLive _ _ _, rekeyRack rack _]

theorem refreshAll (s : State) : BaysKept s (refreshAll s) := by
  refine (baysKept_charge.forEach baysKept_charge.refreshCapacity _ s).trans
    (baysKept_charge.forEach (fun r u => ?_) _ _)
  split
  exacts [baysKept_charge.resync r u, .refl u]

/-! ### Readings -/

theorem readTemperature (rack : Fin 12) (temp : Int) (s : State) : BaysKept s (readTemperature rack temp s) := by
  have read := putRackLive rack { (s.rack rack).live with temperature := some (clampTemperature temp) } s
  unfold Machine.readTemperature takeTemperature
  dsimp only
  split
  exacts [read, read.trans (changeBand _ _ _)]

theorem readReported (a : Fin 288) (m : ChargeMode) (x : Option Assignment) (s : State) :
    BaysKept s (readReported a m x s) := putBay rfl fun h => h.written

/-- A reading hands a receiver level and fault, and takes a short flag from it at most (R100, R101). -/
theorem fleetReading (a : Fin 288) (s : State) : BaysKept s (fleetReading a s) := by
  have k : KeepsAllBut [.receivers] s (Machine.fleetReading a s) := fleetReading_keeps .refl (by decide)
  have stand : BaysStand s (Machine.fleetReading a s) := .of_keeps k (by decide)
  refine ⟨stand, .of_stand stand (fun m => ?_) (.of_keeps k (by decide))⟩
  unfold Machine.fleetReading
  dsimp only
  split
  next h p _ _ =>
    split
    · exact sameRecords_of_eq rfl
    next r hr =>
      rw [State.putReceiver_receiver]
      split
      next e =>
        rw [e, hr]
        exact .some ⟨rfl, rfl, rfl, rfl, rfl, rfl, fun hs => by simp [hs]⟩
      next => exact sameRecords_of_eq rfl
  all_goals exact sameRecords_of_eq rfl

theorem raiseEdges (old new : Bay) (a : Fin 288) (s : State) : BaysKept s (raiseEdges old new a s) := by
  have raised (c : Bool) (k : EventKind) (d : Nat) (v : State) : BaysKept v (raiseBay c k a d v) :=
    .of_keeps (raiseBay_keeps (ps := eventParts) .refl (by decide) (by decide)) (by decide) (by decide) (by decide)
  exact ((raised _ _ _ s).trans (raised _ _ _ _)).trans (raised _ _ _ _)

theorem readElectrical (a : Fin 288) (v : Nat) (f : Bool) (s : State) : BaysKept s (readElectrical a v f s) := by
  obtain ⟨x, hx⟩ : ∃ x, x = usedBay s.rpl.curve s.mge.settings v f (s.bay a) := ⟨_, rfl⟩
  have presence : x.presence = (s.bay a).presence := by rw [hx]; rfl
  have settled (h : BaySettled (s.bay a)) (held : (s.bay a).presence ≠ .empty) : BaySettled x := by
    rw [hx]
    exact baySettled_of_held held h.2
  unfold Machine.readElectrical
  dsimp only
  rw [← hx]
  split
  · exact .refl s
  next held =>
    split
    · have used : BaysKept s (s.putBay a x) := putBay presence fun h => settled h held
      exact ((used.trans (raiseEdges _ _ a _)).trans (fleetReading a _)).trans (baysKept_charge.chargeReading a _)
    · have used : BaysKept s (s.putBay a { x with settle := .none, settleEnds := none }) :=
        putBay presence fun _ => baySettled_of_held (by rw [← presence] at held; exact held) (by simp)
      exact (used.trans (fleetReading a _)).trans (baysKept_charge.judge a _)
    · exact .refl s
    · exact .refl s

/-- The end of a running settle leaves a bay that holds a receiver (R125, R127). -/
theorem settleExpiry (a : Fin 288) {running next : Settle} (hr : running ≠ .none)
    (hn : next ≠ .dock ∧ next ≠ .turn) (s : State) : BaysKept s (settleExpiry a running next s) := by
  unfold Machine.settleExpiry
  dsimp only
  split
  · exact .refl s
  next ends _ =>
    split
    next hs =>
      have reached : BaysKept s (s.reach ends) :=
        .of_keeps (reach_keeps (ps := [.clock]) .refl (by decide)) (by decide) (by decide) (by decide)
      refine reached.trans (putBay rfl fun h => baySettled_of_held (fun hp => ?_) (by simp [hn]))
      obtain ⟨-, -, -, -, -, none⟩ := h.1 hp
      exact hr (hs.symm.trans none)
    next => exact .refl s

end BaysKept

/-! ### Arriving frames -/

theorem comparePresence_holds (a : Fin 288) (shown : Option RxTag) (s : State) : BaysHold s (comparePresence a shown s) :=
  ⟨fun h => comparePresence_settled h a shown, fun h => h.comparePresence a shown⟩

theorem takeReading_holds (rack : Fin 12) (x : Reading) (s : State) : BaysHold s (takeReading rack x s) := by
  unfold takeReading
  dsimp only
  exact (((BaysKept.readTemperature rack _ s).holds.trans (comparePresence_holds _ _ _)).trans
    (BaysKept.readReported _ _ _ _).holds).trans (BaysKept.readElectrical _ _ _ _).holds

theorem countUnroutedRack_holds (s : State) : BaysHold s (countUnroutedRack s) :=
  .of_keeps (countUnroutedRack_keeps (ps := [.unroutedRack]) .refl (by decide)) (by decide) (by decide) (by decide)

theorem takeStatus_holds (x : Station) (s : State) : BaysHold s (takeStatus x a s) := by
  have chosen : BaysHold s s.useChoice :=
    .of_keeps (useChoice_keeps (ps := [.choices]) .refl (by decide)) (by decide) (by decide) (by decide)
  unfold takeStatus
  repeat' split
  exacts [countUnroutedRack_holds s, (BaysKept.putRackLive _ _ s).holds,
    ((chosen.trans (BaysKept.settlePoll _ _ _).holds).trans (takeReading_holds _ _ _)).trans (rackSender_holds _)]

theorem takeNotice_holds (x : Station) (s : State) : BaysHold s (takeNotice x a s) := by
  simp only [takeNotice]
  split
  · exact countUnroutedRack_holds s
  split
  exacts [(BaysKept.putRackLive _ _ s).holds, (comparePresence_holds _ _ s).trans (rackSender_holds _)]

theorem putLinkCounters_holds (c : LinkCounters) (s : State) : BaysHold s (s.putLinkCounters c) :=
  .of_keeps (putLinkCounters_keeps (ps := [.egress]) .refl (by decide)) (by decide) (by decide) (by decide)

theorem takeAudio_holds (x : Station) (s : State) : BaysHold s (takeAudio x a s) := by
  have put (i : Fin 48) (r : Option Source) : BaysHold s (s.putSource i r) :=
    .of_keeps (putSource_keeps (ps := [.sources]) .refl (by decide)) (by decide) (by decide) (by decide)
  have taken (i : Fin 48) (r : Source) : BaysHold s (takeSourceFrame i r a s) := by
    simp only [takeSourceFrame]
    repeat' split
    exacts [put _ _, put _ _, put _ _, (put _ _).trans (passAdvance_holds _ _ _), put _ _]
  simp only [takeAudio]
  repeat' split
  exacts [putLinkCounters_holds _ s, putLinkCounters_holds _ s, putLinkCounters_holds _ s, taken _ _]

theorem arrive_holds (frame : List Byte) (s : State) : BaysHold s (arrive frame s) := by
  unfold arrive dispatchFrame
  split
  · split
    · exact putLinkCounters_holds _ s
    · have counted : BaysHold s (countReceived s) := putLinkCounters_holds _ s
      refine counted.trans ?_
      split
      · exact takeAudio_holds _ _
      · split
        exacts [takeStatus_holds _ _, putLinkCounters_holds _ _]
      · split
        exacts [takeNotice_holds _ _, putLinkCounters_holds _ _]
      · exact .of_keeps (takeRequest_keeps (ps := requestParts) .refl (by decide) (by decide) (by decide)) (by decide)
          (by decide) (by decide)
  · exact .refl s

end Sys2Proof.Machine
end

section
/-! O9: every command keeps bays settled and receivers paired with bays and tours (R88, R89, R121, R125). -/

namespace Sys2Proof.Machine

open Sys2Proof

variable {s t u : State} {a : List Byte}

/-! ### Deadlines and the hub time -/

theorem withHubTime_keeps (n : Nat) (s : State) : KeepsAllBut [.hubTime] s (s.withMge { s.mge with hubTime := n }) := by
  intro p hp
  cases p <;> first | exact absurd List.mem_cons_self hp | rfl | simp [Part.same, State.rack]

theorem withHubTime_holds (n : Nat) (s : State) : BaysHold s (s.withMge { s.mge with hubTime := n }) :=
  .of_keeps (withHubTime_keeps n s) (by decide) (by decide) (by decide)

theorem withClock_holds (c : Clock) (s : State) : BaysHold s (s.withClock c) :=
  .of_keeps (withClock_keeps (ps := [.clock]) .refl (by decide)) (by decide) (by decide) (by decide)

theorem reach_holds (n : Nat) (s : State) : BaysHold s (s.reach n) := withClock_holds _ s

theorem overdueOne_holds (n : Fin 384) (s : State) : BaysHold s (overdueOne n s) := by
  have k : KeepsAllBut [.receivers, .events, .egress] s (overdueOne n s) :=
    overdueOne_keeps .refl (by decide) (by decide) (by decide)
  by_cases reached : ∃ r, s.receiver n = some r ∧ deadlineReached s.mge.hubTime r = true
  · obtain ⟨r, hr, hl⟩ := reached
    refine ⟨(BaysStand.of_keeps k (by decide)).baysSettled, fun h => h.of_records (fun a m => by rw [k.bay_eq (by decide)])
      fun m => ?_⟩
    have raised (d : Nat) (v : State) : KeepsAllBut eventParts v (raiseEvent .overdue n.val none d v) :=
      raiseEvent_keeps .refl (by decide) (by decide)
    rw [show (overdueOne n s).receiver m = if m = n then some { r with phase := .overdue } else s.receiver m by
      rw [overdueOne_of_reached hr hl, (raised _ _).receiver_eq (by decide), State.putReceiver_receiver]]
    split
    next e =>
      rw [e, hr]
      exact .some ⟨rfl, rfl, (h.record hr).overdue (deadlineReached_iff.1 hl).1⟩
    next =>
      cases hm : s.receiver m with
      | none => exact .none
      | some q => exact .some ⟨rfl, rfl, (h.record hm).congr (.refl q) (.of_keeps k (by decide))⟩
  · rw [overdueOne_of_not_reached fun r hr => Bool.eq_false_iff.2 fun hl => reached ⟨r, hr, hl⟩]
    exact .refl s

theorem hubTimeTick_holds (s : State) : BaysHold s (hubTimeTick s) := by
  have reached : BaysHold s (secondReached s) := withClock_holds _ s
  have risen : BaysHold s (timeRisen s) := reached.trans (withHubTime_holds _ _)
  rw [hubTimeTick_eq]
  split
  exacts [risen.trans (judgeDeadlines_holds _), reached]

theorem setTime_holds (s : State) : BaysHold s (setTime a s).state := by
  unfold setTime
  dsimp only
  exact ((withHubTime_holds _ s).trans (withClock_holds _ _)).trans (judgeDeadlines_holds _)

/-! ### Records that come and go (R90 to R93) -/

theorem enrolTag_holds {tag : RxTag} {n : Fin 384} (hn : s.receiver n = none) (unknown : findTag tag s = none) :
    BaysHold s (enrolTag tag n s) := by
  cases hb : foreignBay tag s with
  | none =>
    rw [enrolTag_unseen hb]
    have k : KeepsAllBut [.receivers] s (s.putReceiver n (some (newReceiver tag))) := putReceiver_keeps .refl (by decide)
    refine ⟨(BaysStand.of_keeps k (by decide)).baysSettled, fun h => ?_⟩
    have absent (a : Fin 288) : (s.bay a).presence ≠ .known n := fun hp => by
      obtain ⟨q, hq, -⟩ := h.named hp
      rw [hn] at hq
      cases hq
    have record : (s.putReceiver n (some (newReceiver tag))).receiver n = some (newReceiver tag) := by
      rw [State.putReceiver_receiver, if_pos rfl]
    refine h.of_record (n := n) (.of_keeps k (by decide)) (fun m hm => sameRecords_of_eq ?_)
      (fun r' hr' m q _ hq => ?_) (fun a m _ => by rw [k.bay_eq (by decide)]) (fun a => ?_) (fun r' hr' => ?_)
    · rw [State.putReceiver_receiver, if_neg hm]
    · rw [record] at hr'
      cases hr'
      exact unknown_of_findTag unknown m q hq
    · rw [k.bay_eq (by decide), record]
      refine iff_of_false (absent a) ?_
      rintro ⟨r', hr', hb'⟩
      cases hr'
      cases hb'
    · rw [record] at hr'
      cases hr'
      exact ⟨⟨by simp [newReceiver], by simp [newReceiver], by simp [newReceiver], fun _ => ⟨rfl, rfl⟩⟩, nofun⟩
  | some b =>
    have foreign : (s.bay b).presence = .foreign tag := of_decide_eq_true
      (List.find?_some (p := fun a => decide ((s.bay a).presence = .foreign tag)) hb)
    rw [enrolTag_placed hb]
    refine BaysHold.trans ?_ (baysKept_charge.judge b _).holds
    have k : KeepsAllBut [.receivers, .bays] s (enrolPlaced tag n b s) :=
      putBay_keeps (putReceiver_keeps .refl (by decide)) (by decide)
    refine ⟨fun h a => ?_, fun h => ?_⟩
    · rw [enrolPlaced_bay]
      split
      · exact baySettled_of_held nofun (h b).2
      · exact h a
    refine h.place (n := n) (a := b) (.of_keeps k (by decide)) (fun m hm => sameRecords_of_eq ?_)
      ((enrolPlaced_receiver tag n n b s).trans (if_pos rfl)) rfl (fun m q _ hq => unknown_of_findTag unknown m q hq)
      (by rw [enrolPlaced_bay, if_pos rfl]) (fun m hp => by rw [foreign] at hp; cases hp) (fun a' e m => ?_)
      ⟨⟨by simp [enrolledIn], by simp [enrolledIn, newReceiver], by simp [enrolledIn, newReceiver],
        fun _ => ⟨rfl, rfl⟩⟩, nofun⟩
    · rw [enrolPlaced_receiver, if_neg hm]
    · rw [enrolPlaced_bay, if_neg e]
      refine ⟨fun hk => ⟨?_, hk⟩, fun hk => hk.2⟩
      rintro rfl
      obtain ⟨q, hq, -⟩ := h.named hk
      rw [hn] at hq
      cases hq

theorem enrol_holds (s : State) : BaysHold s (enrol a s).state := by
  unfold enrol
  dsimp only
  split
  · exact .refl s
  split
  · exact .refl s
  next unknown =>
    split
    · exact .refl s
    next free => exact enrolTag_holds (freeHandle_found free) unknown

/-- A record is removed; no bay names it any more. -/
theorem FleetPaired.removed {n : Fin 384} (h : FleetPaired s) (parties : SameParties s t) (gone : t.receiver n = none)
    (others : ∀ m, m ≠ n → t.receiver m = s.receiver m) (unnamed : ∀ a, (t.bay a).presence ≠ .known n)
    (presence : ∀ a m, m ≠ n → ((t.bay a).presence = .known m ↔ (s.bay a).presence = .known m)) : FleetPaired t := by
  have absent {r' : Receiver} (hr' : t.receiver n = some r') : False := by
    rw [gone] at hr'
    cases hr'
  exact h.of_record (n := n) parties (fun m hm => sameRecords_of_eq (others m hm)) (fun _ hr' => (absent hr').elim) presence
    (fun a => iff_of_false (unnamed a) fun ⟨_, hr', _⟩ => absent hr') (fun _ hr' => (absent hr').elim)

theorem retireRecord_holds {n : Fin 384} {r : Receiver} (hr : s.receiver n = some r) (h1 : r.phase ≠ .reserved) :
    BaysHold s (retireRecord n r s) := by
  have k : KeepsAllBut [.receivers] s (s.putReceiver n none) := putReceiver_keeps .refl (by decide)
  have record (m : Fin 384) : (s.putReceiver n none).receiver m = if m = n then none else s.receiver m :=
    State.putReceiver_receiver s n m none
  by_cases away : r.phase ≠ .docked ∨ r.bay = none
  · rw [retireRecord_away away]
    refine ⟨(BaysStand.of_keeps k (by decide)).baysSettled, fun h => h.removed (n := n) (.of_keeps k (by decide))
      ((record n).trans (if_pos rfl)) (fun m hm => (record m).trans (if_neg hm)) (fun a hp => ?_)
      (fun a m _ => by rw [k.bay_eq (by decide)])⟩
    rw [k.bay_eq (by decide)] at hp
    obtain ⟨q, hq, hb⟩ := h.named hp
    rw [hr] at hq
    cases hq
    obtain ⟨⟨bay, -⟩, -⟩ := h.record hr
    rcases bay.1 (by rw [hb]; rfl) with docked | reserved
    · rcases away with away | away
      · exact away docked
      · rw [away] at hb
        cases hb
    · exact h1 reserved
  · obtain ⟨docked, here⟩ := not_or.1 away
    obtain ⟨b, hb⟩ := Option.ne_none_iff_exists'.1 here
    rw [retireRecord_docked (not_not.1 docked) hb]
    refine BaysHold.trans ?_ (baysKept_charge.endOrJudge b _).holds
    have kb : KeepsAllBut [.bays] (s.putReceiver n none)
        ((s.putReceiver n none).putBay b { s.bay b with presence := .foreign r.tag }) := putBay_keeps .refl (by decide)
    have bay (a : Fin 288) : ((s.putReceiver n none).putBay b { s.bay b with presence := .foreign r.tag }).bay a =
        if a = b then { s.bay b with presence := .foreign r.tag } else s.bay a := by
      rw [State.putBay_bay]
      rfl
    have receiver (m : Fin 384) : ((s.putReceiver n none).putBay b { s.bay b with presence := .foreign r.tag }).receiver m =
        if m = n then none else s.receiver m := (kb.receiver_eq (by decide) m).trans (record m)
    refine ⟨fun h a => ?_, fun h => h.removed (n := n) ((SameParties.of_keeps k (by decide)).trans (.of_keeps kb (by decide)))
      ((receiver n).trans (if_pos rfl)) (fun m hm => (receiver m).trans (if_neg hm)) (fun a => ?_) (fun a m hm => ?_)⟩
    · rw [bay]
      split
      · exact baySettled_of_held nofun (h b).2
      · exact h a
    · rw [bay]
      split
      · exact nofun
      next e => exact fun hp => e (h.only (h.presence hr hb) hp)
    · rw [bay]
      split
      next e =>
        rw [e, h.presence hr hb]
        refine iff_of_false nofun fun hk => hm ?_
        cases hk
        rfl
      next => rfl

theorem retire_holds (s : State) : BaysHold s (retire a s).state := by
  unfold retire
  split
  · exact .refl s
  split
  · exact .refl s
  next r hr =>
    split
    · exact .refl s
    next free => exact retireRecord_holds hr (not_or.1 free).1

/-! ### Racks, bands and the hall -/

theorem loadRackConfig_holds (s : State) : BaysHold s (loadRackConfig a s).state := by
  unfold loadRackConfig
  repeat' split
  exacts [.refl s, .refl s, (BaysKept.applyRackConfig _ _ s).holds]

theorem loadThermalTable_holds (s : State) : BaysHold s (loadThermalTable a s).state := by
  have loaded (x : BandTable) : BaysHold s (applyBandTable x s) :=
    BaysHold.trans (.of_keeps (withTable_keeps (ps := [.bandTable]) .refl (by decide)) (by decide) (by decide) (by decide))
      (baysKept_charge.forEach BaysKept.treatRack _ _).holds
  unfold loadThermalTable
  split
  · exact .refl s
  · rw [answer_state]
    exact loaded _

theorem putMode_holds (m : HallMode) (s : State) : BaysHold s (putMode m s) :=
  .of_keeps (putMode_keeps (ps := [.mode]) .refl (by decide)) (by decide) (by decide) (by decide)

theorem setHallMode_holds (s : State) : BaysHold s (setHallMode a s).state := by
  have aired (v : State) : BaysHold v (airPrograms v) :=
    .of_keeps (withMxr_keeps (ps := [.programs]) .refl (by decide)) (by decide) (by decide) (by decide)
  have opened : BaysHold s (openHall s) :=
    ((putMode_holds .opened s).trans (aired _)).trans (BaysKept.refreshAll _).holds
  have closed : BaysHold s (closeHall s) :=
    ((closeAll_holds false s).trans (putMode_holds .closed _)).trans (BaysKept.refreshAll _).holds
  simp only [setHallMode, modeReply]
  repeat' split
  all_goals dsimp only [refuse_state]
  exacts [.refl s, .refl s, closed, opened]

theorem markAllPending_kept (s : State) : BaysKept s (markAllPending s) :=
  .of_stand (fun a => by
    rw [markAllPending_bay]
    exact ⟨rfl, fun h => h.written⟩) (markAllPending_keeps (ps := [.bays]) .refl (by decide)) (by decide) (by decide)

theorem restartHub_holds (s : State) : BaysHold s (restartHub s) := by
  have closed : BaysHold s (restartClosed s) :=
    ((closeAll_holds true s).trans (putMode_holds .closed _)).trans
      (.of_keeps (emptyClass1_keeps (ps := [.egress]) .refl (by decide)) (by decide) (by decide) (by decide))
  have pending := (closed.trans (BaysKept.refreshAll _).holds).trans (markAllPending_kept _).holds
  exact pending.trans (.of_keeps
    (ps := [.sources, .programs, .events, .fleetCounters, .rackLives, .unroutedRack, .sched, .egress, .requests])
    (zeroCounters_keeps (restartEvents_keeps (restartPrograms_keeps (restartSources_keeps .refl (by decide)) (by decide))
      (by decide)) (by decide) (by decide) (by decide) (by decide) (by decide) (by decide)) (by decide) (by decide)
    (by decide))

/-! ### The hall link and the rack timers -/

/-- What the owner of a frame is told reaches the polls and the rack sender at most (R164, R165). -/
theorem told_le_link (o : Origin) : told o ⊆ [.egress, .rackLives, .sender] := by
  cases o <;> simp [told]

theorem dropLink_holds (s : State) : BaysHold s (dropLink s) := by
  have down (x : Hli) (hx : x.station = s.hli.station) : BaysHold s (s.withHli x) :=
    .of_keeps (withHli_keeps (ps := [.link, .egress]) .refl hx (by decide) (by decide)) (by decide) (by decide) (by decide)
  have discarded (fs : List EgressFrame) (v : State) : BaysHold v (forEach fs discardFrame v) :=
    .of_keeps (ps := [.egress, .rackLives, .sender])
      (forEach_keeps (fun f _ k => discardFrame_keeps k (by decide) (told_le_link _)) .refl) (by decide) (by decide) (by decide)
  exact ((down _ (by rfl)).trans (discarded _ _)).trans (rackSender_holds _)

theorem bayCommandPlaced_holds (s : State) : BaysHold s (rackSender (placedWhen (fun o => decide (o = .bayCommand)) s)) := by
  exact (BaysHold.of_keeps (ps := [.egress, .rackLives, .sender]) (placedWhen_keeps .refl (by decide) fun o _ => told_le_link o)
    (by decide) (by decide) (by decide)).trans (rackSender_holds _)

theorem pollTimeout_holds (rack : Fin 12) (s : State) : BaysHold s (pollTimeout rack s) := by
  have live (x : RackLive) (v : State) : BaysHold v (v.putRackLive rack x) := (BaysKept.putRackLive rack x v).holds
  simp only [pollTimeout, startSpacing]
  split
  · exact .refl s
  · refine BaysHold.trans ?_ (live _ _)
    split
    exacts [((reach_holds _ s).trans (live _ _)).trans (BaysKept.rackOffline rack _).holds, (reach_holds _ s).trans (live _ _)]

theorem cadenceExpiry_holds (rack : Fin 12) (s : State) : BaysHold s (cadenceExpiry rack s) := by
  unfold cadenceExpiry
  split
  · exact .refl s
  · exact (((reach_holds _ s).trans (BaysKept.cadenceAct rack _).holds).trans
      (baysKept_charge.restartCadence rack _).holds).trans (rackSender_holds _)

theorem turnExpiry_holds (rack : Fin 12) (n : Fin 24) (s : State) : BaysHold s (turnExpiry rack n s) := by
  unfold turnExpiry
  split
  · exact .refl s
  · exact ((reach_holds _ s).trans (baysKept_charge.endTurn rack n _).holds).trans (rackSender_holds _)

/-! ### Every command -/

namespace BaysHold

theorem serve {code : Nat} {owner : List Byte → State → Answer} (ho : ∀ args, BaysHold s (owner args s).state) :
    BaysHold s (serve code owner s) := by
  unfold Machine.serve
  split
  · split
    exacts [(ho _).trans (.of_keeps (offerReply_keeps (ps := replyParts) .refl (by decide) (by decide)) (by decide)
      (by decide) (by decide)), .refl s]
  · exact .refl s
  · exact .refl s

theorem serveRacks {code : Nat} {owner : List Byte → State → Answer} (ho : ∀ args, BaysHold s (owner args s).state) :
    BaysHold s (serveRacks code owner s) := serve fun args => (ho args).trans (rackSender_holds _)

/-- A well-formed command outside the receivers, the bays and the tours. -/
theorem of_nextState {c : Instr} (hw : c.wellFormed = true) (hp : ∀ p ∈ [Part.receivers, .bays, .tours], p ∉ mayChange c) :
    BaysHold s (nextState c s) :=
  .of_keeps (nextState_keeps hw s) (hp _ (by decide)) (hp _ (by decide)) (hp _ (by decide))

end BaysHold

theorem resetHub_holds (straps : BitVec 4) (s : State) : BaysHold s (resetHub straps s) :=
  ⟨fun _ => baysSettled_atReset straps, fun _ => fleetPaired_atReset straps⟩

theorem nextState_holds (c : Instr) (s : State) : BaysHold s (nextState c s) := by
  have ite {b : Bool} {v : State} (hv : b = true → BaysHold s v) : BaysHold s (if b then v else s) := by
    split
    next e => exact hv e
    next => exact .refl s
  cases c with
  | powerOn x => exact resetHub_holds x s
  | pinReset x => exact resetHub_holds x s
  | linkDown => exact ite fun _ => dropLink_holds s
  | frameRejected f => exact arrive_holds f s
  | audioUp f => exact arrive_holds f s
  | bayStatus f => exact arrive_holds f s
  | dockNotice f => exact arrive_holds f s
  | mgmtRequest f => exact arrive_holds f s
  | loadChannel => exact .serve fun _ => loadChannel_holds s
  | loadTourPlan => exact .serve fun _ => loadTourPlan_holds s
  | loadTourTiming => exact .serve fun _ => loadTourTiming_holds s
  | clearTour => exact .serve fun _ => clearTour_holds s
  | tourStart => exact .serveRacks fun _ => tourStart_holds s
  | reserveMore => exact .serveRacks fun _ => reserveMore_holds s
  | tourEnd => exact .serveRacks fun _ => tourEnd_holds s
  | tourAbort => exact .serveRacks fun _ => tourAbort_holds s
  | enrol => exact .serveRacks fun _ => enrol_holds s
  | retire => exact .serveRacks fun _ => retire_holds s
  | loadRackConfig => exact .serveRacks fun _ => loadRackConfig_holds s
  | loadThermalTable => exact .serveRacks fun _ => loadThermalTable_holds s
  | setHallMode => exact .serveRacks fun _ => setHallMode_holds s
  | restart => exact .serveRacks fun _ => restartHub_holds s
  | setTime => exact .serve fun _ => setTime_holds s
  | mixPoint => exact mixPoint_holds s
  | windowEnd k => exact ite fun _ => tickWindow_holds k s
  | guideQuiet k => exact ite countSilence_holds
  | fallbackWrite k => exact ite countSilence_holds
  | closeHoldExpiry k => exact ite fun _ => (closeTour_holds k s).trans (rackSender_holds _)
  | closeWaitExpiry k => exact ite fun _ => (closeTour_holds k s).trans (rackSender_holds _)
  | hubTimeTick => exact hubTimeTick_holds s
  | overdue n => exact overdueOne_holds n s
  | pollTimeout r => exact (pollTimeout_holds r s).trans (rackSender_holds _)
  | dockSettleExpiry b => exact (BaysKept.settleExpiry b (by decide) (by decide) s).holds
  | turnSettleExpiry b => exact (BaysKept.settleExpiry b (by decide) (by decide) s).holds
  | bayCommandPlaced => exact bayCommandPlaced_holds s
  | cadenceExpiry r => exact cadenceExpiry_holds r s
  | turnExpiry r b => exact turnExpiry_holds r b s
  | _ => exact .of_nextState rfl (by simp [mayChange, replyParts, eventParts])

/-- Settles O9: bays change presence only in a dock, an undock, an enrolment and a retirement, which leave the bay and the
record of one receiver naming each other; and a tour that ends releases or makes due every record of its run. -/
theorem baysStaySettled : Obligations.BaysStaySettled :=
  ⟨fun _ _ hs h => step_preserves h hs (fun _ k => k) fun c v k => (nextState_holds c v).settled k,
    fun _ _ hs h => step_preserves h hs (fun _ k => k) fun c v k => (nextState_holds c v).paired k⟩

end Sys2Proof.Machine
end

section
/-! A handover request, exactly: the zone entered, the queue joined, or nothing (R52, R53, R57). -/

namespace Sys2Proof.Machine

open Sys2Proof

variable {s t u : State} {slot : Fin 16} {z cur : Fin 12}

/-! ### A queue joined -/

/-- A tour has joined the tail of a wait queue between two states (R53). -/
structure QueueJoined (slot : Fin 16) (z : Fin 12) (s t : State) : Prop where
  keeps : KeepsAllBut [.tours, .zones, .events, .egress] s t
  tour : t.tour slot = { s.tour slot with live := { (s.tour slot).live with target := some z } }
  away : ∀ k, k ≠ slot → t.tour k = s.tour k
  channel : t.channel = s.channel
  zone : ∀ y, t.zone y = if y = z then { s.zone z with
    queue := (s.zone z).queue ++ [⟨slot, tourNeed (s.tour slot).live⟩] } else s.zone y
  events : EventsTaken [⟨.handoverWait, s.mge.hubTime, slot.val, some (s.tour slot).live.run, z.val⟩] s t

theorem joinQueue_spec (slot : Fin 16) (z : Fin 12) (s : State) : QueueJoined slot z s (joinQueue slot z s) := by
  obtain ⟨v, hv⟩ : ∃ v, v = (s.putZone z { s.zone z with
      queue := (s.zone z).queue ++ [⟨slot, tourNeed (s.tour slot).live⟩] }).putLive slot
        { (s.tour slot).live with target := some z } := ⟨_, rfl⟩
  have run : joinQueue slot z s = raiseTour .handoverWait slot z.val v := by
    rw [hv]
    rfl
  have here : v.tour slot = { s.tour slot with live := { (s.tour slot).live with target := some z } } := by
    rw [hv, putLive_tour_self]
    rfl
  have away (k : Fin 16) (hk : k ≠ slot) : v.tour k = s.tour k := by
    rw [hv, putLive_tour_ne hk]
    rfl
  have put : KeepsAllBut [.tours, .zones] s v := hv ▸ putLive_keeps (putZone_keeps .refl (by decide)) (by decide)
  have rise : KeepsAllBut eventParts v (raiseTour .handoverWait slot z.val v) :=
    raiseTour_keeps .refl (by decide) (by decide)
  rw [run]
  refine ⟨(put.mono (by decide)).trans (rise.mono (by decide)), (rise.tour_eq (by decide) slot).trans here,
    fun k hk => (rise.tour_eq (by decide) k).trans (away k hk), ?_, fun y => (rise.zone_eq (by decide) y).trans ?_, ?_⟩
  · funext c
    rw [rise.channel_eq (by decide) c, hv]
    rfl
  · rw [hv]
    exact State.putZone_zone s z y _
  · rw [raiseTour, here]
    exact .raise_of_evq (put.evq_eq (by decide)) (put .hubTime (by decide))

/-! ### The three outcomes of a request -/

/-- A tour may enter a zone: its queue is empty or headed by the tour, and it has room (R52). -/
def MayEnter (s : State) (slot : Fin 16) (z : Fin 12) : Prop :=
  ((s.zone z).queue = [] ∨ ((s.zone z).queue.head?).map Waiter.slot = some slot) ∧
  (s.zone z).carried + tourNeed (s.tour slot).live ≤ 8

theorem mayEnter_iff : mayEnter s slot z = true ↔
    (s.zone z).queue = [] ∨ ((s.zone z).queue.head?).map Waiter.slot = some slot := by
  unfold mayEnter
  cases (s.zone z).queue <;> simp

theorem entering_iff (placed : ZonesPlaced s) :
    (mayEnter s slot z && decide (tourNeed (s.tour slot).live ≤ freeSlots s z)) = true ↔ MayEnter s slot z := by
  have capacity : (s.zone z).carried ≤ 8 := placed.2.1 z
  have capacity_ : Config.zoneCapacity = 8 := rfl
  rw [Bool.and_eq_true, mayEnter_iff, decide_eq_true_iff, freeSlots, capacity_]
  exact and_congr_right fun _ => by omega

theorem requestHandover_enters (placed : ZonesPlaced s) (h : MayEnter s slot z) :
    requestHandover slot z s = serveZones (grant slot z s).2 (grant slot z s).1 := if_pos ((entering_iff placed).2 h)

theorem requestHandover_waits (placed : ZonesPlaced s) (h : ¬ MayEnter s slot z)
    (target : (s.tour slot).live.target = some z) : requestHandover slot z s = s :=
  (if_neg (mt (entering_iff placed).1 h)).trans (if_pos target)

theorem requestHandover_joins (placed : ZonesPlaced s) (h : ¬ MayEnter s slot z)
    (target : (s.tour slot).live.target ≠ some z) : requestHandover slot z s = joinQueue slot z s :=
  (if_neg (mt (entering_iff placed).1 h)).trans (if_neg target)

/-! ### What a request leaves -/

/-- A handover to a zone has been requested between two states, and the zone left at once, if any, serves nobody; `E` tells
whether the tour enters. -/
structure HandoverRequested (E : Prop) [Decidable E] (slot : Fin 16) (z cur : Fin 12) (s t : State) : Prop where
  tour : t.tour slot = { s.tour slot with live := { (s.tour slot).live with
    zone := if E then some z else some cur
    prevZone := if E ∧ grantWindow (s.tour slot) ≠ 0 then some cur else none
    window := if E ∧ grantWindow (s.tour slot) ≠ 0 then some (grantWindow (s.tour slot))
      else if E ∧ grantWindow (s.tour slot) = 0 then none else (s.tour slot).live.window
    target := if E then none else some z } }
  away : ∀ k, k ≠ slot → t.tour k = s.tour k
  channel : ∀ c, t.channel c = if c ∈ tourChannels (s.tour slot).live then { s.channel c with
    zones := (if E then zoneBit z else 0#12) |||
      (if E ∧ grantWindow (s.tour slot) = 0 then 0#12 else zoneBit cur) } else s.channel c
  zone : ∀ y, t.zone y =
    { carried := (s.zone y).carried + (if E ∧ y = z then tourNeed (s.tour slot).live else 0) -
        (if (E ∧ grantWindow (s.tour slot) = 0) ∧ y = cur then tourNeed (s.tour slot).live else 0)
      queue := if E ∧ y = z then (s.zone y).queue.filter fun x => decide (x.slot ≠ slot)
        else if (¬ E ∧ (s.tour slot).live.target ≠ some z) ∧ y = z
          then (s.zone y).queue ++ [⟨slot, tourNeed (s.tour slot).live⟩] else (s.zone y).queue }
  events : EventsTaken ((if ¬ E ∧ (s.tour slot).live.target ≠ some z
      then [⟨.handoverWait, s.mge.hubTime, slot.val, some (s.tour slot).live.run, z.val⟩] else []) ++
    (if E ∧ grantWindow (s.tour slot) = 0
      then [⟨.handoverDone, s.mge.hubTime, slot.val, some (s.tour slot).live.run, cur.val⟩] else [])) s t

/-- The channels of a tour without an open window carry its zone alone. -/
theorem TourPlaced.own_zones (h : TourPlaced s slot) (hz : (s.tour slot).live.zone = some cur)
    (hp : (s.tour slot).live.prevZone = none) {c : Fin 24} (hc : c ∈ tourChannels (s.tour slot).live) :
    s.channel c = { s.channel c with zones := zoneBit cur } := by
  have zones : (s.channel c).zones = zoneBit cur := by
    refine BitVec.eq_of_getLsbD_eq fun i hi => ?_
    rw [h.carried hc ⟨i, hi⟩, hz, hp, zoneBit_getLsbD cur ⟨i, hi⟩]
    simp
  rw [← zones]

section
variable {E : Prop} [Decidable E]

theorem requested_of_waiting (placed : ZonesPlaced s) (ask : MayAsk s slot z cur) (h : ¬ E)
    (target : (s.tour slot).live.target = some z) : HandoverRequested E slot z cur s s := by
  have own {c : Fin 24} := (placed.2.2.1 slot).own_zones (c := c) ask.zone ask.closed
  refine ⟨?_, fun _ _ => rfl, fun c => ?_, fun y => ?_, ?_⟩
  · simp only [h, false_and, if_false]
    rw [← ask.zone, ← ask.closed, ← target]
  · simp only [h, false_and, if_false, BitVec.zero_or]
    split
    next hc => exact own hc
    next => rfl
  · simp [h, target]
  · simpa [h, target] using EventsTaken.nil

theorem requested_of_joined (placed : ZonesPlaced s) (ask : MayAsk s slot z cur) (h : ¬ E)
    (target : (s.tour slot).live.target ≠ some z) (joined : QueueJoined slot z s t) :
    HandoverRequested E slot z cur s t := by
  have own {c : Fin 24} := (placed.2.2.1 slot).own_zones (c := c) ask.zone ask.closed
  refine ⟨?_, joined.away, fun c => ?_, fun y => ?_, ?_⟩
  · simp only [h, false_and, if_false]
    rw [joined.tour, ← ask.zone, ← ask.closed]
  · simp only [h, false_and, if_false, BitVec.zero_or]
    rw [joined.channel]
    split
    next hc => exact own hc
    next => rfl
  · rw [joined.zone]
    simp only [h, false_and, if_false, not_false_eq_true, true_and, ne_eq, target]
    split
    next e => rw [e]; rfl
    next => rfl
  · simpa [h, target] using joined.events

theorem requested_of_granted (placed : ZonesPlaced s) (ask : MayAsk s slot z cur) (h : E)
    (granted : ZoneGranted slot z cur s t) : HandoverRequested E slot z cur s t := by
  have counts := granted.carried (placed.2.2.1 slot) placed.1 ask.zone ask.closed ask.apart
  refine ⟨?_, granted.away, fun c => ?_, fun y => zone_ext ?_ ?_, ?_⟩
  · rw [granted.tour]
    by_cases w : grantWindow (s.tour slot) = 0 <;> simp [h, w]
  · have zones := granted.zones ask.apart c
    rw [granted.channel] at zones ⊢
    split
    next hc =>
      rw [if_pos hc, if_pos hc] at zones
      dsimp only at zones ⊢
      rw [zones]
      simp only [h, true_and]
    next => rfl
  · have sum := counts y
    simp only [h, true_and]
    simp only [and_comm (a := y = cur)] at sum
    generalize (if y = z then tourNeed (s.tour slot).live else 0) = gain at sum ⊢
    generalize (if grantWindow (s.tour slot) = 0 ∧ y = cur then tourNeed (s.tour slot).live else 0) = loss at sum ⊢
    omega
  · rw [granted.queue]
    simp only [h, true_and, not_true_eq_false, false_and, if_false]
    split
    next e => rw [e]
    next => rfl
  · have taken := granted.events
    simp only [h, true_and, not_true_eq_false, false_and, if_false, List.nil_append]
    exact taken

/-- A request, where the zone that it may release serves nobody. -/
theorem requestHandover_requested (placed : ZonesPlaced s) (ask : MayAsk s slot z cur) (hE : E ↔ MayEnter s slot z)
    (stuck : E → grantWindow (s.tour slot) = 0 → ∀ x, (s.zone cur).queue.head? = some x →
      8 < (s.zone cur).carried - tourNeed (s.tour slot).live + x.need) :
    HandoverRequested E slot z cur s (requestHandover slot z s) := by
  by_cases e : E
  · have h := hE.1 e
    obtain ⟨granted, released⟩ := grant_spec (s := s) (z := z) ask.zone
    have after := granted.placed placed ⟨ask.running, ask.zone, ask.apart, ask.closed, ask.target, h.2⟩
    have served : serveZones (grant slot z s).2 (grant slot z s).1 = (grant slot z s).1 := by
      rw [released]
      split
      next w =>
        refine serveZones_of_stuck fun x hx => ?_
        have sum := granted.carried (placed.2.2.1 slot) placed.1 ask.zone ask.closed ask.apart cur
        rw [if_pos ⟨rfl, w⟩, if_neg ask.apart] at sum
        rw [granted.queue, if_neg ask.apart] at hx
        have := stuck e w x hx
        rw [freeSlots_lt_iff (after.2.1 cur)]
        omega
      next => exact serveSet_zero _ _
    rw [requestHandover_enters placed h, served]
    exact requested_of_granted placed ask e granted
  · have h := mt hE.2 e
    by_cases target : (s.tour slot).live.target = some z
    · rw [requestHandover_waits placed h target]
      exact requested_of_waiting placed ask e target
    · rw [requestHandover_joins placed h target]
      exact requested_of_joined placed ask e target (joinQueue_spec slot z s)

end

/-- A request leaves a tour that stands in no queue as it is. -/
theorem requestHandover_unqueued (placed : ZonesPlaced s) (ask : MayAsk s slot z cur) {k : Fin 16} (hk : k ≠ slot)
    (free : ¬ Queued s k) : (requestHandover slot z s).tour k = s.tour k := by
  by_cases h : MayEnter s slot z
  · obtain ⟨granted, -⟩ := grant_spec (s := s) (z := z) ask.zone
    rw [requestHandover_enters placed h]
    refine ((serveZones_queues _ _).unqueued k fun hq => free ?_).trans (granted.away k hk)
    obtain ⟨y, w, hw, e⟩ := hq
    rw [granted.queue] at hw
    split at hw
    next hy => exact ⟨z, w, List.mem_of_mem_filter hw, e⟩
    next => exact ⟨y, w, hw, e⟩
  · by_cases target : (s.tour slot).live.target = some z
    · rw [requestHandover_waits placed h target]
    · rw [requestHandover_joins placed h target]
      exact (joinQueue_spec slot z s).away k hk

end Sys2Proof.Machine
end

section
/-! The zone of a new stop acted on, first half: the tour leaves its window or its queue, and the zone it leaves is served
(R55 to R57, R73 to R75). -/

namespace Sys2Proof.Machine

open Sys2Proof

variable {s t u v : State} {slot : Fin 16} {z cur y : Fin 12}

/-! ### The head of a queue served -/

/-- The head of a queue that fits holds the zone after the service, and stands in no queue any more (R57). -/
theorem head_served {x : Waiter} (placed : ZonesPlaced v) (hx : (v.zone y).queue.head? = some x)
    (fits : (v.zone y).carried + x.need ≤ 8) : ((serveZones (zoneBit y) v).tour x.slot).live.zone = some y ∧
    ((serveZones (zoneBit y) v).tour x.slot).live.target = none ∧ ¬ Queued (serveZones (zoneBit y) v) x.slot := by
  obtain ⟨rest, hq⟩ : ∃ rest, (v.zone y).queue = x :: rest := by
    cases hq : (v.zone y).queue with
    | nil => rw [hq] at hx; cases hx
    | cons w rest => rw [hq] at hx; exact ⟨rest, congrArg (· :: rest) (Option.some.inj hx)⟩
  have room : x.need ≤ freeSlots v y := Nat.not_lt.1 fun h => by
    rw [freeSlots_lt_iff (placed.2.1 y)] at h
    omega
  obtain ⟨cur, can⟩ := placed.grantable_head (by rw [hq]; exact List.mem_cons_self) room
  have granted := headGranted_zone (x := x) (z := y) can.zone
  obtain ⟨later, -, -⟩ := serveZones_of_head hq room
  obtain ⟨-, -, -, -, queues⟩ := placed
  have unqueued : ¬ Queued (headGranted x y v) x.slot := by
    rintro ⟨y', w, hw, hs⟩
    obtain ⟨mem, gone⟩ := granted.gone y' w hw
    exact gone (can.target y' (hs ▸ (queues y' w mem).1)) hs
  have tour := granted.granted.tour
  obtain ⟨t, ht⟩ : ∃ t, t = serveZones (zoneBit y) v := ⟨_, rfl⟩
  obtain ⟨g, hg⟩ : ∃ g, g = headGranted x y v := ⟨_, rfl⟩
  rw [← hg] at later unqueued tour
  rw [← ht] at later ⊢
  rw [later.unqueued _ unqueued, tour]
  exact ⟨rfl, rfl, fun hk => unqueued (later.queued hk)⟩

/-! ### What the tour leaves -/

/-- What a zone carries once the tour has dropped its previous zone (R55). -/
def leftCarried (s : State) (slot : Fin 16) (y : Fin 12) : Nat :=
  (s.zone y).carried - if (s.tour slot).live.prevZone = some y then tourNeed (s.tour slot).live else 0

/-- A wait queue once the tour has left it for another zone (R56). -/
def leftQueue (s : State) (slot : Fin 16) (z y : Fin 12) : List Waiter :=
  if (s.tour slot).live.target = some y ∧ z ≠ y then (s.zone y).queue.filter fun x => decide (x.slot ≠ slot)
  else (s.zone y).queue

/-- The event of a cut (R55). -/
def cutEvents (time : Nat) (slot : Fin 16) (l : TourLive) : List EventRecord :=
  l.prevZone.toList.map fun p => ⟨.handoverDone, time, slot.val, some l.run, p.val⟩

/-- The zone that is served: the one of a cut window, or of a queue that loses its head (R55, R56). -/
def leftZone (s : State) (slot : Fin 16) (z : Fin 12) : Option (Fin 12) :=
  match (s.tour slot).live.prevZone, (s.tour slot).live.target with
  | some p, _ => some p
  | none, some y => if z ≠ y ∧ ((s.zone y).queue.head?).map Waiter.slot = some slot then some y else none
  | none, none => none

/-- The state before that zone is served. -/
def leftState (slot : Fin 16) (z : Fin 12) (s : State) : State :=
  match (s.tour slot).live.prevZone, (s.tour slot).live.target with
  | some _, _ => dropPrevious slot s
  | none, some y => if z = y then s else (leaveQueue slot s).1
  | none, none => s

/-- The service of one zone, or none. -/
def serveLeft (y : Option (Fin 12)) (s : State) : State :=
  match y with
  | some y => serveZones (zoneBit y) s
  | none => s

/-- A tour has left its window, or its queue for another zone than `z`, between two states. -/
structure StopLeft (slot : Fin 16) (z cur : Fin 12) (s v : State) : Prop where
  keeps : KeepsAllBut [.tours, .zones, .events, .egress] s v
  tour : v.tour slot = { s.tour slot with live := { (s.tour slot).live with
    prevZone := none
    window := if (s.tour slot).live.prevZone.isSome then none else (s.tour slot).live.window
    target := if (s.tour slot).live.target = some z then some z else none } }
  away : ∀ k, k ≠ slot → v.tour k = s.tour k
  channel : ∀ c, v.channel c = if c ∈ tourChannels (s.tour slot).live
    then { s.channel c with zones := zoneBit cur } else s.channel c
  zone : ∀ y, v.zone y = { carried := leftCarried s slot y, queue := leftQueue s slot z y }
  events : EventsTaken (cutEvents s.mge.hubTime slot (s.tour slot).live) s v
  placed : ZonesPlaced v

/-! ### The three handover states -/

theorem stopLeft_of_nothing (placed : ZonesPlaced s) (hcur : (s.tour slot).live.zone = some cur)
    (closed : (s.tour slot).live.prevZone = none) (idle : ∀ y, (s.tour slot).live.target = some y → z = y) :
    StopLeft slot z cur s s := by
  have own {c : Fin 24} := (placed.2.2.1 slot).own_zones (c := c) hcur closed
  have target : (s.tour slot).live.target = if (s.tour slot).live.target = some z then some z else none := by
    split
    next h => exact h
    next h =>
      cases ht : (s.tour slot).live.target with
      | none => rfl
      | some y => exact absurd (ht.trans (congrArg some (idle y ht).symm)) h
  refine ⟨.refl, ?_, fun _ _ => rfl, fun c => ?_, fun y => zone_ext ?_ ?_, ?_, placed⟩
  · rw [← target, if_neg (by simp [closed]), ← closed]
  · split
    next hc => exact own hc
    next => rfl
  · simp [leftCarried, closed]
  · unfold leftQueue
    rw [if_neg fun h => h.2 (idle y h.1)]
  · rw [cutEvents, closed]
    exact EventsTaken.nil

theorem stopLeft_of_window {p : Fin 12} (placed : ZonesPlaced s) (hcur : (s.tour slot).live.zone = some cur)
    (hp : (s.tour slot).live.prevZone = some p) : StopLeft slot z cur s (dropPrevious slot s) := by
  have dropped := dropPrevious_spec hp
  have after := placed.dropPrevious slot
  have idle : (s.tour slot).live.target = none := by
    by_contra ht
    have := ((placed.2.2.1 slot).2.1 (Option.isSome_iff_ne_none.2 ht)).1
    rw [hp] at this
    cases this
  obtain ⟨v, hv⟩ : ∃ v, v = dropPrevious slot s := ⟨_, rfl⟩
  rw [← hv] at dropped after ⊢
  have own {c : Fin 24} (hc : c ∈ tourChannels (s.tour slot).live) : v.channel c = { v.channel c with zones := zoneBit cur } :=
    (after.2.2.1 slot).own_zones (by rw [dropped.tour]; exact hcur) (by rw [dropped.tour])
      (by rw [dropped.tourChannels_eq]; exact hc)
  refine ⟨dropped.keeps, ?_, dropped.away, fun c => ?_, fun y => zone_ext ?_ ?_, ?_, after⟩
  · rw [dropped.tour, hp, if_pos (by rfl), if_neg (by rw [idle]; nofun)]
    dsimp only
    rw [idle]
  · split
    next hc =>
      rw [own hc, dropped.channel, if_pos hc]
    next hc => rw [dropped.channel, if_neg hc]
  · have sum := dropped.carried (placed.2.2.1 slot) placed.1 hp y
    show (v.zone y).carried = leftCarried s slot y
    rw [leftCarried, hp]
    by_cases e : y = p
    · subst e
      rw [if_pos rfl] at sum ⊢
      omega
    · rw [if_neg e] at sum
      rw [if_neg fun h => e (Option.some.inj h).symm]
      omega
  · rw [dropped.queue, leftQueue, idle, if_neg fun h => nomatch h.1]
  · rw [cutEvents, hp]
    exact dropped.events

/-- The queues after a tour has left one of them. -/
theorem leaveQueue_zone (ht : (s.tour slot).live.target = some y) (y' : Fin 12) : ((leaveQueue slot s).1.zone y') =
    if y' = y then { s.zone y with queue := (s.zone y).queue.filter fun x => decide (x.slot ≠ slot) } else s.zone y' := by
  unfold leaveQueue
  rw [ht]
  exact State.putZone_zone s y y' _

theorem stopLeft_of_waiting (placed : ZonesPlaced s) (hcur : (s.tour slot).live.zone = some cur)
    (ht : (s.tour slot).live.target = some y) (hy : z ≠ y) : StopLeft slot z cur s (leaveQueue slot s).1 := by
  have left := leaveQueue_spec slot s
  have after := placed.leaveQueue slot
  have zone := leaveQueue_zone ht
  have closed : (s.tour slot).live.prevZone = none := ((placed.2.2.1 slot).2.1 (by rw [ht]; rfl)).1
  have own {c : Fin 24} := (placed.2.2.1 slot).own_zones (c := c) hcur closed
  obtain ⟨v, hv⟩ : ∃ v, v = (leaveQueue slot s).1 := ⟨_, rfl⟩
  rw [← hv] at left after ⊢
  simp only [← hv] at zone
  refine ⟨left.keeps.mono (by decide), ?_, left.away, fun c => ?_, fun y' => zone_ext ?_ ?_, ?_, after⟩
  · rw [left.tour, ht, if_neg fun h => hy (Option.some.inj h).symm, if_neg (by simp [closed])]
    dsimp only
    rw [closed]
  · rw [left.channel]
    split
    next hc => exact own hc
    next => rfl
  · rw [zone]
    split
    next e => simp [leftCarried, closed, e]
    next => simp [leftCarried, closed]
  · rw [zone, leftQueue, ht]
    by_cases e : y' = y
    · rw [if_pos e, if_pos ⟨congrArg some e.symm, e ▸ hy⟩, e]
    · rw [if_neg e, if_neg fun h => e (Option.some.inj h.1).symm]
  · rw [cutEvents, closed]
    exact EventsTaken.nil.to_evq (left.keeps.evq_eq (by decide))

theorem leftState_spec (placed : ZonesPlaced s) (hcur : (s.tour slot).live.zone = some cur) :
    StopLeft slot z cur s (leftState slot z s) := by
  unfold leftState
  split
  next hp => exact stopLeft_of_window placed hcur hp
  next y hp ht =>
    split
    next e => exact stopLeft_of_nothing placed hcur hp fun y' h => e.trans (Option.some.inj (ht.symm.trans h))
    next e => exact stopLeft_of_waiting placed hcur ht e
  next hp ht => exact stopLeft_of_nothing placed hcur hp fun y' h => by rw [ht] at h; cases h

end Sys2Proof.Machine
end

section
/-! The zone of a new stop acted on, second half: what the tour enters or waits for (R52, R53, R73 to R75). -/

namespace Sys2Proof.Machine

open Sys2Proof

variable {s t u v : State} {slot : Fin 16} {z cur y : Fin 12}

/-! ### The two halves -/

theorem takeOut_eq (ht : (s.tour slot).live.target = some y) : takeOut slot s =
    serveLeft (if ((s.zone y).queue.head?).map Waiter.slot = some slot then some y else none) (leaveQueue slot s).1 := by
  have released : (leaveQueue slot s).2 = if ((s.zone y).queue.head?).map Waiter.slot = some slot then zoneBit y else 0#12 := by
    unfold leaveQueue
    rw [ht]
    dsimp only
    cases (s.zone y).queue with
    | nil => rfl
    | cons w rest => by_cases e : w.slot = slot <;> simp [e]
  unfold takeOut
  dsimp only
  rw [released]
  split
  exacts [rfl, serveSet_zero _ _]

theorem followSettled_eq (hz : stopZone (s.tour slot) = some z) (hcur : (s.tour slot).live.zone = some cur) :
    followSettled slot s = if z = cur then s else requestHandover slot z s := by
  unfold followSettled
  rw [hz, hcur]

/-- A tour with a new stop leaves what it has to leave, and then asks for the zone of the stop, if it is another one. -/
theorem followStop_eq (placed : ZonesPlaced s) (hz : stopZone (s.tour slot) = some z)
    (hcur : (s.tour slot).live.zone = some cur) : followStop slot s =
      if z = cur then serveLeft (leftZone s slot z) (leftState slot z s)
      else requestHandover slot z (serveLeft (leftZone s slot z) (leftState slot z s)) := by
  obtain ⟨settled, window, waiting⟩ := handoverOf_iff (s.tour slot).live
  cases hp : (s.tour slot).live.prevZone with
  | some p =>
    have cut := cutWindow_settled placed (by rw [hp]; rfl)
    have left : serveLeft (leftZone s slot z) (leftState slot z s) = cutWindow slot s := by
      unfold leftZone leftState cutWindow
      rw [hp]
      rfl
    unfold followStop
    rw [window.2 (by rw [hp]; rfl), left]
    exact followSettled_eq (by rw [cut]; exact hz) (by rw [cut]; exact hcur)
  | none =>
    cases ht : (s.tour slot).live.target with
    | none =>
      have left : serveLeft (leftZone s slot z) (leftState slot z s) = s := by
        unfold leftZone leftState
        rw [hp, ht]
        rfl
      unfold followStop
      rw [settled.2 ⟨hp, ht⟩, left]
      exact followSettled_eq hz hcur
    | some y =>
      obtain ⟨-, apart⟩ := (placed.2.2.1 slot).2.1 (by rw [ht]; rfl)
      unfold followStop
      rw [waiting.2 ⟨hp, by rw [ht]; rfl⟩]
      dsimp only
      unfold followWaiting leftZone leftState
      rw [hz, ht, hp]
      dsimp only
      by_cases e : z = y
      · have hne : z ≠ cur := fun h => apart (by rw [ht, hcur, ← e, h])
        rw [if_pos e, if_pos e, if_neg hne, if_neg fun h => h.1 e]
        rfl
      · rw [if_neg e, if_neg e, takeOut_eq ht, hcur]
        simp only [Option.some_inj, eq_comm (a := cur), ne_eq, e, not_false_eq_true, true_and]

/-- A tour that leaves a zone to be served does not wait for the zone of its stop. -/
theorem target_of_leftZone (placed : ZonesPlaced s) (hy : leftZone s slot z = some y) :
    (s.tour slot).live.target ≠ some z := fun target => by
  unfold leftZone at hy
  have closed := ((placed.2.2.1 slot).2.1 (by rw [target]; rfl)).1
  rw [closed, target] at hy
  simp at hy

/-- The tour stands in no queue when the zone it has left is served. -/
theorem StopLeft.unqueued (h : StopLeft slot z cur s v) (target : (s.tour slot).live.target ≠ some z) : ¬ Queued v slot :=
  fun hq => by
    have waits := (h.placed.queued hq).1
    rw [h.tour] at waits
    simp [target] at waits

theorem serveLeft_placed (placed : ZonesPlaced v) (y : Option (Fin 12)) : ZonesPlaced (serveLeft y v) := by
  cases y with
  | none => exact placed
  | some y => exact placed.serveZones _

/-- The service of the zone left does not touch the tour. -/
theorem StopLeft.served_tour (h : StopLeft slot z cur s v) (placed : ZonesPlaced s) :
    (serveLeft (leftZone s slot z) v).tour slot = v.tour slot := by
  cases hy : leftZone s slot z with
  | none => rfl
  | some y => exact (serveZones_queues (zoneBit y) v).unqueued slot (h.unqueued (target_of_leftZone placed hy))

/-- The tour may ask for the zone of its stop then, if it is another one. -/
theorem StopLeft.mayAsk (h : StopLeft slot z cur s v) (placed : ZonesPlaced s) (running : isRunning (s.tour slot) = true)
    (hcur : (s.tour slot).live.zone = some cur) (hne : z ≠ cur) :
    MayAsk (serveLeft (leftZone s slot z) v) slot z cur := by
  have tour := h.served_tour placed
  rw [h.tour] at tour
  refine ⟨?_, ?_, Ne.symm hne, ?_, fun y hy => ?_⟩
  · rw [tour]
    exact running
  · rw [tour]
    exact hcur
  · rw [tour]
  · rw [tour] at hy
    dsimp only at hy
    split at hy
    next => exact (Option.some.inj hy).symm
    next => cases hy

/-! ### The head that follows where the tour was -/

/-- Where the head of the queue left fits, its tour holds the zone in the end (R57). -/
theorem followStop_serves {x : Waiter} (placed : ZonesPlaced s) (running : isRunning (s.tour slot) = true)
    (hz : stopZone (s.tour slot) = some z) (hcur : (s.tour slot).live.zone = some cur)
    (hy : leftZone s slot z = some y) (hx : (leftQueue s slot z y).head? = some x)
    (fits : leftCarried s slot y + x.need ≤ 8) : ((followStop slot s).tour x.slot).live.zone = some y ∧
    ((followStop slot s).tour x.slot).live.target = none ∧ x.slot ≠ slot := by
  have left := leftState_spec (slot := slot) (z := z) placed hcur
  have ask (hne : z ≠ cur) := left.mayAsk placed running hcur hne
  rw [followStop_eq placed hz hcur]
  obtain ⟨v, hv⟩ : ∃ v, v = leftState slot z s := ⟨_, rfl⟩
  rw [← hv] at left ⊢
  simp only [← hv, hy] at ask
  have head : (v.zone y).queue.head? = some x := by rw [left.zone]; exact hx
  have queued : Queued v x.slot := ⟨y, x, List.mem_of_mem_head? (by rw [head]; rfl), rfl⟩
  have other : x.slot ≠ slot := fun e => left.unqueued (target_of_leftZone placed hy) (e ▸ queued)
  obtain ⟨zone, target, free⟩ := head_served left.placed head (by rw [left.zone]; exact fits)
  have after := serveLeft_placed left.placed (some y)
  rw [hy]
  split
  · exact ⟨zone, target, other⟩
  next hne =>
    rw [requestHandover_unqueued after (ask hne) other free]
    exact ⟨zone, target, other⟩

/-! ### What the stop leaves where nobody else enters -/

/-- The zone of a new stop has been acted on between two states, and no zone that was left serves anybody; `E` tells whether
the tour enters the zone. -/
structure StopFollowed (E : Prop) [Decidable E] (slot : Fin 16) (z cur : Fin 12) (s t : State) : Prop where
  tour : t.tour slot = { s.tour slot with live := { (s.tour slot).live with
    zone := if E then some z else some cur
    prevZone := if E ∧ grantWindow (s.tour slot) ≠ 0 then some cur else none
    window := if E ∧ grantWindow (s.tour slot) ≠ 0 then some (grantWindow (s.tour slot))
      else if (E ∧ grantWindow (s.tour slot) = 0) ∨ (s.tour slot).live.prevZone.isSome = true then none
      else (s.tour slot).live.window
    target := if z = cur ∨ E then none else some z } }
  away : ∀ k, k ≠ slot → t.tour k = s.tour k
  channel : ∀ c, t.channel c = if c ∈ tourChannels (s.tour slot).live then { s.channel c with
    zones := (if E then zoneBit z else 0#12) |||
      (if E ∧ grantWindow (s.tour slot) = 0 then 0#12 else zoneBit cur) } else s.channel c
  zone : ∀ y, t.zone y =
    { carried := leftCarried s slot y + (if E ∧ y = z then tourNeed (s.tour slot).live else 0) -
        (if (E ∧ grantWindow (s.tour slot) = 0) ∧ y = cur then tourNeed (s.tour slot).live else 0)
      queue := if E ∧ y = z then (leftQueue s slot z y).filter fun x => decide (x.slot ≠ slot)
        else if (z ≠ cur ∧ ¬ E ∧ (s.tour slot).live.target ≠ some z) ∧ y = z
          then leftQueue s slot z y ++ [⟨slot, tourNeed (s.tour slot).live⟩] else leftQueue s slot z y }
  events : EventsTaken (cutEvents s.mge.hubTime slot (s.tour slot).live ++
    (if z ≠ cur ∧ ¬ E ∧ (s.tour slot).live.target ≠ some z
      then [⟨.handoverWait, s.mge.hubTime, slot.val, some (s.tour slot).live.run, z.val⟩] else []) ++
    (if E ∧ grantWindow (s.tour slot) = 0
      then [⟨.handoverDone, s.mge.hubTime, slot.val, some (s.tour slot).live.run, cur.val⟩] else [])) s t

section
variable {E : Prop} [Decidable E]

theorem StopLeft.followed_here (h : StopLeft slot z cur s v) (placed : ZonesPlaced s)
    (hcur : (s.tour slot).live.zone = some cur) (e : z = cur) (hE : ¬ E) : StopFollowed E slot z cur s v := by
  have apart : (s.tour slot).live.target ≠ some z := fun target => by
    obtain ⟨-, apart⟩ := (placed.2.2.1 slot).2.1 (by rw [target]; rfl)
    exact apart (by rw [target, hcur, e])
  refine ⟨?_, h.away, fun c => ?_, fun y => ?_, ?_⟩
  · rw [h.tour, if_neg apart]
    simp only [hE, e, false_and, if_false, false_or, or_false, if_true, ← hcur]
  · rw [h.channel]
    simp only [hE, false_and, if_false, BitVec.zero_or]
  · rw [h.zone]
    simp only [hE, e, ne_eq, not_true_eq_false, false_and, if_false, Nat.add_zero, Nat.sub_zero]
  · simpa [hE, e] using h.events

theorem StopLeft.followed_away (h : StopLeft slot z cur s v) (hne : z ≠ cur) (req : HandoverRequested E slot z cur v t) :
    StopFollowed E slot z cur s t := by
  have window : grantWindow (v.tour slot) = grantWindow (s.tour slot) := by rw [h.tour]; rfl
  have chs : tourChannels (v.tour slot).live = tourChannels (s.tour slot).live := by rw [h.tour]; rfl
  have need : tourNeed (v.tour slot).live = tourNeed (s.tour slot).live := congrArg List.length chs
  have target : (v.tour slot).live.target ≠ some z ↔ (s.tour slot).live.target ≠ some z := by
    rw [h.tour]
    by_cases e : (s.tour slot).live.target = some z <;> simp [e]
  have hub : v.mge.hubTime = s.mge.hubTime := h.keeps .hubTime (by decide)
  have run : (v.tour slot).live.run = (s.tour slot).live.run := by rw [h.tour]
  obtain ⟨tour, away, channel, zone, events⟩ := req
  simp only [window, chs, need, target, hub, run] at tour channel zone events
  refine ⟨?_, fun k hk => (away k hk).trans (h.away k hk), fun c => ?_, fun y => ?_, ?_⟩
  · rw [tour, h.tour]
    by_cases e : E <;> by_cases w : grantWindow (s.tour slot) = 0 <;> simp [e, w, hne]
  · rw [channel, h.channel]
    split
    next hc => rfl
    next => rfl
  · rw [zone, h.zone]
    simp only [hne, ne_eq, not_false_eq_true, true_and]
  · have both := h.events.append events (h.keeps .enables (by decide))
    simp only [hne, ne_eq, not_false_eq_true, true_and, List.append_assoc] at both ⊢
    exact both

/-- A new stop acted on, where no zone that the tour leaves serves anybody. -/
theorem followStop_followed (placed : ZonesPlaced s) (running : isRunning (s.tour slot) = true)
    (hz : stopZone (s.tour slot) = some z) (hcur : (s.tour slot).live.zone = some cur)
    (hE : E ↔ z ≠ cur ∧ (leftQueue s slot z z = [] ∨ ((leftQueue s slot z z).head?).map Waiter.slot = some slot) ∧
      leftCarried s slot z + tourNeed (s.tour slot).live ≤ 8)
    (left : ∀ y x, leftZone s slot z = some y → (leftQueue s slot z y).head? = some x → 8 < leftCarried s slot y + x.need)
    (jumped : E → grantWindow (s.tour slot) = 0 → ∀ x, (leftQueue s slot z cur).head? = some x →
      8 < leftCarried s slot cur - tourNeed (s.tour slot).live + x.need) :
    StopFollowed E slot z cur s (followStop slot s) := by
  have spec := leftState_spec (slot := slot) (z := z) placed hcur
  have ask (hne : z ≠ cur) := spec.mayAsk placed running hcur hne
  rw [followStop_eq placed hz hcur]
  obtain ⟨v, hv⟩ : ∃ v, v = leftState slot z s := ⟨_, rfl⟩
  rw [← hv] at spec ⊢
  simp only [← hv] at ask
  have unserved : serveLeft (leftZone s slot z) v = v := by
    cases hy : leftZone s slot z with
    | none => rfl
    | some y =>
      refine serveZones_of_stuck fun x hx => ?_
      rw [freeSlots_lt_iff (spec.placed.2.1 y), spec.zone]
      rw [spec.zone] at hx
      exact left y x hy hx
  rw [unserved] at ask ⊢
  split
  next e => exact spec.followed_here placed hcur e fun h => (hE.1 h).1 e
  next hne =>
    have need : tourNeed (v.tour slot).live = tourNeed (s.tour slot).live := by rw [spec.tour]; rfl
    have window : grantWindow (v.tour slot) = grantWindow (s.tour slot) := by rw [spec.tour]; rfl
    refine spec.followed_away hne (requestHandover_requested spec.placed (ask hne) ?_ fun e w x hx => ?_)
    · rw [hE, MayEnter, spec.zone, need]
      exact and_iff_right hne
    · rw [spec.zone] at hx
      rw [spec.zone, need]
      exact jumped e (window ▸ w) x hx

end

end Sys2Proof.Machine
end

section
/-! An advance taken, part by part: the mark, the zone of the new stop and the fallback written from it (R72 to R75, R79). -/

namespace Sys2Proof.Machine

open Sys2Proof

variable {s t u v w : State} {slot : Fin 16} {z cur : Fin 12} {p : Plan} {st : Stop} {d : Nat}

/-! ### The course of every tour -/

/-- Every tour keeps its plan, its stop and its silence stage. -/
def SameCourse (s t : State) : Prop := ∀ k, (t.tour k).plan = (s.tour k).plan ∧
  (t.tour k).live.stop = (s.tour k).live.stop ∧ (t.tour k).live.stage = (s.tour k).live.stage ∧
  (t.tour k).live.run = (s.tour k).live.run

theorem SameCourse.of_tour (h : t.tour = s.tour) : SameCourse s t := fun k => by rw [h]; exact ⟨rfl, rfl, rfl, rfl⟩

theorem SameCourse.putLive {x : TourLive} (hs : x.stop = (s.tour slot).live.stop) (hg : x.stage = (s.tour slot).live.stage)
    (hr : x.run = (s.tour slot).live.run) : SameCourse s (s.putLive slot x) := fun k => by
  by_cases hk : k = slot
  · rw [hk, putLive_tour_self]
    exact ⟨rfl, hs, hg, hr⟩
  · rw [putLive_tour_ne hk]
    exact ⟨rfl, rfl, rfl, rfl⟩

theorem sameCourse_handover (slot : Fin 16) : HandoverClosed SameCourse slot where
  refl _ := .of_tour rfl
  trans h k j := by
    obtain ⟨p1, s1, g1, r1⟩ := h j
    obtain ⟨p2, s2, g2, r2⟩ := k j
    exact ⟨p2.trans p1, s2.trans s1, g2.trans g1, r2.trans r1⟩
  zones _ _ _ _ _ _ := .of_tour rfl
  queue _ _ _ := .of_tour rfl
  moved _ _ _ _ _ _ _ := .putLive rfl rfl rfl
  event s k n r d := .of_tour (funext fun j =>
    (raiseEvent_keeps (ps := eventParts) .refl (by decide) (by decide)).tour_eq (by decide) j)
  anyZones _ _ _ := .of_tour rfl
  waits _ _ _ _ := .putLive rfl rfl rfl

/-! ### The mark -/

/-- The code of the handover state that an advance finds (Table 8-9). -/
def foundCode (l : TourLive) : Nat := if l.prevZone.isSome then 1 else if l.target.isSome then 2 else 0

theorem foundCode_eq (l : TourLive) : (handoverOf l).code = foundCode l ∧ (handoverOf l ≠ .settled ↔ foundCode l ≠ 0) := by
  unfold handoverOf foundCode
  cases l.prevZone <;> cases l.target <;> simp [Handover.code]

/-- The events of an advance ahead of what follows from the new stop (R72). -/
def markEvents (d stop time : Nat) (slot : Fin 16) (l : TourLive) : List EventRecord :=
  ⟨.mark, time, slot.val, some l.run, d * 256 + stop⟩ ::
    if 1 < d ∨ foundCode l ≠ 0 then [⟨.markOverrun, time, slot.val, some l.run, d * 256 + foundCode l⟩] else []

/-- A tour stands at a new stop, and the mark has been raised, between two states. -/
structure StopMoved (slot : Fin 16) (stop d : Nat) (s v : State) : Prop where
  keeps : KeepsAllBut [.sources, .tours, .events, .egress] s v
  tour : v.tour slot = { s.tour slot with live := { (s.tour slot).live with stop := stop } }
  away : ∀ k, k ≠ slot → v.tour k = s.tour k
  events : EventsTaken (markEvents d stop s.mge.hubTime slot (s.tour slot).live) s v

/-- The state in which the zone of the new stop is acted on. -/
def stopMoved (d stop : Nat) (slot : Fin 16) (s : State) : State :=
  let u := raiseTour .mark slot (detailPair d stop) (s.putLive slot { (s.tour slot).live with stop := stop })
  if 1 < d ∨ handoverOf (s.tour slot).live ≠ .settled
    then raiseTour .markOverrun slot (detailPair d (handoverOf (s.tour slot).live).code) u else u

theorem stopMoved_spec (d stop : Nat) (slot : Fin 16) (s : State) : StopMoved slot stop d s (stopMoved d stop slot s) := by
  obtain ⟨code, open_⟩ := foundCode_eq (s.tour slot).live
  obtain ⟨v, hv⟩ : ∃ v, v = s.putLive slot { (s.tour slot).live with stop := stop } := ⟨_, rfl⟩
  have put : KeepsAllBut [.tours] s v := hv ▸ putLive_keeps .refl (by decide)
  have here : v.tour slot = { s.tour slot with live := { (s.tour slot).live with stop := stop } } := by
    rw [hv, putLive_tour_self]
  have away (k : Fin 16) (hk : k ≠ slot) : v.tour k = s.tour k := by rw [hv, putLive_tour_ne hk]
  have run : (v.tour slot).live.run = (s.tour slot).live.run := by rw [here]
  have mark : EventsTaken [⟨.mark, s.mge.hubTime, slot.val, some (s.tour slot).live.run, d * 256 + stop⟩] s
      (raiseTour .mark slot (detailPair d stop) v) := by
    rw [raiseTour, run]
    exact .raise_of_evq (put.evq_eq (by decide)) (put .hubTime (by decide))
  have rise (k : EventKind) (n : Nat) (x : State) : KeepsAllBut eventParts x (raiseTour k slot n x) :=
    raiseTour_keeps .refl (by decide) (by decide)
  have first : KeepsAllBut [.tours, .events, .egress] s (raiseTour .mark slot (detailPair d stop) v) :=
    (put.mono (by decide)).trans ((rise _ _ v).mono (by decide))
  unfold stopMoved
  dsimp only
  rw [← hv, code]
  obtain ⟨u, hu⟩ : ∃ u, u = raiseTour .mark slot (detailPair d stop) v := ⟨_, rfl⟩
  have tours (k : Fin 16) : u.tour k = v.tour k := hu ▸ (rise .mark _ v).tour_eq (by decide) k
  rw [← hu] at mark first ⊢
  by_cases overrun : 1 < d ∨ foundCode (s.tour slot).live ≠ 0
  · rw [if_pos (overrun.imp_right open_.2)]
    refine ⟨(first.mono (by decide)).trans ((rise _ _ u).mono (by decide)), ?_, fun k hk => ?_, ?_⟩
    · rw [(rise _ _ u).tour_eq (by decide), tours, here]
    · rw [(rise _ _ u).tour_eq (by decide), tours, away k hk]
    · have event : EventsTaken [⟨.markOverrun, s.mge.hubTime, slot.val, some (s.tour slot).live.run,
          d * 256 + foundCode (s.tour slot).live⟩] u
          (raiseTour .markOverrun slot (detailPair d (foundCode (s.tour slot).live)) u) := by
        rw [raiseTour, tours, run]
        exact .raise_of_evq rfl (first .hubTime (by decide))
      rw [markEvents, if_pos overrun]
      exact mark.append event (first .enables (by decide))
  · rw [if_neg fun h => overrun (h.imp_right open_.1)]
    refine ⟨first.mono (by decide), by rw [tours, here], fun k hk => by rw [tours, away k hk], ?_⟩
    rw [markEvents, if_neg overrun]
    exact mark

namespace StopMoved
variable {stop : Nat}

/-- The record of the frame's source is no part of what an advance says (R8). -/
theorem of_intake (h : StopMoved slot stop d t v) (k : KeepsAllBut [.sources, .egress] s t) : StopMoved slot stop d s v := by
  have tour (j : Fin 16) : t.tour j = s.tour j := k.tour_eq (by decide) j
  have hub : t.mge.hubTime = s.mge.hubTime := k .hubTime (by decide)
  obtain ⟨keeps, here, away, events⟩ := h
  rw [tour] at here
  rw [tour, hub] at events
  exact ⟨(k.mono (by decide)).trans keeps, here, fun j hj => (away j hj).trans (tour j),
    events.of_evq (k.evq_eq (by decide)).symm⟩

theorem places (h : StopMoved slot stop d s v) : SamePlaces s v :=
  ⟨fun k => by
    by_cases hk : k = slot
    · rw [hk, h.tour]
      exact ⟨Iff.rfl, rfl, rfl, rfl, rfl⟩
    · rw [h.away k hk]
      exact .refl _, fun c => by rw [h.keeps.channel_eq (by decide) c]; exact ⟨rfl, rfl, rfl⟩,
    fun z => h.keeps.zone_eq (by decide) z⟩

theorem leftCarried (h : StopMoved slot stop d s v) (y : Fin 12) : leftCarried v slot y = leftCarried s slot y := by
  unfold Machine.leftCarried
  rw [h.keeps.zone_eq (by decide) y, h.tour]
  rfl

theorem leftQueue (h : StopMoved slot stop d s v) (z y : Fin 12) : leftQueue v slot z y = leftQueue s slot z y := by
  unfold Machine.leftQueue
  rw [h.keeps.zone_eq (by decide) y, h.tour]

theorem leftZone (h : StopMoved slot stop d s v) (z : Fin 12) : leftZone v slot z = leftZone s slot z := by
  have zone (y : Fin 12) : v.zone y = s.zone y := h.keeps.zone_eq (by decide) y
  unfold Machine.leftZone
  rw [h.tour]
  simp only [zone]

end StopMoved

/-! ### The fallback written from the stop -/

/-- In silence stage 2 the fallback slots are written from the stop (R79). -/
def writeStage (slot : Fin 16) (s : State) : State :=
  if (s.tour slot).live.stage = 2 then writeFallback slot s else s

/-- The fallback slots of a plan follow the stop in silence stage 2, between two states (R79). -/
structure StageWritten (slot : Fin 16) (p : Plan) (st : Stop) (w t : State) : Prop where
  keeps : KeepsAllBut [.tours, .programs, .events, .egress] w t
  tour : t.tour slot = { w.tour slot with live := { (w.tour slot).live with
    fallback := if (w.tour slot).live.stage = 2 then writtenFallback p st else (w.tour slot).live.fallback } }
  away : ∀ k, k ≠ slot → t.tour k = w.tour k
  events : EventsTaken (if (w.tour slot).live.stage = 2 then
    [⟨if spokenEntries p st = [] then .fallbackNone else .fallbackOn, w.mge.hubTime, slot.val, some (w.tour slot).live.run,
      (w.tour slot).live.stop * 256 + entrySet (spokenEntries p st)⟩] else []) w t
  spared : (w.tour slot).live.stage ≠ 2 → t = w
  written : (w.tour slot).live.stage = 2 → ProgramsApart p →
    (∀ e x, p.entries.get e = some x → t.program x.program = { w.program x.program with fallback := st.fallback.get e }) ∧
    ∀ q, (∀ e x, p.entries.get e = some x → x.program ≠ q) → t.program q = w.program q

theorem writeStage_spec (hp : (w.tour slot).plan = some p) (hs : p.route[(w.tour slot).live.stop]? = some st) :
    StageWritten slot p st w (writeStage slot w) := by
  unfold writeStage
  by_cases h2 : (w.tour slot).live.stage = 2
  · rw [if_pos h2]
    obtain ⟨silenced, program, events⟩ := writeFallback_spec hp hs
    refine ⟨silenced.keeps, ?_, fun k hk => silenced.away hk, by rw [if_pos h2]; exact events, fun h => absurd h2 h,
      fun _ apart => ⟨fun e x hx => ?_, fun q hq => silenced.unnamed q ?_⟩⟩
    · rw [silenced.tour, if_pos h2]
    · have mem : (e, x) ∈ planEntries p := mem_planEntries_iff.2 hx
      rw [silenced.program x.program, program (e, x) mem (apart.alone mem)]
    · rintro ⟨p', e, x, hp', hx, rfl⟩
      obtain rfl := Option.some.inj (hp.symm.trans hp')
      exact hq e x hx rfl
  · rw [if_neg h2]
    exact ⟨.refl, by rw [if_neg h2], fun _ _ => rfl, by rw [if_neg h2]; exact EventsTaken.nil, fun _ => rfl,
      fun h => absurd h h2⟩

/-! ### An advance taken -/

theorem takeAdvance_last (hp : (s.tour slot).plan = some p) (h : lastStop p ≤ (s.tour slot).live.stop) :
    takeAdvance d slot s = raiseTour .endOfRoute slot d s := by
  unfold takeAdvance
  dsimp only
  rw [hp]
  exact if_pos h

theorem takeAdvance_moves (hp : (s.tour slot).plan = some p) (h : (s.tour slot).live.stop < lastStop p) :
    takeAdvance d slot s = writeStage slot (followStop slot
      (stopMoved d (min ((s.tour slot).live.stop + d) (lastStop p)) slot s)) := by
  unfold takeAdvance
  dsimp only
  rw [hp]
  exact if_neg (Nat.not_le.2 h)

theorem writeStage_cases (slot : Fin 16) (w : State) :
    writeStage slot w = w ∨ ∃ p st, StopWritten slot p st w (writeStage slot w) := by
  by_cases h2 : (w.tour slot).live.stage = 2
  · rw [writeStage, if_pos h2]
    by_cases hs : ∃ p st, (w.tour slot).plan = some p ∧ p.route[(w.tour slot).live.stop]? = some st
    · obtain ⟨p, st, hp, hs⟩ := hs
      exact .inr ⟨p, st, writeFallback_spec hp hs⟩
    · exact .inl (writeFallback_of_none fun p st hp h => hs ⟨p, st, hp, h⟩)
  · exact .inl (if_neg h2)

theorem writeStage_stop (slot : Fin 16) (w : State) (k : Fin 16) :
    ((writeStage slot w).tour k).live.stop = (w.tour k).live.stop := by
  rcases writeStage_cases slot w with same | ⟨p, st, written⟩
  · rw [same]
  · by_cases hk : k = slot
    · rw [hk, written.silenced.tour]
    · rw [written.silenced.away hk]

theorem writeStage_away (w : State) {k : Fin 16} (hk : k ≠ slot) : (writeStage slot w).tour k = w.tour k := by
  rcases writeStage_cases slot w with same | ⟨p, st, written⟩
  · rw [same]
  · exact written.silenced.away hk

theorem writeStage_reports (slot : Fin 16) (w : State) : Reports w (writeStage slot w) := by
  rcases writeStage_cases slot w with same | ⟨p, st, written⟩
  · rw [same]
    exact (reports_closed slot).refl w
  · exact written.silenced.reports

end Sys2Proof.Machine
end

section
/-! An advance taken, whole: what it leaves always, and what it leaves where no other tour enters a zone (R72 to R75, R79). -/

namespace Sys2Proof.Machine

open Sys2Proof

variable {s t u v w : State} {slot : Fin 16} {z cur y : Fin 12} {p : Plan} {st : Stop} {d stop : Nat}

/-- The zone that is served, in the words of R55 and R56. -/
theorem leftZone_iff (placed : ZonesPlaced s) : leftZone s slot z = some y ↔ (s.tour slot).live.prevZone = some y ∨
    ((s.tour slot).live.target = some y ∧ z ≠ y ∧ ((s.zone y).queue.head?).map Waiter.slot = some slot) := by
  have waits := (placed.2.2.1 slot).2.1
  unfold leftZone
  cases hp : (s.tour slot).live.prevZone with
  | some p =>
    have idle : (s.tour slot).live.target = none := by
      by_contra ht
      have := (waits (Option.isSome_iff_ne_none.2 ht)).1
      rw [hp] at this
      cases this
    simp [idle]
  | none =>
    cases ht : (s.tour slot).live.target with
    | none => simp
    | some x =>
      dsimp only
      split
      next h =>
        refine ⟨fun e => .inr ?_, ?_⟩
        · obtain rfl := Option.some.inj e
          exact ⟨rfl, h⟩
        · rintro (e | ⟨e, -⟩)
          · cases e
          · exact e
      next h =>
        refine iff_of_false nofun ?_
        rintro (e | ⟨e, rest⟩)
        · cases e
        · obtain rfl := Option.some.inj e
          exact h rest

/-! ### What an advance leaves always -/

/-- What an advance that moves a tour's stop leaves, whoever else enters a zone. -/
structure AdvanceTaken (slot : Fin 16) (p : Plan) (stop d : Nat) (s t : State) : Prop where
  stops : ∀ k, (t.tour k).live.stop = if k = slot then stop else (s.tour k).live.stop
  events : ∃ more, EventsTaken (markEvents d stop s.mge.hubTime slot (s.tour slot).live ++ more) s t
  spared : (s.tour slot).live.stage ≠ 2 → t.mxr = s.mxr
  written : ∀ st, p.route[stop]? = some st → (s.tour slot).live.stage = 2 → ProgramsApart p →
    (∀ e x, p.entries.get e = some x → t.program x.program = { s.program x.program with fallback := st.fallback.get e }) ∧
    ∀ q, (∀ e x, p.entries.get e = some x → x.program ≠ q) → t.program q = s.program q

theorem followStop_keepsParts (slot : Fin 16) (v : State) : KeepsAllBut [.zones, .tours, .events, .egress] v (followStop slot v) :=
  followStop_keeps .refl (by decide) (by decide) (by decide) (by decide)

theorem advanceTaken (moved : StopMoved slot stop d s v) (hp : (s.tour slot).plan = some p) :
    AdvanceTaken slot p stop d s (writeStage slot (followStop slot v)) := by
  have follow := followStop_keepsParts slot v
  have course := (sameCourse_handover slot).followStop v
  have reports := (reports_closed slot).followStop v
  obtain ⟨w, hw⟩ : ∃ w, w = followStop slot v := ⟨_, rfl⟩
  rw [← hw] at follow course reports ⊢
  obtain ⟨plan, stops, stage, run⟩ := course slot
  rw [moved.tour] at plan stops stage
  have programs (q : Fin 32) : w.program q = s.program q :=
    (follow.program_eq (by decide) q).trans (moved.keeps.program_eq (by decide) q)
  refine ⟨fun k => ?_, ?_, fun h => ?_, fun st hs h2 apart => ?_⟩
  · rw [writeStage_stop, (course k).2.1]
    split
    next e => rw [e, moved.tour]
    next e => rw [moved.away k e]
  · obtain ⟨-, more, taken⟩ := reports.trans (writeStage_reports slot w)
    exact ⟨more, moved.events.append taken (moved.keeps .enables (by decide))⟩
  · have same : writeStage slot w = w := if_neg (by rw [stage]; exact h)
    rw [same]
    exact (follow .programs (by decide)).trans (moved.keeps .programs (by decide))
  · obtain ⟨written, others⟩ := (writeStage_spec (w := w) (p := p) (st := st) (plan.trans hp) (by rw [stops]; exact hs)).written
      (stage.trans h2) apart
    refine ⟨fun e x hx => ?_, fun q hq => ?_⟩
    · rw [written e x hx, programs]
    · rw [others q hq, programs]

/-! ### What it leaves where nobody else enters -/

/-- An advance has moved a tour between two states, and no zone that it leaves serves anybody; `E` tells whether the tour
enters the zone of the stop. -/
structure AdvanceFollowed (E : Prop) [Decidable E] (slot : Fin 16) (p : Plan) (st : Stop) (cur : Fin 12) (stop : Nat)
    (s t : State) : Prop where
  tour : t.tour slot = { s.tour slot with live := { (s.tour slot).live with
    stop := stop
    zone := if E then some st.zone else some cur
    prevZone := if E ∧ grantWindow (s.tour slot) ≠ 0 then some cur else none
    window := if E ∧ grantWindow (s.tour slot) ≠ 0 then some (grantWindow (s.tour slot))
      else if (E ∧ grantWindow (s.tour slot) = 0) ∨ (s.tour slot).live.prevZone.isSome = true then none
      else (s.tour slot).live.window
    target := if st.zone = cur ∨ E then none else some st.zone
    fallback := if (s.tour slot).live.stage = 2 then
      (if entrySet (spokenEntries p st) = 0 then .none else .on) else (s.tour slot).live.fallback } }
  away : ∀ k, k ≠ slot → t.tour k = s.tour k
  channel : ∀ c, t.channel c = if c ∈ tourChannels (s.tour slot).live then { s.channel c with
    zones := (if E then zoneBit st.zone else 0#12) |||
      (if E ∧ grantWindow (s.tour slot) = 0 then 0#12 else zoneBit cur) } else s.channel c
  zone : ∀ y, t.zone y =
    { carried := leftCarried s slot y + (if E ∧ y = st.zone then tourNeed (s.tour slot).live else 0) -
        (if (E ∧ grantWindow (s.tour slot) = 0) ∧ y = cur then tourNeed (s.tour slot).live else 0)
      queue := if E ∧ y = st.zone then (leftQueue s slot st.zone y).filter fun x => decide (x.slot ≠ slot)
        else if (st.zone ≠ cur ∧ ¬ E ∧ (s.tour slot).live.target ≠ some st.zone) ∧ y = st.zone
          then leftQueue s slot st.zone y ++ [⟨slot, tourNeed (s.tour slot).live⟩] else leftQueue s slot st.zone y }

section
variable (E : Prop) [Decidable E]

/-- The events that follow the mark then. -/
def followEvents (slot : Fin 16) (p : Plan) (st : Stop) (cur : Fin 12) (stop time : Nat) (t : Tour) : List EventRecord :=
  cutEvents time slot t.live ++
  (if st.zone ≠ cur ∧ ¬ E ∧ t.live.target ≠ some st.zone
    then [⟨.handoverWait, time, slot.val, some t.live.run, st.zone.val⟩] else []) ++
  (if E ∧ grantWindow t = 0 then [⟨.handoverDone, time, slot.val, some t.live.run, cur.val⟩] else []) ++
  (if t.live.stage = 2 then [⟨if entrySet (spokenEntries p st) = 0 then .fallbackNone else .fallbackOn, time, slot.val,
    some t.live.run, stop * 256 + entrySet (spokenEntries p st)⟩] else [])

variable {E}

theorem advanceFollowed (moved : StopMoved slot stop d s v) (followed : StopFollowed E slot st.zone cur v w)
    (written : StageWritten slot p st w t) (kept : KeepsAllBut [.zones, .tours, .events, .egress] v w) :
    AdvanceFollowed E slot p st cur stop s t ∧
    EventsTaken (markEvents d stop s.mge.hubTime slot (s.tour slot).live ++
      followEvents E slot p st cur stop s.mge.hubTime (s.tour slot)) s t := by
  have window : grantWindow (v.tour slot) = grantWindow (s.tour slot) := by rw [moved.tour]; rfl
  have need : tourNeed (v.tour slot).live = tourNeed (s.tour slot).live := by rw [moved.tour]; rfl
  have chs : tourChannels (v.tour slot).live = tourChannels (s.tour slot).live := by rw [moved.tour]; rfl
  have target : (v.tour slot).live.target = (s.tour slot).live.target := by rw [moved.tour]
  have previous : (v.tour slot).live.prevZone = (s.tour slot).live.prevZone := by rw [moved.tour]
  have run : (v.tour slot).live.run = (s.tour slot).live.run := by rw [moved.tour]
  have hub : v.mge.hubTime = s.mge.hubTime := moved.keeps .hubTime (by decide)
  have hub' : w.mge.hubTime = s.mge.hubTime := (kept .hubTime (by decide)).trans hub
  have channel (c : Fin 24) : v.channel c = s.channel c := moved.keeps.channel_eq (by decide) c
  have stage : (w.tour slot).live.stage = (s.tour slot).live.stage := by rw [followed.tour, moved.tour]
  have stops : (w.tour slot).live.stop = stop := by rw [followed.tour, moved.tour]
  have runs : (w.tour slot).live.run = (s.tour slot).live.run := by rw [followed.tour, moved.tour]
  have fallback : (w.tour slot).live.fallback = (s.tour slot).live.fallback := by rw [followed.tour, moved.tour]
  have cut (time : Nat) : cutEvents time slot (v.tour slot).live = cutEvents time slot (s.tour slot).live := by
    rw [cutEvents, cutEvents, previous, run]
  have bits : entrySet (spokenEntries p st) = 0 ↔ spokenEntries p st = [] := entrySet_eq_zero_iff
  obtain ⟨tourF, awayF, channelF, zoneF, eventsF⟩ := followed
  simp only [window, need, chs, target, run, hub, channel, cut, moved.leftCarried, moved.leftQueue] at channelF zoneF eventsF
  refine ⟨⟨?_, fun k hk => ?_, fun c => ?_, fun y => ?_⟩, ?_⟩
  · rw [written.tour, stage, fallback, tourF, window, previous, moved.tour]
    simp only [writtenFallback, bits]
  · rw [written.away k hk, awayF k hk, moved.away k hk]
  · rw [written.keeps.channel_eq (by decide), channelF]
  · rw [written.keeps.zone_eq (by decide), zoneF]
  · have fallbackEvents := written.events
    rw [stage, hub', runs, stops] at fallbackEvents
    simp only [← bits] at fallbackEvents
    have both := (moved.events.append eventsF (moved.keeps .enables (by decide))).append fallbackEvents
      ((kept .enables (by decide)).trans (moved.keeps .enables (by decide)))
    simpa only [followEvents, List.append_assoc] using both

end

/-! ### The two cases -/

/-- The tour enters the zone of its new stop (R52). -/
def EntersStop (s : State) (slot : Fin 16) (z cur : Fin 12) : Prop :=
  z ≠ cur ∧ (leftQueue s slot z z = [] ∨ ((leftQueue s slot z z).head?).map Waiter.slot = some slot) ∧
  leftCarried s slot z + tourNeed (s.tour slot).live ≤ 8

/-- No zone that the tour leaves serves anybody (R57). -/
def NobodyServed (s : State) (slot : Fin 16) (z cur : Fin 12) : Prop :=
  (∀ y x, leftZone s slot z = some y → (leftQueue s slot z y).head? = some x → 8 < leftCarried s slot y + x.need) ∧
  (EntersStop s slot z cur → grantWindow (s.tour slot) = 0 → ∀ x, (leftQueue s slot z cur).head? = some x →
    8 < leftCarried s slot cur - tourNeed (s.tour slot).live + x.need)

namespace StopMoved

theorem placed (h : StopMoved slot stop d s v) (placed : ZonesPlaced s) : ZonesPlaced v := placed.of_same h.places

theorem stopZone (h : StopMoved slot stop d s v) (hp : (s.tour slot).plan = some p) (hs : p.route[stop]? = some st) :
    stopZone (v.tour slot) = some st.zone := by
  unfold Machine.stopZone
  rw [h.tour]
  dsimp only
  rw [hp, Option.bind_some, hs]
  rfl

theorem serves {x : Waiter} (h : StopMoved slot stop d s v) (placed : ZonesPlaced s)
    (running : isRunning (s.tour slot) = true) (hp : (s.tour slot).plan = some p) (hs : p.route[stop]? = some st)
    (hcur : (s.tour slot).live.zone = some cur) (hy : Machine.leftZone s slot st.zone = some y)
    (hx : (Machine.leftQueue s slot st.zone y).head? = some x) (fits : Machine.leftCarried s slot y + x.need ≤ 8) :
    ((writeStage slot (followStop slot v)).tour x.slot).live.zone = some y ∧
    ((writeStage slot (followStop slot v)).tour x.slot).live.target = none := by
  obtain ⟨zone, target, other⟩ := followStop_serves (s := v) (cur := cur) (h.placed placed)
    (by rw [h.places.isRunning]; exact running) (h.stopZone hp hs) (by rw [h.tour]; exact hcur)
    ((h.leftZone st.zone).trans hy) (by rw [h.leftQueue]; exact hx) (by rw [h.leftCarried]; exact fits)
  rw [writeStage_away _ other]
  exact ⟨zone, target⟩

theorem follows {E : Prop} [Decidable E] (h : StopMoved slot stop d s v) (placed : ZonesPlaced s)
    (running : isRunning (s.tour slot) = true) (hp : (s.tour slot).plan = some p) (hs : p.route[stop]? = some st)
    (hcur : (s.tour slot).live.zone = some cur) (hE : E ↔ EntersStop s slot st.zone cur)
    (nobody : NobodyServed s slot st.zone cur) :
    AdvanceFollowed E slot p st cur stop s (writeStage slot (followStop slot v)) ∧
    EventsTaken (markEvents d stop s.mge.hubTime slot (s.tour slot).live ++
      followEvents E slot p st cur stop s.mge.hubTime (s.tour slot)) s (writeStage slot (followStop slot v)) := by
  have window : grantWindow (v.tour slot) = grantWindow (s.tour slot) := by rw [h.tour]; rfl
  have need : tourNeed (v.tour slot).live = tourNeed (s.tour slot).live := by rw [h.tour]; rfl
  have followed : StopFollowed E slot st.zone cur v (followStop slot v) := by
    refine followStop_followed (h.placed placed) (by rw [h.places.isRunning]; exact running) (h.stopZone hp hs)
      (by rw [h.tour]; exact hcur) ?_ ?_ ?_
    · rw [hE, EntersStop, h.leftQueue, h.leftCarried, need]
    · simp only [h.leftZone, h.leftQueue, h.leftCarried]
      exact nobody.1
    · simp only [window, need, h.leftQueue, h.leftCarried]
      exact fun e => nobody.2 (hE.1 e)
  refine advanceFollowed h followed (writeStage_spec ?_ ?_) (followStop_keepsParts slot v)
  · rw [followed.tour, h.tour]
    exact hp
  · rw [followed.tour, h.tour]
    exact hs

end StopMoved

theorem followEvents_congr {E F : Prop} [Decidable E] [Decidable F] (h : E ↔ F) (time : Nat) (x : Tour) :
    followEvents E slot p st cur stop time x = followEvents F slot p st cur stop time x := by
  unfold followEvents
  simp only [h]

open Classical in
/-- The events after the mark of one advance, whichever case it is. -/
theorem StopMoved.events_told (h : StopMoved slot stop d s v) (running : isRunning (s.tour slot) = true)
    (hp : (s.tour slot).plan = some p) : ∃ more,
    EventsTaken (markEvents d stop s.mge.hubTime slot (s.tour slot).live ++ more) s (writeStage slot (followStop slot v)) ∧
    ∀ (E : Prop) [Decidable E] (cur : Fin 12) (st : Stop), ZonesPlaced s → (s.tour slot).live.zone = some cur →
      p.route[stop]? = some st → (E ↔ EntersStop s slot st.zone cur) → NobodyServed s slot st.zone cur →
      more = followEvents E slot p st cur stop s.mge.hubTime (s.tour slot) ∧
      AdvanceFollowed E slot p st cur stop s (writeStage slot (followStop slot v)) := by
  by_cases exact_ : ∃ cur st, ZonesPlaced s ∧ (s.tour slot).live.zone = some cur ∧ p.route[stop]? = some st ∧
      NobodyServed s slot st.zone cur
  · obtain ⟨cur, st, placed, hcur, hs, nobody⟩ := exact_
    obtain ⟨-, events⟩ := h.follows placed running hp hs hcur Iff.rfl nobody
    refine ⟨_, events, fun E _ cur' st' _ hcur' hs' hE _ => ?_⟩
    obtain rfl := Option.some.inj (hcur.symm.trans hcur')
    obtain rfl := Option.some.inj (hs.symm.trans hs')
    exact ⟨followEvents_congr hE.symm _ _, (h.follows placed running hp hs hcur hE nobody).1⟩
  · obtain ⟨more, events⟩ := (advanceTaken h hp).events
    exact ⟨more, events, fun E _ cur st placed hcur hs _ nobody => absurd ⟨cur, st, placed, hcur, hs, nobody⟩ exact_⟩

end Sys2Proof.Machine
end

section
/-! A GUIDE frame judged: its mark counter, and the one tour that takes its advance (R17, R18, R72). -/

namespace Sys2Proof.Machine

open Sys2Proof

variable {s t u v : State} {i : Fin 48} {k : Fin 16} {z cur y : Fin 12} {p : Plan} {st : Stop} {r : Source} {d : Nat}

/-! ### The mark counter -/

/-- The frame sets a baseline, or carries the counter again (R17). -/
def MarkBaseline (l : SourceLive) (mark : BitVec 4) : Prop :=
  l.lastMark = none ∨ l.phase = .stale ∨ l.lastMark = some mark

theorem markAdvance_of_baseline {l : SourceLive} {mark : BitVec 4} (h : MarkBaseline l mark) :
    markAdvance .guide l mark = none := by
  unfold markAdvance
  cases hm : l.lastMark with
  | none => rfl
  | some m =>
    refine if_pos ?_
    rcases h with e | e | e
    · rw [hm] at e
      cases e
    · exact .inl e
    · exact .inr (Option.some.inj (hm.symm.trans e)).symm

theorem markAdvance_of_not_baseline {l : SourceLive} {mark : BitVec 4} (h : ¬ MarkBaseline l mark) :
    ∃ m, l.lastMark = some m ∧ markAdvance .guide l mark = some (mark - m).toNat := by
  cases hm : l.lastMark with
  | none => exact absurd (.inl hm) h
  | some m =>
    refine ⟨m, rfl, ?_⟩
    unfold markAdvance
    rw [hm]
    exact if_neg fun e => h (.inr (e.imp_right fun e => hm.trans (congrArg some e.symm)))

/-- An accepted GUIDE frame: the record of its source is written, and the advance of its mark counter passed on. -/
theorem exec_guideFrame {frame : List Byte} {station : Station} {payload : List Byte}
    (h : Arrives s frame .audioUp station payload) (hl : payload.length = 132) (hr : s.source i = some r)
    (hst : r.config.station = station) (hstream : r.config.stream.val = byteAt payload 0)
    (unique : ∀ j r', s.source j = some r' → r'.config.station = station → r'.config.stream = r.config.stream → j = i)
    (guide : r.config.kind = .guide)
    (fresh : r.live.phase = .live → ∃ a, r.live.lastSeq = some a ∧
      0 < (BitVec.ofNat 16 (wordAt payload 2) - a).toNat ∧ (BitVec.ofNat 16 (wordAt payload 2) - a).toNat < 32768) :
    ∃ u r', exec (.audioUp frame) s =
        .next (passMark i (markAdvance .guide r.live (BitVec.ofNat 4 (byteAt payload 1))) u) ∧
      KeepsAllBut [.sources, .egress] s u ∧ u.source i = some r' ∧
      r'.live.counters.ignoredMark = r.live.counters.ignoredMark := by
  obtain ⟨dup, late, -⟩ := judgeSequence_accepted fresh
  have filled : payload ≠ [] := fun e => by
    rw [e] at hl
    cases hl
  have owner : ∀ j r', (countReceived s).source j = some r' → OwnsStream station (byteAt payload 0) r' → j = i :=
    fun j r' hj ⟨a, b⟩ => unique j r' hj a (Fin.ext (b.trans hstream.symm))
  obtain ⟨r', hr'⟩ : ∃ r', r' = acceptedSource r
    (decide (judgeSequence r.live (BitVec.ofNat 16 (wordAt payload 2)) = .newerWithGap)) payload := ⟨_, rfl⟩
  have taken : takeAudio station payload (countReceived s) = passMark i
      (markAdvance .guide r.live (BitVec.ofNat 4 (byteAt payload 1))) ((countReceived s).putSource i (some r')) := by
    rw [takeAudio_of_owner filled (s := countReceived s) hr ⟨hst, hstream⟩ owner,
      takeSourceFrame_accepted hl rfl dup late, guide, hr']
  refine ⟨_, r', (exec_audioUp h).trans (congrArg Host.Outcome.next taken), ?_, ?_, ?_⟩
  · exact putSource_keeps (putLinkCounters_keeps .refl (by decide)) (by decide)
  · exact (State.putSource_source _ i i _).trans (if_pos rfl)
  · rw [hr']
    rfl

/-! ### The tour that takes an advance -/

/-- The source guides the LIVE tour of a slot. -/
def Guides (s : State) (i : Fin 48) (k : Fin 16) : Prop :=
  (s.tour k).live.phase = .live ∧ ∃ p, (s.tour k).plan = some p ∧ p.guide = i

theorem takesAdvance_iff : takesAdvance s i k = true ↔ Guides s i k := by
  unfold takesAdvance Guides
  cases (s.tour k).plan <;> simp

theorem passAdvance_of_unguided (hr : s.source i = some r) (h : ∀ k, ¬ Guides s i k) :
    passAdvance i d s = s.putSource i (some { r with live := { r.live with
      counters := { r.live.counters with ignoredMark := satAdd r.live.counters.ignoredMark d } } }) := by
  have none_ : (indices 16).filter (takesAdvance s i) = [] :=
    List.filter_eq_nil_iff.2 fun k _ hk => h k (takesAdvance_iff.1 hk)
  unfold passAdvance
  rw [none_]
  dsimp only
  rw [hr]

theorem filter_indices_eq (k : Fin 16) : (indices 16).filter (fun j => decide (j = k)) = [k] := by decide +revert

theorem passAdvance_of_guided (h : Guides s i k) (only : ∀ k', Guides s i k' → k' = k) :
    passAdvance i d s = takeAdvance d k s := by
  have one : (indices 16).filter (takesAdvance s i) = [k] := by
    have same : ∀ j ∈ indices 16, takesAdvance s i j = decide (j = k) := fun j _ => by
      rw [Bool.eq_iff_iff, takesAdvance_iff, decide_eq_true_iff]
      exact ⟨only j, fun e => e ▸ h⟩
    rw [List.filter_congr same, filter_indices_eq]
  unfold passAdvance
  rw [one]
  rfl

/-- The advance is passed on after the record of the source is written, which the tours do not see. -/
theorem Guides.of_intake (h : KeepsAllBut [.sources, .egress] s u) : Guides u i k ↔ Guides s i k := by
  unfold Guides
  rw [h.tour_eq (by decide)]

/-! ### Both outcomes of an advance -/

theorem takeAdvance_keepsParts (d : Nat) (k : Fin 16) (u : State) :
    KeepsAllBut [.tours, .programs, .zones, .events, .egress] u (takeAdvance d k u) :=
  takeAdvance_keeps .refl (by decide) (by decide) (by decide) (by decide) (by decide)

/-- At the last stop an advance is reported only (R74). -/
theorem takeAdvance_atEnd (h : KeepsAllBut [.sources, .egress] s u) (hp : (s.tour k).plan = some p)
    (last : lastStop p ≤ (s.tour k).live.stop) :
    EventsTaken [⟨.endOfRoute, s.mge.hubTime, k.val, some (s.tour k).live.run, d⟩] s (takeAdvance d k u) ∧
    KeepsAllBut [.sources, .events, .egress] s (takeAdvance d k u) := by
  have tour : u.tour k = s.tour k := h.tour_eq (by decide) k
  rw [takeAdvance_last (by rw [tour]; exact hp) (by rw [tour]; exact last)]
  refine ⟨?_, raiseTour_keeps (h.mono (by decide)) (by decide) (by decide)⟩
  rw [raiseTour, tour]
  exact .raise_of_evq (h.evq_eq (by decide)) (h .hubTime (by decide))

/-- Short of the last stop it moves the tour, acts on the zone of the stop and writes the fallback. -/
theorem takeAdvance_short (h : KeepsAllBut [.sources, .egress] s u) (hp : (s.tour k).plan = some p)
    (short : (s.tour k).live.stop < lastStop p) : ∃ v, StopMoved k (min ((s.tour k).live.stop + d) (lastStop p)) d s v ∧
      takeAdvance d k u = writeStage k (followStop k v) := by
  have tour : u.tour k = s.tour k := h.tour_eq (by decide) k
  refine ⟨_, (stopMoved_spec d _ k u).of_intake h, ?_⟩
  rw [takeAdvance_moves (by rw [tour]; exact hp) (by rw [tour]; exact short), tour]

/-- Settles O18: the mark counter is judged, the one tour that it guides takes the advance, and the new stop is followed;
exact where no zone that the tour leaves serves another tour. -/
theorem markAdvanceTaken : Obligations.MarkAdvanceTaken := by
  unfold Obligations.MarkAdvanceTaken
  intro s frame station payload i r h hl hr hst hstream unique guide fresh mark guided baseline
  obtain ⟨u, r', run, kept, hr', ignored⟩ := exec_guideFrame h hl hr hst hstream unique guide fresh
  have same {t : State} {ps : List Part} (k : KeepsAllBut ps u t) (hs : Part.sources ∉ ps) :
      (t.source i).map (fun x => x.live.counters.ignoredMark) = some r.live.counters.ignoredMark := by
    rw [k.source_eq hs i, hr', ← ignored]
    rfl
  rw [run]
  refine ⟨fun base => ?_, fun base unguided => ?_, fun base k p hk only hp => ?_⟩
  · rw [markAdvance_of_baseline base]
    exact ⟨u, rfl, kept, same (ps := []) .refl (by decide)⟩
  · obtain ⟨m, hm, advance⟩ := markAdvance_of_not_baseline base
    rw [advance]
    refine ⟨_, m, rfl, hm, ?_⟩
    rw [passMark, passAdvance_of_unguided hr' fun k hk => unguided k ((Guides.of_intake kept).1 hk)]
    refine ⟨putSource_keeps kept (by decide), ?_⟩
    rw [State.putSource_source, if_pos rfl, ← ignored]
    rfl
  obtain ⟨m, hm, advance⟩ := markAdvance_of_not_baseline base
  have taken : passMark i (some (mark - m).toNat) u = takeAdvance (mark - m).toNat k u :=
    passAdvance_of_guided ((Guides.of_intake kept).2 hk) fun k' hk' => only k' ((Guides.of_intake kept).1 hk')
  have parts := takeAdvance_keepsParts (mark - m).toNat k u
  rw [advance, taken]
  by_cases short : (s.tour k).live.stop < lastStop p
  · obtain ⟨v, moved, eq⟩ := takeAdvance_short kept (d := (mark - m).toNat) hp short
    have running : isRunning (s.tour k) = true := by rw [isRunning, hk.1]; rfl
    obtain ⟨stops, -, spared, written⟩ := advanceTaken moved hp
    obtain ⟨more, events, told⟩ := moved.events_told running hp
    rw [eq] at parts ⊢
    refine ⟨_, m, more, rfl, hm, same parts (by decide), ?_, (kept.mono (by decide)).trans (parts.mono (by decide))⟩
    intro l d last stop found record
    refine ⟨fun k' => ?_, fun e => absurd short (Nat.not_lt.2 e), fun _ => events, fun _ placed cur st hcur hs => ?_⟩
    · rw [stops]
      by_cases e : k' = k
      · rw [if_pos e, if_pos ⟨e, short⟩]
        rfl
      · rw [if_neg e, if_neg fun h => e h.1]
    intro z need w carried queue head served enters joins opens jumps
    have hneed : need = tourNeed l := (tourNeed_eq l).symm
    have hserved (y : Fin 12) : served y ↔ leftZone s k z = some y := (leftZone_iff placed).symm
    have hcarried (y : Fin 12) : carried y = leftCarried s k y := by
      show _ - (if _ then need else 0) = _
      rw [hneed]
      rfl
    have hE : enters ↔ EntersStop s k z cur := by
      show z ≠ cur ∧ _ ∧ carried z + need ≤ 8 ↔ _
      rw [hcarried, hneed]
      rfl
    refine ⟨fun y x hy hx fits => ?_, fun nobody jumped => ?_, spared, written st hs⟩
    · exact moved.serves placed running hp hs hcur ((hserved y).1 hy) hx (by rw [← hcarried]; exact fits)
    have nobody' : NobodyServed s k z cur := by
      refine ⟨fun y x hy hx => ?_, fun he hw x hx => ?_⟩
      · rw [← hcarried]
        exact nobody y x ((hserved y).2 hy) hx
      · rw [← hcarried, show tourNeed (s.tour k).live = need from hneed.symm]
        exact jumped x ⟨hE.2 he, hw⟩ hx
    obtain ⟨rfl, tour, away, channel, zone⟩ := told enters cur st placed hcur hs hE nobody'
    refine ⟨?_, away, fun c => ?_, fun y => ?_⟩
    · intro set bits
      have hbits : entrySet (spokenEntries p st) = bits := by rw [spokenEntries_eq, entrySet_filter]
      rw [tour, followEvents, cutEvents, hbits]
      refine ⟨?_, rfl⟩
      congr 3
      show l.prevZone.toList.map _ = _
      cases l.prevZone <;> rfl
    · rw [channel]
      by_cases hc : c ∈ tourChannels l
      · rw [if_pos hc, if_pos (mem_tourChannels_iff.1 hc)]
        rfl
      · rw [if_neg hc, if_neg fun h => hc (mem_tourChannels_iff.2 h)]
    · have after := zone y
      rw [← hcarried, show tourNeed (s.tour k).live = need from hneed.symm] at after
      exact after
  · obtain ⟨event, others⟩ := takeAdvance_atEnd kept (d := (mark - m).toNat) hp (Nat.not_lt.1 short)
    refine ⟨_, m, [], rfl, hm, same parts (by decide), ?_, (kept.mono (by decide)).trans (parts.mono (by decide))⟩
    intro l d last stop found record
    refine ⟨fun k' => ?_, fun _ => ⟨event, others⟩, fun e => absurd e short, fun e => absurd e short⟩
    rw [if_neg fun h => short h.2, others.tour_eq (by decide)]

end Sys2Proof.Machine
end
